-- ==== Sys2Proof/Word.lean ====
section
/-! DEFINITION. The words of the part: bytes, time-base values, frame numbers, slots and colour components. -/

namespace Sys2Proof

/-- One byte of the serial link or of a packet. -/
abbrev Byte := BitVec 8

/-- A value of the 40-bit time base, in 10 ns ticks (R50). Differences wrap modulo 2^40. -/
abbrev Time := BitVec 40

/-- A 32-bit frame number, wrapping from 2^32 - 1 to 0 (section 1.6). -/
abbrev FrameNo := BitVec 32

/-- One of the four slots of the strip store (section 1.6). -/
abbrev Slot := Fin 4

/-- The three channels of a pixel, a table entry, a mask or a colour, in channel order (R114). -/
structure Three (α : Type) where
  c0 : α
  c1 : α
  c2 : α
  deriving DecidableEq, Repr, Inhabited

/-- A pixel as it arrives: three 10-bit components (R26). -/
abbrev Pixel := Three (BitVec 10)

/-- A pixel as it leaves at the panel port, at most ten bits a channel (R116). -/
abbrev OutPixel := Three (BitVec 10)

/-- A component mask: three 10-bit values (R130, field 18). -/
abbrev Mask := Three (BitVec 10)

/-- A 12-bit colour: a table entry or the blank colour (R112, R130 field 16). -/
abbrev Colour := Three (BitVec 12)

end Sys2Proof
end

