-- ==== Sys2Proof/Syntax.lean ====
section
/-! DEFINITION. The commands of the part: one constructor for each row of spec/opcode_table.json, with the operands the event carries. -/

namespace Sys2Proof

/-- The commands and events that change the part's state. A request row stands for the execution of the
oldest request in the request slots, so its operands are that request's payload bytes (R166). -/
inductive Instr where
  /-- Power-on, or RESET_N asserted (R161). -/
  | powerOnReset
  /-- RESET_N released (R50). -/
  | resetNRelease
  /-- Frame Start at the source port (R28). -/
  | frameStart
  /-- Line: its symbol-error flag and its pixels; the pixel count is their number (R26, R30). -/
  | line (symErr : Bool) (pixels : List Pixel)
  /-- Frame End (R33). -/
  | frameEnd
  /-- Packet: type byte, version byte and payload; the length is the number of payload bytes (R26, R147). -/
  | packet (ptype version : Byte) (payload : List Byte)
  /-- Signal Lost (R38). -/
  | signalLost
  /-- Signal Restored (R39). -/
  | signalRestored
  /-- The Tmin timer expires (R73). -/
  | tminExpiry
  /-- The repeat timer expires (R75, R76). -/
  | repeatTimerExpiry
  /-- The fixed timer expires (R79). -/
  | fixedTimerExpiry
  /-- The next strip read of the scan (R71). -/
  | stripRead
  /-- The scan end (R71). -/
  | scanEnd
  /-- More than 4,000 ticks have passed without a byte (R163). -/
  | gapEvent
  /-- LINK_RX has been at the spacing level for 800 ticks (R163). -/
  | breakEvent
  /-- The byte that completes a message, or declares one over-long (R162, R164, R165). -/
  | messageReceived (b : Byte)
  /-- The overrun marker's reply enters the reply queue (R165, R166). -/
  | overrunReply
  /-- A completed deferred reply enters the reply queue (R167). -/
  | deferredReply
  /-- The oldest request is answered without reaching its block (R166, steps 1 to 3). -/
  | requestRefused
  /-- The last byte of a reply has gone out (R168). -/
  | replySent
  /-- The last byte of a notice has gone out (R168). -/
  | noticeSent
  | getIdentity
  | getStatus
  | setNotices
  | setPanelLimits
  | proposeProfile
  | confirmProfile
  | withdrawProfile
  | clearFault
  | tuneProfile
  | getProfile
  | lutWrite
  | lutCommit
  | lutRead
  | setFilter
  | readCapture
  | readHistory
  | reattachSource
  | pipelineReset
  /-- A byte arriving on LINK_RX (R162). -/
  | byteReceived (b : Byte)
  deriving DecidableEq, Repr

end Sys2Proof
end

