-- ==== Sys2Proof/Decode.lean ====
section
/-! DEFINITION. The command a table word spells. No row of spec/opcode_table.json gives any bits (every row's
fields are empty), so no word spells a command (Log 30). -/

namespace Sys2Proof

/-- The command that the `nbits` bits of `w` spell by the table's bits: none, as no row gives bits. -/
def decodeTableWord (_nbits _w : Nat) : Option Instr := none

end Sys2Proof
end

