-- ==== Sys2Proof/Config.lean ====
section
/-! DEFINITION. The constants the manual fixes, and the free values of what it leaves open (constants with no body,
of which nothing can be evaluated or proved). -/

namespace Sys2Proof

/-- The orders in which a refresh start may take a tune merge, the Q publication that follows it, and the
scheduler's choice (R57, R98). The publication never precedes the merge. -/
inductive RefreshOrder where
  | mergePublishChoose
  | mergeChoosePublish
  | chooseMergePublish
  deriving DecidableEq, Repr, Inhabited

/-- FREE VALUE (Log 6). What a pixel of the strip store holds that nothing has written (R2):
slot, line, column. -/
opaque Config.unwrittenPixel : Nat → Nat → Nat → Pixel

/-- FREE CHOICE (Log 10). The order taken at the refresh start that is the n-th free choice. -/
opaque Config.refreshOrder : Nat → RefreshOrder

/-- FREE CHOICE (Log 2). Which of several events due at one moment is taken at the n-th free choice; the number
is taken modulo how many are due. -/
opaque Config.dueChoice : Nat → Nat

/-- FREE CHOICE (Log 37). Whether, at the n-th free choice, a window takes its emptying before the sample of the same
moment (R52, R54). -/
opaque Config.sampleLast : Nat → Bool

/-- FREE CHOICE (Log 11). Whether, at the n-th free choice, the pacing unit takes an eligibility event before the refresh
start that it falls together with (R60). -/
opaque Config.eventFirst : Nat → Bool

/-- The largest interval sample that is entered (R46). -/
def maxInterval : Nat := 16777216

/-- The largest tick count of a limits or profile field (R128, R130). -/
def maxTicks : Nat := 10000000

/-- The smallest Tmin_abs (R128). -/
def minTminAbs : Nat := 208333

/-- Lines in one slot of the strip store: frames are at most 2160 lines high (section 1.6). -/
def linesPerSlot : Nat := 2160

/-- Ticks that one byte takes on the serial link (section 1.9). -/
def byteTicks : Nat := 400

/-- The gap of the gap test (R163). -/
def gapTicks : Nat := 4000

/-- The longest payload the assembler collects (R162, R164). -/
def maxPayload : Nat := 2048

/-- The clean run at which the source re-attaches (R41). -/
def reattachRun : Nat := 16

/-- Records the history ring holds (R153). -/
def ringSize : Nat := 32

/-- Entries of a colour table bank (R119). -/
def bankSize : Nat := 257

/-- Entries of the reply queue (R166). -/
def queueSize : Nat := 4

/-- The request slots (R161). -/
def requestSlots : Nat := 2

/-- Longest payload of a packet that is captured (R147). -/
def maxPacket : Nat := 28

end Sys2Proof
end

