-- ==== Sys2Proof/Machine/State.lean ====
section
/-! DEFINITION. The part's state as plain data, every item that the chapters' state tables name, and the state right after reset. -/

namespace Sys2Proof.Machine

/-- Fill state of a slot (R3). -/
inductive FillState where
  | empty | filling | complete | aborted
  deriving DecidableEq, Repr

/-- Fate of a frame (R158). -/
inductive Fate where
  | pending | shown | partShown | replaced | errorDropped | foreign | flushed
  deriving DecidableEq, Repr

/-- Source state (R25). -/
inductive SourceState where
  | unarmed | clean | watch | guarded | detached
  deriving DecidableEq, Repr

/-- Frame condition (R27). -/
inductive FrameCond where
  | none | taken | foreign | observed | ignored
  deriving DecidableEq, Repr

/-- Pacing field of a profile, and the OTG's mode when a profile is active (R68, R130). -/
inductive Pacing where
  | adaptive | fixed
  deriving DecidableEq, Repr

/-- Timing state of the output timing generator (R68). -/
inductive Timing where
  | idle | scan | blankMin | blankOpen | blank
  deriving DecidableEq, Repr

/-- Lock state (R81 to R84). -/
inductive Lock where
  | freeRun | acquire | track
  deriving DecidableEq, Repr

/-- Kind of a refresh (R92). -/
inductive RefreshKind where
  | new | repeated | blank
  deriving DecidableEq, Repr

/-- Tear policy (R130, field 12). -/
inductive Tear where
  | sync | splice
  deriving DecidableEq, Repr

/-- Output component depth (R130, field 17). -/
inductive Depth where
  | d8 | d10
  deriving DecidableEq, Repr

/-- Proposal state (R127). -/
inductive ProposalState where
  | none | held | confirmed
  deriving DecidableEq, Repr

/-- Assembler state (R161). -/
inductive AsmState where
  | waiting | header | payload | discarding
  deriving DecidableEq, Repr

/-- Entry code of a request (R161). -/
inductive EntryCode where
  | none | malformed | tooLong
  deriving DecidableEq, Repr

/-- Status codes of replies (section 11.3). -/
inductive Status where
  | ok | malformed | tooLong | overrun | unknown | badField | outOfLimits | locked | noLimits
  | noProfile | sequence | faulted | conflict | noProposal | aborted | notDetached | busy
  deriving DecidableEq, Repr

/-- One slot record (R1). -/
structure SlotRec where
  fill : FillState
  frameNo : Option FrameNo
  filled : Nat
  bad : Nat
  truncated : Bool
  firstLine : Option Time
  lastLine : Option Time
  presented : Bool
  shownTop : Bool
  eligible : Bool
  deriving DecidableEq, Repr

/-- The record of a free slot: the last column of R1. -/
def SlotRec.free : SlotRec where
  fill := .empty
  frameNo := none
  filled := 0
  bad := 0
  truncated := false
  firstLine := none
  lastLine := none
  presented := false
  shownTop := false
  eligible := false

/-- One row of the strip store: where it stands (slot × 2160 + line) and the pixels written from its left edge. -/
abbrev StoreRow := Nat × List Pixel

/-- The slot pool: records, role markers, candidate list, its copy of Q, and the strip store (R1, R2, R4, R11, R13). -/
structure SlotPool where
  slots : Vector SlotRec 4
  filling : Option Slot
  ready : Option Slot
  held : Option Slot
  onScreen : Option Slot
  cands : List Slot
  q : Option Nat
  store : List StoreRow
  deriving DecidableEq, Repr

/-- The previous-frame reference: a first-line arrival time and its foreign mark (R25). -/
structure PrevRef where
  time : Time
  foreign : Bool
  deriving DecidableEq, Repr

/-- The source port (R25). `closeBad` keeps, for the later close report of a foreign frame, the bad strips its
record had when it left FILLING (R1, R28, R33; Log 16). -/
structure SourcePort where
  state : SourceState
  score : Nat
  cleanRun : Nat
  signal : Bool
  frameCounter : FrameNo
  cond : FrameCond
  lineCount : Nat
  stripErr : Bool
  obsClean : Bool
  firstPixels : Nat
  prevRef : Option PrevRef
  closeBad : Nat
  deriving DecidableEq, Repr

/-- The pacing unit (R51). `sampledNow` and `filledNow` are the model's: the newest interval sample and the newest fill
sample were entered at this very moment, since the last tick, for an emptying of the same moment (R52, R54; Log 37). -/
structure PacingUnit where
  intervals : List Nat
  fills : List Nat
  ti : Option Nat
  fi : Option Nat
  q : Option Nat
  lastQ : Option Nat
  planActive : Bool
  k : Nat
  tr : Nat
  nextFixed : Nat
  armed : Bool
  good : Nat
  bad : Nat
  admitted : Bool
  sampledNow : Bool
  filledNow : Bool
  deriving DecidableEq, Repr

/-- A timer: stopped, or running toward an expiry time (R69). -/
inductive Timer where
  | stopped
  | running (expiry : Time)
  deriving DecidableEq, Repr

/-- The output timing generator (R68). -/
structure OutputTiming where
  mode : Option Pacing
  timing : Timing
  lock : Lock
  tLast : Time
  tminTimer : Timer
  minPassed : Bool
  repeatTimer : Timer
  keptRepeat : Bool
  planCount : Nat
  fixedTimer : Timer
  keptFixed : Bool
  nextStrip : Nat
  pendingApp : Bool
  pendingReset : Bool
  deriving DecidableEq, Repr

/-- The presentation scheduler (R90). -/
structure Scheduler where
  lastKind : Option RefreshKind
  detachTime : Option Time
  blankActive : Bool
  watchOpen : Bool
  q : Option Nat
  deriving DecidableEq, Repr

/-- The colour settings in force for a scan (R113). -/
structure ScanSettings where
  lut : Bool
  depth : Depth
  mask : Mask
  blank : Colour
  deriving DecidableEq, Repr

/-- The colour stage (R112). The pending commit reply is the tag held in the message link's LUT record (Log 19). -/
structure ColourStage where
  active : List Colour
  shadow : List Colour
  shadowPending : Bool
  scan : Option ScanSettings
  deriving DecidableEq, Repr

/-- The panel limits (R128). -/
structure Limits where
  tminAbs : Nat
  tmaxAbs : Nat
  scanMin : Nat
  blankMin : Nat
  deriving DecidableEq, Repr

/-- A profile record, its nineteen fields in order (R130). -/
structure Profile where
  width : Nat
  height : Nat
  scanTime : Nat
  winMin : Nat
  winMax : Nat
  pacing : Pacing
  fixedInterval : Nat
  lock : Bool
  lockGuard : Nat
  race : Bool
  raceMargin : Nat
  tear : Tear
  spliceLimit : Nat
  repeatPlan : Bool
  holdTimeout : Nat
  blankColour : Colour
  outDepth : Depth
  mask : Mask
  lut : Bool
  deriving DecidableEq, Repr

/-- The pending tune set: each tunable field absent or a value (R127, R141). -/
structure TuneSet where
  race : Option Bool
  raceMargin : Option Nat
  tear : Option Tear
  spliceLimit : Option Nat
  holdTimeout : Option Nat
  blankColour : Option Colour
  mask : Option Mask
  lut : Option Bool
  deriving DecidableEq, Repr

/-- The empty tune set. -/
def TuneSet.empty : TuneSet := ⟨none, none, none, none, none, none, none, none⟩

/-- The profile controller (R127). -/
structure ProfileCtl where
  limits : Option Limits
  active : Option Profile
  propState : ProposalState
  proposal : Option Profile
  faulted : Bool
  tune : TuneSet
  deriving DecidableEq, Repr

/-- A filter entry (R145). -/
structure FilterEntry where
  enabled : Bool
  code : BitVec 16
  mask : BitVec 16
  deriving DecidableEq, Repr

/-- A present capture record; its length field is the number of payload bytes (R146). -/
structure Capture where
  ptype : Byte
  version : Byte
  payload : List Byte
  arrival : Time
  frameCounter : FrameNo
  changed : Bool
  deriving DecidableEq, Repr

/-- The packet filter: four entries, each with a capture record that may be absent (R145, R146). -/
structure PacketFilter where
  entries : Vector FilterEntry 4
  captures : Vector (Option Capture) 4
  deriving DecidableEq, Repr

/-- The first presentation of a frame; a SPLICE has its entry strip (R154). -/
inductive Presentation where
  | refresh (at_ : Time)
  | splice (at_ : Time) (entry : Nat)
  deriving DecidableEq, Repr

/-- A record of the history ring (R154). -/
structure FrameRec where
  frameNo : FrameNo
  slot : Slot
  firstLine : Time
  completion : Option Time
  bad : Nat
  truncated : Bool
  count : Nat
  first : Option Presentation
  latency : Option Time
  substituted : Nat
  fate : Fate
  deriving DecidableEq, Repr

/-- A request in its slot (R161). -/
structure Request where
  type : Byte
  tag : Byte
  payload : List Byte
  entry : EntryCode
  deriving DecidableEq, Repr

/-- A reply: tag, status, field number and body (R174). -/
structure Reply where
  tag : Byte
  status : Status
  field : Nat
  body : List Byte
  deriving DecidableEq, Repr

/-- A deferred-reply record (R161, R167). -/
inductive Deferred where
  | empty
  | waiting (tag : Byte)
  | completed (tag : Byte) (status : Status)
  deriving DecidableEq, Repr

/-- The three operations that finish later than their requests (R167). -/
inductive DeferredKind where
  | profileApply | lutCommit | pipelineReset
  deriving DecidableEq, Repr

/-- The content of a notice, one constructor a kind, in kind order (R169, section 11.4). -/
inductive Notice where
  | sourceState (state : SourceState) (score : Nat)
  | lockState (lock : Lock)
  | foreignFrame (pixels lines : Nat)
  | outputBlank (detach start : Time)
  | packetChanged (changed : Vector Bool 4)
  deriving DecidableEq, Repr

/-- A notice with its occurrence count: pending, or frozen for sending (R169). -/
structure NoticeMsg where
  content : Notice
  count : Nat
  deriving DecidableEq, Repr

/-- The transmitter: idle, sending the oldest reply, or sending a notice, with the time it began (R161, R168). -/
inductive Transmitter where
  | idle
  | reply (since : Time)
  | notice (msg : NoticeMsg) (since : Time)
  deriving DecidableEq, Repr

/-- The message link (R161). HOLD is a view of the request slots (R165; Log 20). `enables` and `notices` are
indexed by kind number less one. -/
structure MessageLink where
  asm : AsmState
  partialMsg : List Byte
  lastByte : Option Time
  slots : List Request
  overrun : Option Byte
  replies : List Reply
  defProfile : Deferred
  defLut : Deferred
  defReset : Deferred
  doneOrder : List DeferredKind
  tx : Transmitter
  enables : Vector Bool 5
  notices : Vector (Option NoticeMsg) 5
  deriving DecidableEq, Repr

/-- Where a strip sent at the panel port came from (R100). -/
inductive StripSource where
  | onScreen (slot : Slot)
  | heldSlot (slot : Slot)
  | blank
  deriving DecidableEq, Repr

/-- A strip as it leaves at the panel port: eight lines of output pixels (R71, R114 to R118). -/
structure PanelStrip where
  index : Nat
  sentAt : Time
  source : StripSource
  depth : Depth
  lines : List (List OutPixel)
  deriving DecidableEq, Repr

/-- The panel port: the time of the last refresh strobe and the last strip sent. The MODEL's own fields for what
leaves the part (Log 21). -/
structure PanelPort where
  refreshAt : Option Time
  strip : Option PanelStrip
  deriving DecidableEq, Repr

/-- The whole part. `choices` counts the free choices taken (Log 2); `pending` is the queue of waiting commands. -/
structure State where
  timeBase : Time
  resetAsserted : Bool
  pool : SlotPool
  sp : SourcePort
  pu : PacingUnit
  otg : OutputTiming
  ps : Scheduler
  cs : ColourStage
  pc : ProfileCtl
  pf : PacketFilter
  hr : List FrameRec
  ml : MessageLink
  panel : PanelPort
  choices : Nat
  pending : List Instr
  deriving DecidableEq, Repr

/-- Why the machine stops with a fault. -/
inductive Fault where
  /-- Raised by FRAME_START alone: a taken Frame Start finds every slot designated by a marker. R6 says that a taken
  Frame Start always finds a free slot, so no run reaches it. SAFE (Log 17). -/
  | noFreeSlot
  deriving DecidableEq, Repr

/-- Why a command is refused. -/
inductive Refusal where
  /-- The dispatcher's answer for a row with no meaning; no row of this model has it. SAFE. -/
  | notModelled (mnemonic : String)
  /-- Raised by LINE and PACKET: the operands lie outside R26 (a pixel count above 65,535, a length above 255), so the
  receiver cannot deliver the event. SAFE (Log 8). -/
  | illFormed
  deriving DecidableEq, Repr

/-- Replace one block of the state. -/
def State.setTimeBase (s : State) (x : Time) : State := { s with timeBase := x }
def State.setPool (s : State) (x : SlotPool) : State := { s with pool := x }
def State.setSp (s : State) (x : SourcePort) : State := { s with sp := x }
def State.setPu (s : State) (x : PacingUnit) : State := { s with pu := x }
def State.setOtg (s : State) (x : OutputTiming) : State := { s with otg := x }
def State.setPs (s : State) (x : Scheduler) : State := { s with ps := x }
def State.setCs (s : State) (x : ColourStage) : State := { s with cs := x }
def State.setPc (s : State) (x : ProfileCtl) : State := { s with pc := x }
def State.setPf (s : State) (x : PacketFilter) : State := { s with pf := x }
def State.setHr (s : State) (x : List FrameRec) : State := { s with hr := x }
def State.setMl (s : State) (x : MessageLink) : State := { s with ml := x }
def State.setPanel (s : State) (x : PanelPort) : State := { s with panel := x }
def State.setChoices (s : State) (x : Nat) : State := { s with choices := x }
def State.setPending (s : State) (x : List Instr) : State := { s with pending := x }

/-- The identity table: every component of entry i is min(4095, 16 × i) (R119). -/
def identityBank : List Colour :=
  (List.range bankSize).map fun i =>
    let v := BitVec.ofNat 12 (min 4095 (16 * i))
    ⟨v, v, v⟩

/-- The slot pool at power-on, over a strip store that power-on does not clear (R2, R23). -/
def SlotPool.powerOn (store : List StoreRow) : SlotPool where
  slots := Vector.replicate 4 SlotRec.free
  filling := none
  ready := none
  held := none
  onScreen := none
  cands := []
  q := none
  store := store

/-- The source port at power-on (R25). -/
def SourcePort.powerOn : SourcePort where
  state := .unarmed
  score := 0
  cleanRun := 0
  signal := false
  frameCounter := 0
  cond := .none
  lineCount := 0
  stripErr := false
  obsClean := false
  firstPixels := 0
  prevRef := none
  closeBad := 0

/-- The pacing unit at power-on (R51). -/
def PacingUnit.powerOn : PacingUnit where
  intervals := []
  fills := []
  ti := none
  fi := none
  q := none
  lastQ := none
  planActive := false
  k := 0
  tr := 0
  nextFixed := 0
  armed := false
  good := 0
  bad := 0
  admitted := false
  sampledNow := false
  filledNow := false

/-- The output timing generator at power-on (R68). -/
def OutputTiming.powerOn : OutputTiming where
  mode := none
  timing := .idle
  lock := .freeRun
  tLast := 0
  tminTimer := .stopped
  minPassed := false
  repeatTimer := .stopped
  keptRepeat := false
  planCount := 0
  fixedTimer := .stopped
  keptFixed := false
  nextStrip := 0
  pendingApp := false
  pendingReset := false

/-- The presentation scheduler at power-on (R90). -/
def Scheduler.powerOn : Scheduler where
  lastKind := none
  detachTime := none
  blankActive := false
  watchOpen := false
  q := none

/-- The colour stage at power-on (R112). -/
def ColourStage.powerOn : ColourStage where
  active := identityBank
  shadow := identityBank
  shadowPending := false
  scan := none

/-- The profile controller at power-on (R127). -/
def ProfileCtl.powerOn : ProfileCtl where
  limits := none
  active := none
  propState := .none
  proposal := none
  faulted := false
  tune := TuneSet.empty

/-- The packet filter at power-on (R145, R146). -/
def PacketFilter.powerOn : PacketFilter where
  entries := Vector.replicate 4 ⟨false, 0, 0⟩
  captures := Vector.replicate 4 none

/-- The message link at power-on (R161). -/
def MessageLink.powerOn : MessageLink where
  asm := .waiting
  partialMsg := []
  lastByte := none
  slots := []
  overrun := none
  replies := []
  defProfile := .empty
  defLut := .empty
  defReset := .empty
  doneOrder := []
  tx := .idle
  enables := Vector.replicate 5 false
  notices := Vector.replicate 5 none

/-- The part right after reset: every block at its power-on state, RESET_N released (Log 4), nothing written in the
strip store, nothing sent at the panel port, an empty queue (Log 23). -/
def State.reset : State where
  timeBase := 0
  resetAsserted := false
  pool := SlotPool.powerOn []
  sp := SourcePort.powerOn
  pu := PacingUnit.powerOn
  otg := OutputTiming.powerOn
  ps := Scheduler.powerOn
  cs := ColourStage.powerOn
  pc := ProfileCtl.powerOn
  pf := PacketFilter.powerOn
  hr := []
  ml := MessageLink.powerOn
  panel := ⟨none, none⟩
  choices := 0
  pending := []

end Sys2Proof.Machine
end

