-- ==== Sys2Proof/Machine/Ops.lean ====
section
/-! DEFINITION. The named operations over time, timers, slots, the strip store and the active profile. -/

namespace Sys2Proof.Machine

/-- The moment of the present event: the value of the time base (R50). -/
def State.now (s : State) : Time := s.timeBase

/-- A later timestamp minus an earlier one, modulo 2^40 (R50). -/
def elapsed (later earlier : Time) : Nat := (later - earlier).toNat

/-- The moment `v` ticks after `t`, modulo 2^40 (R50, R69). -/
def plusTicks (t : Time) (v : Nat) : Time := t + BitVec.ofNat 40 v

/-- Loading a timer with `v` at the present moment (R69). -/
def State.timerAfter (s : State) (v : Nat) : Timer := .running (plusTicks s.now v)

/-- A timer whose expiry falls at the present moment (R69). -/
def State.due (s : State) (t : Timer) : Bool := t = .running s.now

/-- What the readers of the active profile see while none is active: no run reads it (Log 18). -/
def Profile.absent : Profile where
  width := 0
  height := 0
  scanTime := 0
  winMin := 0
  winMax := 0
  pacing := .adaptive
  fixedInterval := 0
  lock := false
  lockGuard := 0
  race := false
  raceMargin := 0
  tear := .sync
  spliceLimit := 0
  repeatPlan := false
  holdTimeout := 0
  blankColour := ⟨0, 0, 0⟩
  outDepth := .d10
  mask := ⟨0, 0, 0⟩
  lut := false

/-- The active profile as its readers see it (R127). -/
def State.prof (s : State) : Profile := s.pc.active.getD Profile.absent

/-- S, the number of strips of a frame (section 1.6). -/
def Profile.strips (p : Profile) : Nat := p.height / 8

/-- The three source states in which frames are taken (R28). -/
def SourceState.attached : SourceState → Bool
  | .clean | .watch | .guarded => true
  | .unarmed | .detached => false

/-- The source states in which a frame may race and the lock may hold (R12, R81). -/
def SourceState.healthy : SourceState → Bool
  | .clean | .watch => true
  | .unarmed | .guarded | .detached => false

/-- The record of a slot (R1). -/
def SlotPool.slot (p : SlotPool) (k : Slot) : SlotRec := p.slots[k]

/-- Write the record of a slot. -/
def SlotPool.setSlot (p : SlotPool) (k : Slot) (r : SlotRec) : SlotPool :=
  { p with slots := p.slots.set k.val r k.isLt }

/-- The record of a slot of the state's pool. -/
def State.slot (s : State) (k : Slot) : SlotRec := s.pool.slot k

/-- Write the record of a slot of the state's pool. -/
def State.setSlot (s : State) (k : Slot) (r : SlotRec) : State := s.setPool (s.pool.setSlot k r)

/-- The row stored at a key; unlisted rows hold no written pixel (R2). -/
def Store.row : List StoreRow → Nat → List Pixel
  | [], _ => []
  | (k, r) :: t, key => if k = key then r else Store.row t key

/-- Put a row at a key, keeping the keys rising and leaving out an empty row. -/
def Store.put : List StoreRow → Nat → List Pixel → List StoreRow
  | [], key, row => if row = [] then [] else [(key, row)]
  | (k, r) :: t, key, row =>
    if key < k then (if row = [] then (k, r) :: t else (key, row) :: (k, r) :: t)
    else if key = k then (if row = [] then t else (key, row) :: t)
    else (k, r) :: Store.put t key row

/-- The canonical form: keys strictly rising, no empty row. -/
def Store.wf : List StoreRow → Bool
  | [] => true
  | (k, r) :: t =>
    decide (r ≠ []) && (match t with | [] => true | (k', _) :: _ => decide (k < k')) && Store.wf t

/-- The key of a line position of a slot (Log 7). -/
def Store.key (k : Slot) (line : Nat) : Nat := k.val * linesPerSlot + line

/-- Storing a line: the pixels it carries, at most `width` of them, from the left edge; the rest of the line keeps
what it held (R2). -/
def Store.writeLine (st : List StoreRow) (k : Slot) (line width : Nat) (pixels : List Pixel) : List StoreRow :=
  let new := pixels.take width
  Store.put st (Store.key k line) (new ++ (Store.row st (Store.key k line)).drop new.length)

/-- The pixel at a position of the store; one that nothing has written is a free value (R2; Log 6). -/
def Store.pixel (st : List StoreRow) (k : Slot) (line col : Nat) : Pixel :=
  ((Store.row st (Store.key k line))[col]?).getD (Config.unwrittenPixel k.val line col)

/-- The eight lines of a stored strip, `width` pixels each (section 1.6, R2). -/
def Store.strip (st : List StoreRow) (k : Slot) (strip width : Nat) : List (List Pixel) :=
  (List.range 8).map fun l => (List.range width).map fun c => Store.pixel st k (8 * strip + l) c

end Sys2Proof.Machine
end

