-- ==== Sys2Proof/Machine/Operands.lean ====
section
/-! DEFINITION. The byte layouts of chapter 11: payload fields, codes, and the encodings of records and replies. -/

namespace Sys2Proof.Machine

/-- A little-endian field of `n` bytes (R173). -/
def leBytes : Nat → Nat → List Byte
  | 0, _ => []
  | n + 1, v => BitVec.ofNat 8 v :: leBytes n (v / 256)

/-- The number a little-endian field spells (R173). -/
def leNat : List Byte → Nat
  | [] => 0
  | b :: t => b.toNat + 256 * leNat t

/-- The field of `n` bytes at an offset of a payload (R173). -/
def fieldAt (bs : List Byte) (off n : Nat) : Nat := leNat ((bs.drop off).take n)

/-- A flag byte: 0 or 1 (R173). -/
def flagByte (b : Bool) : Byte := if b then 1 else 0

/-- A flag or marker field holds 0 or 1 (R173). -/
def isFlag (n : Nat) : Bool := n ≤ 1

/-- Three components of two bytes, in channel order (section 11.2.1). -/
def fieldThree (bs : List Byte) (off : Nat) : Three Nat :=
  ⟨fieldAt bs off 2, fieldAt bs (off + 2) 2, fieldAt bs (off + 4) 2⟩

/-- Whether each of three components is at most a bound. -/
def threeLe (x : Three Nat) (b : Nat) : Bool := x.c0 ≤ b && x.c1 ≤ b && x.c2 ≤ b

/-- Three numbers as a 12-bit colour. -/
def toColour (x : Three Nat) : Colour := ⟨BitVec.ofNat 12 x.c0, BitVec.ofNat 12 x.c1, BitVec.ofNat 12 x.c2⟩

/-- Three numbers as a component mask. -/
def toMask (x : Three Nat) : Mask := ⟨BitVec.ofNat 10 x.c0, BitVec.ofNat 10 x.c1, BitVec.ofNat 10 x.c2⟩

/-- Six bytes of a colour, in channel order. -/
def colourBytes (c : Colour) : List Byte := leBytes 2 c.c0.toNat ++ leBytes 2 c.c1.toNat ++ leBytes 2 c.c2.toNat

/-- Six bytes of a mask, in channel order. -/
def maskBytes (c : Mask) : List Byte := leBytes 2 c.c0.toNat ++ leBytes 2 c.c1.toNat ++ leBytes 2 c.c2.toNat

/-- Status codes (section 11.3). -/
def Status.code : Status → Byte
  | .ok => 0x00
  | .malformed => 0x01
  | .tooLong => 0x02
  | .overrun => 0x03
  | .unknown => 0x04
  | .badField => 0x05
  | .outOfLimits => 0x06
  | .locked => 0x07
  | .noLimits => 0x08
  | .noProfile => 0x09
  | .sequence => 0x0A
  | .faulted => 0x0B
  | .conflict => 0x0C
  | .noProposal => 0x0D
  | .aborted => 0x0E
  | .notDetached => 0x0F
  | .busy => 0x10

/-- Source state codes (section 11.3). -/
def SourceState.code : SourceState → Byte
  | .unarmed => 0
  | .clean => 1
  | .watch => 2
  | .guarded => 3
  | .detached => 4

/-- Mode codes; 0 while no profile is active (section 11.3). -/
def modeCode : Option Pacing → Byte
  | none => 0
  | some .adaptive => 1
  | some .fixed => 2

/-- Timing state codes (section 11.3). -/
def Timing.code : Timing → Byte
  | .idle => 0
  | .scan => 1
  | .blankMin => 2
  | .blankOpen => 3
  | .blank => 4

/-- Lock state codes (section 11.3). -/
def Lock.code : Lock → Byte
  | .freeRun => 0
  | .acquire => 1
  | .track => 2

/-- Refresh kind codes; 0 before the first refresh (section 11.3). -/
def kindCode : Option RefreshKind → Byte
  | none => 0
  | some .new => 1
  | some .repeated => 2
  | some .blank => 3

/-- Fill state codes (section 11.3). -/
def FillState.code : FillState → Byte
  | .empty => 0
  | .filling => 1
  | .complete => 2
  | .aborted => 3

/-- Fate codes (section 11.3). -/
def Fate.code : Fate → Byte
  | .pending => 0
  | .shown => 1
  | .partShown => 2
  | .replaced => 3
  | .errorDropped => 4
  | .foreign => 5
  | .flushed => 6

/-- Proposal state codes (section 11.3). -/
def ProposalState.code : ProposalState → Byte
  | .none => 0
  | .held => 1
  | .confirmed => 2

/-- Pacing codes of the profile record (section 11.2.1). -/
def Pacing.code : Pacing → Byte
  | .adaptive => 0
  | .fixed => 1

/-- Tear codes of the profile record (section 11.2.1). -/
def Tear.code : Tear → Byte
  | .sync => 0
  | .splice => 1

/-- Output depth of the profile record: 8 or 10 (section 11.2.1). -/
def Depth.code : Depth → Byte
  | .d8 => 8
  | .d10 => 10

/-- The bytes of a reply: type 0x80, tag, payload length, status, field number, body (R174). -/
def Reply.bytes (r : Reply) : List Byte :=
  [0x80, r.tag] ++ leBytes 2 (2 + r.body.length) ++ [r.status.code, BitVec.ofNat 8 r.field] ++ r.body

/-- The kind of a notice, by kind number less one (R169). -/
def Notice.kind : Notice → Fin 5
  | .sourceState _ _ => 0
  | .lockState _ => 1
  | .foreignFrame _ _ => 2
  | .outputBlank _ _ => 3
  | .packetChanged _ => 4

/-- The content bytes of a notice (section 11.4). Bits 4 to 7 of the changed set, which no row assigns, are sent as 0
(DESIGN CHOICE, unsafe: Log 40). -/
def Notice.bytes : Notice → List Byte
  | .sourceState st score => [st.code, BitVec.ofNat 8 score]
  | .lockState l => [l.code]
  | .foreignFrame px lines => leBytes 2 px ++ leBytes 2 lines
  | .outputBlank d t => leBytes 5 d.toNat ++ leBytes 5 t.toNat
  | .packetChanged set =>
    [flagByte set[0] ||| (flagByte set[1] <<< 1) ||| (flagByte set[2] <<< 2) ||| (flagByte set[3] <<< 3)]

/-- The bytes of a notice: type 0x81 to 0x85, tag 0, payload length, content, occurrence count (R174). -/
def NoticeMsg.bytes (m : NoticeMsg) : List Byte :=
  [BitVec.ofNat 8 (0x81 + m.content.kind.val), 0] ++ leBytes 2 (m.content.bytes.length + 1)
    ++ m.content.bytes ++ [BitVec.ofNat 8 m.count]

/-- The request types of section 11.2, and whether a payload has the length its type requires; none for an unknown
type (R166). -/
def lengthFits (type : Nat) (payload : List Byte) : Option Bool :=
  let n := payload.length
  match type with
  | 0x01 | 0x02 | 0x12 | 0x13 | 0x14 | 0x16 | 0x21 | 0x50 | 0x51 => some (n = 0)
  | 0x03 | 0x31 | 0x40 => some (n = 1)
  | 0x10 => some (n = 16)
  | 0x11 => some (n = 48)
  | 0x15 => some (n = 28)
  | 0x20 => some (4 ≤ n && n = 4 + 2 * fieldAt payload 2 2)
  | 0x22 => some (n = 5)
  | 0x30 => some (n = 6)
  | _ => none

/-- What refuses a request before it reaches its block, if anything does (R166, steps 1 to 3). -/
def Request.refusal (r : Request) : Option Status :=
  match r.entry with
  | .malformed => some .malformed
  | .tooLong => some .tooLong
  | .none =>
    match lengthFits r.type.toNat r.payload with
    | none => some .unknown
    | some false => some .malformed
    | some true => none

/-- Whether a request reaches the block that owns its type (R166, step 4). -/
def Request.reaches (type : Nat) (r : Request) : Bool := r.type.toNat = type && r.refusal = none

/-- The profile record as its bytes carry it, before validation (section 11.2.1). -/
structure RawProfile where
  width : Nat
  height : Nat
  scanTime : Nat
  winMin : Nat
  winMax : Nat
  pacing : Nat
  fixedInterval : Nat
  lock : Nat
  lockGuard : Nat
  race : Nat
  raceMargin : Nat
  tear : Nat
  spliceLimit : Nat
  repeatPlan : Nat
  holdTimeout : Nat
  blankColour : Three Nat
  outDepth : Nat
  mask : Three Nat
  lut : Nat
  deriving DecidableEq, Repr

/-- Read the 48 bytes of a profile record (section 11.2.1). -/
def readProfile (bs : List Byte) : RawProfile where
  width := fieldAt bs 0 2
  height := fieldAt bs 2 2
  scanTime := fieldAt bs 4 4
  winMin := fieldAt bs 8 4
  winMax := fieldAt bs 12 4
  pacing := fieldAt bs 16 1
  fixedInterval := fieldAt bs 17 4
  lock := fieldAt bs 21 1
  lockGuard := fieldAt bs 22 4
  race := fieldAt bs 26 1
  raceMargin := fieldAt bs 27 1
  tear := fieldAt bs 28 1
  spliceLimit := fieldAt bs 29 2
  repeatPlan := fieldAt bs 31 1
  holdTimeout := fieldAt bs 32 2
  blankColour := fieldThree bs 34
  outDepth := fieldAt bs 40 1
  mask := fieldThree bs 41
  lut := fieldAt bs 47 1

/-- The record that an accepted raw profile stands for. -/
def RawProfile.toProfile (r : RawProfile) : Profile where
  width := r.width
  height := r.height
  scanTime := r.scanTime
  winMin := r.winMin
  winMax := r.winMax
  pacing := if r.pacing = 1 then .fixed else .adaptive
  fixedInterval := r.fixedInterval
  lock := r.lock = 1
  lockGuard := r.lockGuard
  race := r.race = 1
  raceMargin := r.raceMargin
  tear := if r.tear = 1 then .splice else .sync
  spliceLimit := r.spliceLimit
  repeatPlan := r.repeatPlan = 1
  holdTimeout := r.holdTimeout
  blankColour := toColour r.blankColour
  outDepth := if r.outDepth = 8 then .d8 else .d10
  mask := toMask r.mask
  lut := r.lut = 1

/-- The 48 bytes of a profile record (section 11.2.1). -/
def Profile.bytes (p : Profile) : List Byte :=
  leBytes 2 p.width ++ leBytes 2 p.height ++ leBytes 4 p.scanTime ++ leBytes 4 p.winMin ++ leBytes 4 p.winMax
    ++ [p.pacing.code] ++ leBytes 4 p.fixedInterval ++ [flagByte p.lock] ++ leBytes 4 p.lockGuard
    ++ [flagByte p.race] ++ leBytes 1 p.raceMargin ++ [p.tear.code] ++ leBytes 2 p.spliceLimit
    ++ [flagByte p.repeatPlan] ++ leBytes 2 p.holdTimeout ++ colourBytes p.blankColour ++ [p.outDepth.code]
    ++ maskBytes p.mask ++ [flagByte p.lut]

/-- A capture record as Read Capture returns it, 43 bytes; every byte after the present flag is 0 for an absent one
(section 11.2.3). -/
def captureBytes (entry : Nat) : Option Capture → List Byte
  | none => leBytes 1 entry ++ List.replicate 42 0
  | some c =>
    leBytes 1 entry ++ [1, flagByte c.changed, c.ptype, c.version] ++ leBytes 1 c.payload.length
      ++ leBytes 5 c.arrival.toNat ++ leBytes 4 c.frameCounter.toNat
      ++ c.payload ++ List.replicate (maxPacket - c.payload.length) 0

/-- The time of an optional timestamp, 0 when it is absent (R173). -/
def timeBytes (t : Option Time) : List Byte := leBytes 5 ((t.map BitVec.toNat).getD 0)

/-- Kind, time and entry strip of a first presentation (section 11.2.4). -/
def presentationBytes : Option Presentation → List Byte
  | none => [0] ++ leBytes 5 0 ++ leBytes 2 0
  | some (.refresh t) => [1] ++ leBytes 5 t.toNat ++ leBytes 2 0
  | some (.splice t j) => [2] ++ leBytes 5 t.toNat ++ leBytes 2 j

/-- A history record, 35 bytes (section 11.2.4). Bits 3 to 7 of its flag byte, which no row assigns, are sent as 0 (DESIGN
CHOICE, unsafe: Log 40). -/
def FrameRec.bytes (r : FrameRec) : List Byte :=
  leBytes 4 r.frameNo.toNat ++ leBytes 1 r.slot.val
    ++ [flagByte r.completion.isSome ||| (flagByte r.truncated <<< 1) ||| (flagByte r.latency.isSome <<< 2)]
    ++ leBytes 5 r.firstLine.toNat ++ timeBytes r.completion ++ leBytes 2 r.bad ++ leBytes 1 r.count
    ++ presentationBytes r.first ++ timeBytes r.latency ++ leBytes 2 r.substituted ++ [r.fate.code]

/-- A marker or list place in the snapshot: the slot number, 0xFF for none (section 11.5). -/
def slotByte : Option Slot → Byte
  | none => 0xFF
  | some k => BitVec.ofNat 8 k.val

/-- A slot in the snapshot, 7 bytes (section 11.5). -/
def SlotRec.bytes (r : SlotRec) : List Byte :=
  [r.fill.code] ++ leBytes 4 ((r.frameNo.map BitVec.toNat).getD 0) ++ leBytes 2 r.filled

/-- The status snapshot, 79 bytes (R172, section 11.5). Bits 2 to 7 of its flag byte, which no row assigns, are sent as 0
(DESIGN CHOICE, unsafe: Log 40). -/
def statusBody (s : State) : List Byte :=
  leBytes 5 s.now.toNat ++ leBytes 4 s.sp.frameCounter.toNat
    ++ [s.sp.state.code] ++ leBytes 1 s.sp.score ++ leBytes 1 s.sp.cleanRun
    ++ [modeCode s.otg.mode, s.otg.timing.code, s.otg.lock.code]
    ++ leBytes 5 s.otg.tLast.toNat
    ++ leBytes 1 s.otg.planCount ++ [kindCode s.ps.lastKind]
    ++ leBytes 2 (s.pu.q.getD 0)
    ++ [flagByte s.pu.ti.isSome ||| (flagByte s.pu.fi.isSome <<< 1)]
    ++ leBytes 4 (s.pu.ti.getD 0) ++ leBytes 5 (s.pu.fi.getD 0)
    ++ leBytes 1 s.pu.k ++ leBytes 4 s.pu.tr
    ++ (s.slot 0).bytes ++ (s.slot 1).bytes ++ (s.slot 2).bytes ++ (s.slot 3).bytes
    ++ [slotByte s.pool.filling, slotByte s.pool.ready, slotByte s.pool.held, slotByte s.pool.onScreen]
    ++ leBytes 1 s.pool.cands.length ++ [slotByte s.pool.cands[0]?, slotByte s.pool.cands[1]?]
    ++ [flagByte s.cs.shadowPending]
    ++ [s.pc.propState.code, flagByte s.pc.faulted, flagByte s.pc.limits.isSome]
    ++ leBytes 1 s.ml.slots.length

end Sys2Proof.Machine
end

