-- ==== Sys2Proof/Machine/Flags.lean ====
section
/-! DEFINITION. The flags the part raises toward the host: notices and HOLD, the reply queue, deferred replies and the transmitter. -/

namespace Sys2Proof.Machine

/-- HOLD is asserted while both request slots are occupied (R165; Log 20). -/
def State.hold (s : State) : Bool := s.ml.slots.length = requestSlots

/-- The copy of a kind after one more raise: the raised content, the count stopping at 255 (R169). -/
def raisedCopy (n : Notice) : Option NoticeMsg → NoticeMsg
  | none => ⟨n, 1⟩
  | some c => ⟨n, min 255 (c.count + 1)⟩

/-- Raise a notice: nothing when its kind is disabled, otherwise its pending copy is updated (R169). -/
def raise (n : Notice) (s : State) : State :=
  if s.ml.enables[n.kind] then
    s.setMl { s.ml with notices := s.ml.notices.set n.kind.val (some (raisedCopy n s.ml.notices[n.kind])) n.kind.isLt }
  else s

/-- Whether the reply queue has a free entry (R166). -/
def State.entryFree (s : State) : Bool := s.ml.replies.length < queueSize

/-- A reply enters the reply queue as its newest (R166). -/
def pushReply (r : Reply) (s : State) : State := s.setMl { s.ml with replies := s.ml.replies ++ [r] }

/-- The deferred-reply record of an operation (R167). -/
def MessageLink.deferred (m : MessageLink) : DeferredKind → Deferred
  | .profileApply => m.defProfile
  | .lutCommit => m.defLut
  | .pipelineReset => m.defReset

/-- Write the deferred-reply record of an operation. -/
def MessageLink.setDeferred (m : MessageLink) (k : DeferredKind) (d : Deferred) : MessageLink :=
  match k with
  | .profileApply => { m with defProfile := d }
  | .lutCommit => { m with defLut := d }
  | .pipelineReset => { m with defReset := d }

/-- The tag of the LUT commit whose reply is pending: the colour stage's pending commit reply (R112; Log 19). -/
def State.pendingCommitReply (s : State) : Option Byte :=
  match s.ml.defLut with
  | .waiting tag => some tag
  | .empty | .completed _ _ => none

/-- The owning block defers the reply: the tag is kept and the record waits (R167). -/
def deferReply (k : DeferredKind) (tag : Byte) (s : State) : State :=
  s.setMl (s.ml.setDeferred k (.waiting tag))

/-- The operation completes: its waiting record becomes completed, the newest in the order of completion (R167). -/
def completeDeferred (k : DeferredKind) (st : Status) (s : State) : State :=
  match s.ml.deferred k with
  | .waiting tag =>
    s.setMl { s.ml.setDeferred k (.completed tag st) with doneOrder := s.ml.doneOrder ++ [k] }
  | .empty | .completed _ _ => s

/-- The completed reply that claims first, with its operation (R166). -/
def State.firstDone (s : State) : Option DeferredKind := s.ml.doneOrder.head?

/-- The first completed reply enters the queue if an entry is free, and its record becomes empty (R166, R167). -/
def claimDeferred (s : State) : State :=
  match s.ml.doneOrder with
  | [] => s
  | k :: rest =>
    if s.entryFree then
      match s.ml.deferred k with
      | .completed tag st =>
        pushReply ⟨tag, st, 0, []⟩ (s.setMl { s.ml.setDeferred k .empty with doneOrder := rest })
      | .empty | .waiting _ => s.setMl { s.ml with doneOrder := rest }
    else s

/-- Every completed reply claims an entry in completion order; those that do not fit wait in their records (R167). -/
def drainDeferred (s : State) : State := claimDeferred (claimDeferred (claimDeferred s))

/-- The pending notice of an enabled kind with the lowest kind number, with its index (R168). -/
def MessageLink.firstNotice (m : MessageLink) : Option (Fin 5 × NoticeMsg) :=
  (List.finRange 5).findSome? fun i =>
    if m.enables[i] then (m.notices[i]).map fun c => (i, c) else none

/-- An idle transmitter chooses its next message: the oldest reply, else the pending notice of the lowest kind, whose
content and count are frozen and which is then no longer pending (R168, R169). -/
def chooseMessage (s : State) : State :=
  match s.ml.tx with
  | .idle =>
    match s.ml.replies with
    | _ :: _ => s.setMl { s.ml with tx := .reply s.now }
    | [] =>
      match s.ml.firstNotice with
      | some (i, c) =>
        s.setMl { s.ml with tx := .notice c s.now, notices := s.ml.notices.set i.val none i.isLt }
      | none => s
  | .reply _ | .notice _ _ => s

/-- The end of an event that may have completed deferred replies, queued a reply or raised notices: completed replies
claim entries, then an idle transmitter chooses (R167, R168; Log 13, Log 14). -/
def settle (s : State) : State := chooseMessage (drainDeferred s)

/-- The moment at which the transmission under way has sent its last byte, 400 ticks a byte (section 1.9, R168;
Log 27). -/
def State.txEnd (s : State) : Option Time :=
  match s.ml.tx with
  | .idle => none
  | .reply since => s.ml.replies.head?.map fun r => plusTicks since (byteTicks * r.bytes.length)
  | .notice m since => some (plusTicks since (byteTicks * m.bytes.length))

/-- No completed deferred reply waits for an entry and no overrun reply does (R166). -/
def State.noClaimant (s : State) : Bool := s.ml.doneOrder = [] && s.ml.overrun = none

/-- The request the arbiter grants execution: the oldest, when an entry is free and no other claimant waits (R166). -/
def State.granted (s : State) : Option Request :=
  if s.entryFree && s.noClaimant then s.ml.slots.head? else none

/-- At its execution a request leaves its slot (R166). -/
def takeRequest (s : State) : State := s.setMl { s.ml with slots := s.ml.slots.drop 1 }

/-- A message handed over enters a free request slot, or overruns into the marker (R165). -/
def handOver (r : Request) (s : State) : State :=
  if s.ml.slots.length < requestSlots then s.setMl { s.ml with slots := s.ml.slots ++ [r] }
  else s.setMl { s.ml with overrun := some r.tag }

/-- Answer a request at its execution (R166, R174). -/
def answer (r : Request) (st : Status) (s : State) : State := pushReply ⟨r.tag, st, 0, []⟩ s

/-- Answer OK with a body (R174). -/
def answerWith (r : Request) (body : List Byte) (s : State) : State := pushReply ⟨r.tag, .ok, 0, body⟩ s

/-- Refuse a request with the number of the failing field (R174). -/
def answerField (r : Request) (st : Status) (field : Nat) (s : State) : State := pushReply ⟨r.tag, st, field, []⟩ s

end Sys2Proof.Machine
end

