-- ==== Sys2Proof/Machine/Colour.lean ====
section
/-! DEFINITION. The colour stage: the pixel path, the scan settings and the bank exchange (chapter 6). -/

namespace Sys2Proof.Machine

/-- Entry `i` of one channel of a bank: `comp` picks the channel (R114). -/
def bankEntry (bank : List Colour) (comp : Colour → BitVec 12) (i : Nat) : Nat :=
  (comp (bank.getD i ⟨0, 0, 0⟩)).toNat

/-- A component through the table: linear interpolation between two neighbouring entries (R114). -/
def lutMap (bank : List Colour) (comp : Colour → BitVec 12) (v : Nat) : Nat :=
  let i := v / 4
  let f := v % 4
  (bankEntry bank comp i * (4 - f) + bankEntry bank comp (i + 1) * f + 2) / 4

/-- A component's 12-bit value, with the LUT flag on or off (R114, R115). -/
def out12 (lut : Bool) (bank : List Colour) (comp : Colour → BitVec 12) (v : Nat) : Nat :=
  if lut then lutMap bank comp v else 4 * v

/-- Reduction to the output depth, rounded and clamped (R116). -/
def reduceDepth : Depth → Nat → Nat
  | .d10, x => min 1023 ((x + 2) / 4)
  | .d8, x => min 255 ((x + 8) / 16)

/-- The component mask: its ten bits at depth 10, its low eight at depth 8 (R117). -/
def maskComponent : Depth → BitVec 10 → Nat → BitVec 10
  | .d10, m, x => BitVec.ofNat 10 x &&& m
  | .d8, m, x => BitVec.ofNat 10 x &&& (m &&& 255)

/-- Depth reduction and mask of one channel (R116, R117). -/
def finishComponent (d : Depth) (m : BitVec 10) (x : Nat) : BitVec 10 := maskComponent d m (reduceDepth d x)

/-- A stored pixel as it leaves at the panel port (R114 to R117). -/
def colourPixel (set : ScanSettings) (bank : List Colour) (p : Pixel) : OutPixel where
  c0 := finishComponent set.depth set.mask.c0 (out12 set.lut bank Three.c0 p.c0.toNat)
  c1 := finishComponent set.depth set.mask.c1 (out12 set.lut bank Three.c1 p.c1.toNat)
  c2 := finishComponent set.depth set.mask.c2 (out12 set.lut bank Three.c2 p.c2.toNat)

/-- A pixel of the blank colour: no table, whatever the LUT flag (R118). -/
def blankPixel (set : ScanSettings) : OutPixel where
  c0 := finishComponent set.depth set.mask.c0 set.blank.c0.toNat
  c1 := finishComponent set.depth set.mask.c1 set.blank.c1.toNat
  c2 := finishComponent set.depth set.mask.c2 set.blank.c2.toNat

/-- The colour settings of a profile (R113). -/
def Profile.settings (p : Profile) : ScanSettings where
  lut := p.lut
  depth := p.outDepth
  mask := p.mask
  blank := p.blankColour

/-- At strip read 0 the stage copies the profile's colour settings (R113). -/
def copySettings (s : State) : State := s.setCs { s.cs with scan := some s.prof.settings }

/-- The settings in force for the scan; every strip read of a run finds the copy of strip read 0 (R113;
Log 31). -/
def State.settings (s : State) : ScanSettings := s.cs.scan.getD s.prof.settings

/-- The exchange of roles between the two banks (R123). -/
def ColourStage.exchanged (c : ColourStage) : ColourStage :=
  { c with active := c.shadow, shadow := c.active, shadowPending := false }

/-- A refresh start with a commit pending exchanges the banks and completes the commit's reply (R123). -/
def bankExchange (s : State) : State :=
  if s.cs.shadowPending then completeDeferred .lutCommit .ok (s.setCs s.cs.exchanged) else s

/-- Acceptance of a Pipeline Reset cancels a pending commit (R125). -/
def cancelCommit (s : State) : State :=
  if s.cs.shadowPending then
    completeDeferred .lutCommit .aborted (s.setCs { s.cs with shadowPending := false })
  else s

/-- The eight lines of a strip at the panel port, from the store or in the blank colour (R100, R114, R118). -/
def stripLines (s : State) (k : Nat) : StripSource → List (List OutPixel)
  | .onScreen a | .heldSlot a =>
    (Store.strip s.pool.store a k s.prof.width).map fun l => l.map (colourPixel s.settings s.cs.active)
  | .blank => List.replicate 8 (List.replicate s.prof.width (blankPixel s.settings))

/-- A strip leaves at the panel port with its strobe (R71). -/
def sendStrip (k : Nat) (src : StripSource) (s : State) : State :=
  s.setPanel { s.panel with
    strip := some ⟨k, s.now, src, s.settings.depth, stripLines s k src⟩ }

end Sys2Proof.Machine
end

