-- ==== Sys2Proof/Machine/History.lean ====
section
/-! DEFINITION. The history ring's records and the reports that change them (chapter 9). -/

namespace Sys2Proof.Machine

/-- Apply a change to the record of a frame, if the ring holds one; otherwise the report is discarded (R155). -/
def onRecord (n : FrameNo) (f : FrameRec → FrameRec) (s : State) : State :=
  s.setHr (s.hr.map fun r => if r.frameNo = n then f r else r)

/-- A fate report: written while the fate is PENDING, and final from then on (R158). -/
def FrameRec.withFate (fate : Fate) (r : FrameRec) : FrameRec :=
  if r.fate = .pending then { r with fate := fate } else r

/-- Report a fate (R158). -/
def reportFate (n : FrameNo) (fate : Fate) (s : State) : State := onRecord n (FrameRec.withFate fate) s

/-- The completion report (R155). -/
def reportCompletion (n : FrameNo) (t : Time) (s : State) : State :=
  onRecord n (fun r => { r with completion := some t }) s

/-- The close report: bad strips and truncated flag (R155). -/
def reportClose (n : FrameNo) (bad : Nat) (truncated : Bool) (s : State) : State :=
  onRecord n (fun r => { r with bad := bad, truncated := truncated }) s

/-- A presentation at a refresh start: the count, the first presentation, and the latency at the first presentation
from strip 0 (R97, R156). -/
def FrameRec.presentedAt (t : Time) (first fromTop : Bool) (r : FrameRec) : FrameRec :=
  { r with
    count := min 255 (r.count + 1)
    first := if first then some (.refresh t) else r.first
    latency := if fromTop then some (t - r.firstLine) else r.latency }

/-- A presentation by a splice at entry strip `j`; no latency is recorded (R106, R156). -/
def FrameRec.splicedAt (t : Time) (j : Nat) (first : Bool) (r : FrameRec) : FrameRec :=
  { r with
    count := min 255 (r.count + 1)
    first := if first then some (.splice t j) else r.first }

/-- A substituted strip, saturating at 65,535 (R157). -/
def FrameRec.substitutedOne (r : FrameRec) : FrameRec :=
  { r with substituted := min 65535 (r.substituted + 1) }

/-- The record of a newly taken frame (R154). -/
def FrameRec.taken (n : FrameNo) (k : Slot) (t : Time) : FrameRec where
  frameNo := n
  slot := k
  firstLine := t
  completion := none
  bad := 0
  truncated := false
  count := 0
  first := none
  latency := none
  substituted := 0
  fate := .pending

/-- A new record joins as the newest; a full ring loses its oldest record first (R153). -/
def ringJoin (ring : List FrameRec) (r : FrameRec) : List FrameRec :=
  (if ring.length < ringSize then ring else ring.drop 1) ++ [r]

/-- The ring creates the record of a taken frame (R154). -/
def createRecord (n : FrameNo) (k : Slot) (t : Time) (s : State) : State :=
  s.setHr (ringJoin s.hr (FrameRec.taken n k t))

end Sys2Proof.Machine
end

