-- ==== Sys2Proof/Machine/Pool.lean ====
section
/-! DEFINITION. The slot pool: freeing, taking, completing and aborting frames, eligibility, and the role changes the scheduler asks for (chapter 1). -/

namespace Sys2Proof.Machine

/-- A marker after a slot is freed: cleared if it designated the slot (R5). -/
def clearMarker (k : Slot) (m : Option Slot) : Option Slot := if m = some k then none else m

/-- Steps 1 to 3 of R5: off the list, every marker cleared, every field at its free value. -/
def SlotPool.release (k : Slot) (p : SlotPool) : SlotPool :=
  { p.setSlot k SlotRec.free with
    cands := p.cands.filter (· ≠ k)
    filling := clearMarker k p.filling
    ready := clearMarker k p.ready
    held := clearMarker k p.held
    onScreen := clearMarker k p.onScreen }

/-- Report a fate against the frame in a slot, if it holds one. -/
def reportSlotFate (r : SlotRec) (fate : Fate) (s : State) : State :=
  match r.frameNo with
  | some n => reportFate n fate s
  | none => s

/-- Freeing a slot with a fate (R5). -/
def freeSlot (k : Slot) (fate : Fate) (s : State) : State :=
  reportSlotFate (s.slot k) fate (s.setPool (s.pool.release k))

/-- Freeing several slots with one fate, in order. -/
def freeSlots (ks : List Slot) (fate : Fate) (s : State) : State := ks.foldl (fun s k => freeSlot k fate s) s

/-- The fate of a slot freed out of ABORTED (R5). -/
def SlotRec.abortedFate (r : SlotRec) : Fate :=
  if r.shownTop then .shown else if r.presented then .partShown else .errorDropped

/-- A slot that no marker designates is free (R4). -/
def SlotPool.isFree (p : SlotPool) (k : Slot) : Bool :=
  p.filling ≠ some k && p.ready ≠ some k && p.held ≠ some k && p.onScreen ≠ some k

/-- The lowest-numbered free slot (R6). -/
def SlotPool.lowestFree (p : SlotPool) : Option Slot := (List.finRange 4).find? p.isFree

/-- The filling frame ends as truncated (R6, steps 1 to 3) or is aborted without truncation (R10): ABORTED, freed at
once unless it is on screen. -/
def abortFilling (truncated : Bool) (s : State) : State :=
  match s.pool.filling with
  | none => s
  | some k =>
    let r := { s.slot k with fill := .aborted, truncated := truncated }
    let s := s.setPool { s.pool.setSlot k r with filling := none }
    if s.pool.onScreen = some k then s else freeSlot k r.abortedFate s

/-- Taking a slot for a new frame (R6, steps 4 and 5). -/
def takeSlot (k : Slot) (n : FrameNo) (t : Time) (s : State) : State :=
  let r := { SlotRec.free with fill := .filling, frameNo := some n, firstLine := some t }
  s.setPool { s.pool.setSlot k r with filling := some k, cands := s.pool.cands ++ [k] }

/-- The bad strips of the filling frame, for its close report (R1). -/
def State.fillingBad (s : State) : Nat :=
  match s.pool.filling with
  | none => 0
  | some k => (s.slot k).bad

/-- Test (b) of R12 on the strips filled so far. -/
def State.raceReady (s : State) (filled : Nat) : Bool :=
  s.prof.race && s.sp.state.healthy &&
    match s.pool.q with
    | some q => q ≤ filled
    | none => false

/-- The eligibility test of R12. -/
def State.isEligible (s : State) (r : SlotRec) : Bool :=
  match r.fill with
  | .complete => true
  | .filling => s.raceReady r.filled
  | .empty | .aborted => false

/-- Whether judging a slot by R13 sets its mark: a candidate, its mark clear, the test of R12 holding. -/
def State.judges (s : State) (k : Slot) : Bool :=
  s.pool.cands.contains k && !(s.slot k).eligible && s.isEligible (s.slot k)

/-- Set a slot's eligible mark (R12). -/
def markEligible (k : Slot) (s : State) : State := s.setSlot k { s.slot k with eligible := true }

/-- A strip-filled event raises the filling slot's counts (R7). -/
def countStrip (bad : Bool) (s : State) : State :=
  match s.pool.filling with
  | none => s
  | some k =>
    let r := s.slot k
    s.setSlot k { r with filled := r.filled + 1, bad := if bad then r.bad + 1 else r.bad }

/-- The completing frame takes the ready role when it is not on screen; an older ready frame is freed REPLACED (R8). -/
def becomeReady (k : Slot) (s : State) : State :=
  let s := match s.pool.ready with
    | some r => freeSlot r .replaced s
    | none => s
  s.setPool { s.pool with ready := some k }

/-- Choosing a candidate at a refresh start (R15). -/
def chooseSlot (k : Slot) (s : State) : State :=
  let s := freeSlots (s.pool.cands.takeWhile (· ≠ k)) .replaced s
  let r := { s.slot k with presented := true, shownTop := true }
  s.setPool { s.pool.setSlot k r with
    cands := s.pool.cands.filter (· ≠ k)
    ready := clearMarker k s.pool.ready
    onScreen := some k }

/-- Repeating the held frame at a refresh start (R16). -/
def repeatHeld (k : Slot) (s : State) : State :=
  let r := { s.slot k with presented := true, shownTop := true }
  s.setPool { s.pool.setSlot k r with onScreen := some k }

/-- Making a COMPLETE slot held (R18). -/
def makeHeld (k : Slot) (s : State) : State :=
  let prev := s.pool.held
  let s := s.setPool { s.pool with held := some k }
  let s := match prev with
    | some j => if j = k then s else freeSlot j .shown s
    | none => s
  reportSlotFate (s.slot k) .shown s

/-- The on-screen slot at a scan end (R17). -/
def scanEndPool (s : State) : State :=
  match s.pool.onScreen with
  | none => s
  | some k =>
    let s := s.setPool { s.pool with onScreen := none }
    match (s.slot k).fill with
    | .complete => makeHeld k s
    | .filling => s.setPool { s.pool with cands := s.pool.cands ++ [k] }
    | .aborted => freeSlot k (s.slot k).abortedFate s
    | .empty => s

/-- The frame that leaves the screen at a splice (R19, step 1). -/
def leaveScreen (s : State) : State :=
  match s.pool.onScreen with
  | none => s
  | some a =>
    match (s.slot a).fill with
    | .complete => if s.pool.held = some a then s else makeHeld a s
    | .aborted => freeSlot a (s.slot a).abortedFate s
    | .empty | .filling => s

/-- The handover of a splice to candidate `n` (R19). -/
def spliceSlot (n : Slot) (s : State) : State :=
  let s := leaveScreen s
  let s := freeSlots (s.pool.cands.takeWhile (· ≠ n)) .replaced s
  let r := { s.slot n with presented := true }
  s.setPool { s.pool.setSlot n r with
    cands := s.pool.cands.filter (· ≠ n)
    ready := clearMarker n s.pool.ready
    onScreen := some n }

/-- The flush of a geometry change: every slot freed with fate FLUSHED, the copy of Q unknown (R21). -/
def flushPool (s : State) : State :=
  let s := freeSlots (List.finRange 4) .flushed s
  s.setPool { s.pool with q := none }

/-- The slot pool's share of a pipeline reset: every slot freed with no fate reported, Q unknown (R22). -/
def resetPool (s : State) : State := s.setPool (SlotPool.powerOn s.pool.store)

end Sys2Proof.Machine
end

