-- ==== Sys2Proof/Machine/Pacing.lean ====
section
/-! DEFINITION. The pacing unit's arithmetic, the lock, and the reports between the pacing unit, the slot pool and the output timing generator (chapter 3, sections 4.3 and 4.5). -/

namespace Sys2Proof.Machine

/-- A window of at most four samples after a new one arrives (R52, R54). -/
def windowAdd (w : List Nat) (x : Nat) : List Nat := (if w.length < 4 then w else w.drop 1) ++ [x]

/-- Ti: the average of four interval samples, undefined with fewer (R53). -/
def averageInterval (w : List Nat) : Option Nat := if w.length = 4 then some (w.sum / 4) else none

/-- Fi: the average of the fill samples held, undefined with none (R54). -/
def averageFill (w : List Nat) : Option Nat := if w = [] then none else some (w.sum / w.length)

/-- The race threshold of R55 for a profile and an average fill time. -/
def raceThreshold (p : Profile) (fi : Nat) : Nat :=
  let nq : Int := (p.strips : Int) * fi - ((p.strips : Int) - 1) * p.scanTime
  let base : Nat := if nq ≤ 0 then 1 else max 1 ((nq.toNat + fi - 1) / fi)
  min p.strips (base + p.raceMargin)

/-- Q by R55: unknown while Fi is undefined and while no profile is active. -/
def computeQ (p : Option Profile) (fi : Option Nat) : Option Nat :=
  match p, fi with
  | some p, some fi => some (raceThreshold p fi)
  | _, _ => none

/-- The smallest integer k of at least 2 with floor(Ti / k) ≤ Tmax (R58): floor(Ti / k) ≤ Tmax exactly when
Ti / (Tmax + 1) < k. -/
def planFactor (ti tmax : Nat) : Nat := max 2 (ti / (tmax + 1) + 1)

/-- The repeat plan of R58: whether it is active, k, and Tr. -/
def planOf (p : Option Profile) (ti : Option Nat) : Bool × Nat × Nat :=
  match p, ti with
  | some p, some ti =>
    if p.pacing = .adaptive ∧ p.repeatPlan ∧ p.winMax < ti then
      (true, planFactor ti p.winMax, ti / planFactor ti p.winMax)
    else (false, 0, 0)
  | _, _ => (false, 0, 0)

/-- The admission test of R65. -/
def admissionHolds (p : Option Profile) (ti : Option Nat) : Bool :=
  match p, ti with
  | some p, some ti =>
    p.pacing = .fixed && p.lock && ((ti : Int) - p.fixedInterval).natAbs ≤ p.fixedInterval / 256
  | _, _ => false

/-- The lock state changes: the counts go to 0, the next fixed interval returns to Tf on a change to FREE_RUN under
FIXED pacing, and a LOCK_STATE notice is raised; no effect when the state is the same (R63, R64, R84). -/
def setLock (l : Lock) (s : State) : State :=
  if s.otg.lock = l then s
  else
    let next := if l = .freeRun ∧ s.prof.pacing = .fixed then s.prof.fixedInterval else s.pu.nextFixed
    raise (.lockState l)
      ((s.setOtg { s.otg with lock := l }).setPu { s.pu with good := 0, bad := 0, nextFixed := next })

/-- The lock drops to FREE_RUN (R83). -/
def dropLock (s : State) : State := setLock .freeRun s

/-- The backstop load of the repeat timer: t_last + Tmax - now, modulo 2^40 (R75, R77). -/
def loadBackstop (s : State) : State :=
  s.setOtg { s.otg with
    planCount := 0
    repeatTimer := .running (plusTicks s.now (elapsed (plusTicks s.otg.tLast s.prof.winMax) s.now)) }

/-- The generator takes new plan values during a run of planned repeats (R77). -/
def takePlan (s : State) : State :=
  if s.pu.planActive then s.setOtg { s.otg with planCount := min s.otg.planCount (s.pu.k - 1) }
  else if 0 < s.otg.planCount then loadBackstop s
  else s

/-- The unit sets the repeat plan afresh (R58). -/
def setPlan (s : State) : State :=
  let plan := planOf s.pc.active s.pu.ti
  s.setPu { s.pu with planActive := plan.1, k := plan.2.1, tr := plan.2.2 }

/-- The unit evaluates the admission test (R65). -/
def setAdmission (s : State) : State := s.setPu { s.pu with admitted := admissionHolds s.pc.active s.pu.ti }

/-- The generator takes the admission report, and the report on Ti: a failed test or an undefined Ti drops the lock
(R53, R65, R83). -/
def takeAdmission (s : State) : State := if s.pu.admitted && s.pu.ti.isSome then s else dropLock s

/-- After a change of the interval window: Ti, then the plan, the admission test and the reports (R53). -/
def intervalsChanged (w : List Nat) (s : State) : State :=
  let s := s.setPu { s.pu with intervals := w, ti := averageInterval w }
  takeAdmission (setAdmission (takePlan (setPlan s)))

/-- An interval sample is entered (R52). -/
def addInterval (x : Nat) (s : State) : State :=
  intervalsChanged (windowAdd s.pu.intervals x) (s.setPu { s.pu with sampledNow := true })

/-- The interval window is emptied (R52). -/
def clearIntervals (s : State) : State := intervalsChanged [] s

/-- A window after an emptying request of an application or a reset point. A sample that the source port handed over at this
same moment stays when the unit takes it after the request (R52, R54; Log 37). -/
def emptied (sampleLast enteredNow : Bool) (w : List Nat) : List Nat :=
  if enteredNow && sampleLast then w.getLast?.toList else []

/-- The windows that an application or a reset point empties, the order against a sample of this moment being free
(R52, R54; Log 37). -/
def emptyWindows (intervals fills : Bool) (s : State) : State :=
  (s.setPu { s.pu with
    intervals :=
      if intervals then emptied (Config.sampleLast s.choices) s.pu.sampledNow s.pu.intervals else s.pu.intervals
    fills :=
      if fills then emptied (Config.sampleLast (s.choices + 1)) s.pu.filledNow s.pu.fills else s.pu.fills }).setChoices (s.choices + 2)

/-- The lower bound of the next fixed interval (R63). -/
def fixedLower (p : Profile) : Nat := max p.winMin (p.fixedInterval - p.fixedInterval / 64)

/-- The upper bound of the next fixed interval (R63). -/
def fixedUpper (p : Profile) : Nat := min p.winMax (p.fixedInterval + p.fixedInterval / 64)

/-- clamp(x) to [lower, upper] (section 1.6, R63). -/
def clampFixed (p : Profile) (x : Int) : Nat := (max (fixedLower p : Int) (min (fixedUpper p : Int) x)).toNat

/-- The phase error: the phase against the target Tf - G, folded by Tf (R61). -/
def phaseError (p : Profile) (phase : Nat) : Int :=
  let d : Int := (phase : Int) - ((p.fixedInterval : Int) - p.lockGuard)
  if d > (p.fixedInterval / 2 : Nat) then d - p.fixedInterval
  else if d ≤ -((p.fixedInterval / 2 : Nat) : Int) then d + p.fixedInterval
  else d

/-- Cmax of R62 by lock state. -/
def maxCorrection (p : Profile) : Lock → Nat
  | .acquire => p.fixedInterval / 128
  | .track => p.fixedInterval / 2048
  | .freeRun => 0

/-- The correction of R62: floor((d + 4) / 8), clamped to [-Cmax, Cmax]. -/
def correction (p : Profile) (l : Lock) (d : Int) : Int :=
  let cmax : Int := maxCorrection p l
  max (-cmax) (min cmax ((d + 4) / 8))

/-- A good measurement (R64). -/
def goodError (p : Profile) (d : Int) : Bool := d.natAbs ≤ p.fixedInterval / 512

/-- A bad measurement (R64). -/
def badError (p : Profile) (d : Int) : Bool := p.fixedInterval / 128 < d.natAbs

/-- The count a measurement leaves in the lock state's own counter (R64). -/
def countMeasurement (p : Profile) (d : Int) (l : Lock) (u : PacingUnit) : PacingUnit :=
  match l with
  | .acquire => { u with good := if goodError p d then u.good + 1 else 0 }
  | .track => { u with bad := if badError p d then u.bad + 1 else 0 }
  | .freeRun => u

/-- The generator takes a measurement report (R82). -/
def takeReport (s : State) : State :=
  match s.otg.lock with
  | .acquire => if s.pu.good = 8 then setLock .track s else s
  | .track => if s.pu.bad = 3 then setLock .acquire s else s
  | .freeRun => s

/-- The next fixed interval at a measurement or refresh start, from Ti and a correction (R63). Ti is defined whenever
the lock is out of FREE_RUN (R83); were it not, the value would stay (Log 32). -/
def fixedFrom (p : Profile) (u : PacingUnit) (c : Int) : Nat :=
  match u.ti with
  | some ti => clampFixed p ((ti : Int) + c)
  | none => u.nextFixed

/-- Whether an eligibility event takes a phase measurement (R60). -/
def State.measures (s : State) : Bool :=
  s.prof.pacing = .fixed && s.prof.lock && s.otg.lock ≠ .freeRun && s.pu.armed

/-- The pacing unit takes an eligibility event: the first after arming is the phase measurement, against the refresh start
that armed it (R60 to R64). -/
def measureFrom (armedAt : Time) (s : State) : State :=
  if s.measures then
    let d := phaseError s.prof (elapsed s.now armedAt)
    let u := { s.pu with
      armed := false
      nextFixed := fixedFrom s.prof s.pu (correction s.prof s.otg.lock d) }
    takeReport (s.setPu (countMeasurement s.prof d s.otg.lock u))
  else s

/-- An eligibility event at the pacing unit, the last refresh start having armed the measurement (R60, R61). -/
def phaseMeasure (s : State) : State := measureFrom s.otg.tLast s

/-- A refresh start arms the measurement and sets the provisional next fixed interval, FIXED with lock on (R60, R63). -/
def armMeasurement (s : State) : State :=
  if s.prof.pacing = .fixed && s.prof.lock then
    s.setPu { s.pu with
      armed := true
      nextFixed := if s.otg.lock = .freeRun then s.pu.nextFixed else fixedFrom s.prof s.pu 0 }
  else s

/-- Judging the candidates against a publication, each event handed to its takers (R13, R14). -/
def judgeAll (event : State → State) (s : State) : State :=
  s.pool.cands.foldl (fun s k => if s.judges k then event (markEligible k s) else s) s

/-- The unit publishes Q to the slot pool and the scheduler (R57, R91). -/
def publishQ (event : State → State) (s : State) : State :=
  judgeAll event
    (((s.setPu { s.pu with lastQ := s.pu.q }).setPool { s.pool with q := s.pu.q }).setPs { s.ps with q := s.pu.q })

/-- Q is computed again, and published if it differs from the last published value (R56, R57). -/
def recomputeQ (event : State → State) (s : State) : State :=
  let s := s.setPu { s.pu with q := computeQ s.pc.active s.pu.fi }
  if s.pu.q = s.pu.lastQ then s else publishQ event s

/-- After a change of the fill window: Fi, then Q (R54, R56). -/
def fillsChanged (event : State → State) (w : List Nat) (s : State) : State :=
  recomputeQ event (s.setPu { s.pu with fills := w, fi := averageFill w })

/-- The pacing unit's share of a pipeline reset (R67): the windows emptied, and otherwise the values of the last column of
R51. The failed admission is reported when the generator drops the lock in its own share (R88). -/
def resetPacing (s : State) : State :=
  let e := emptyWindows true true s
  e.setPu { PacingUnit.powerOn with
    intervals := e.pu.intervals
    fills := e.pu.fills
    ti := averageInterval e.pu.intervals
    fi := averageFill e.pu.fills
    nextFixed := if s.prof.pacing = .fixed then s.prof.fixedInterval else 0
    sampledNow := s.pu.sampledNow
    filledNow := s.pu.filledNow }

end Sys2Proof.Machine
end

