-- ==== Sys2Proof/Machine/Refresh.lean ====
section
/-! DEFINITION. Refresh starts, splices and strip sources: what the presentation scheduler and the output timing generator do together (sections 4.2 to 4.4, chapter 5). -/

namespace Sys2Proof.Machine

/-- The detached hold has expired at this refresh start (R95). -/
def State.holdExpired (s : State) : Bool :=
  s.sp.state = .detached &&
    (s.ps.blankActive ||
      match s.ps.detachTime with
      | some t => decide (s.prof.holdTimeout * 100000 ≤ elapsed s.now t)
      | none => false)

/-- The newest candidate whose eligible mark is set (R93). -/
def State.newestEligible (s : State) : Option Slot :=
  (s.pool.cands.filter fun k => (s.slot k).eligible).getLast?

/-- Set the last refresh kind. -/
def setKind (k : RefreshKind) (s : State) : State := s.setPs { s.ps with lastKind := some k }

/-- The report of a presentation at a refresh start, by the slot's flags as they were when it was taken (R97). -/
def reportRefresh (r : SlotRec) (s : State) : State :=
  match r.frameNo with
  | some n => onRecord n (FrameRec.presentedAt s.now (!r.presented) (!r.shownTop)) s
  | none => s

/-- BLANK under the hold: the flag is set, and the first such refresh raises OUTPUT_BLANK (R96). -/
def blankUnderHold (s : State) : State :=
  let s' := setKind .blank (s.setPs { s.ps with blankActive := true })
  match s.ps.blankActive, s.ps.detachTime with
  | false, some t => raise (.outputBlank t s.now) s'
  | _, _ => s'

/-- The choice of the refresh kind, and the role change and report it asks for (R92 to R97). -/
def chooseRefresh (s : State) : State :=
  if s.holdExpired then blankUnderHold s
  else
    match s.newestEligible with
    | some k => reportRefresh (s.slot k) (setKind .new (chooseSlot k s))
    | none =>
      match s.pool.held with
      | some k => reportRefresh (s.slot k) (setKind .repeated (repeatHeld k s))
      | none => setKind .blank s

/-- The active profile with the pending tune set merged in; splice_limit is held to S - 1 (R141). -/
def Profile.merge (p : Profile) (t : TuneSet) : Profile :=
  { p with
    race := t.race.getD p.race
    raceMargin := t.raceMargin.getD p.raceMargin
    tear := t.tear.getD p.tear
    spliceLimit :=
      match t.spliceLimit with
      | some l => min l (p.strips - 1)
      | none => p.spliceLimit
    holdTimeout := t.holdTimeout.getD p.holdTimeout
    blankColour := t.blankColour.getD p.blankColour
    mask := t.mask.getD p.mask
    lut := t.lut.getD p.lut }

/-- The merge of the pending tune set, which empties it (R141, R142). -/
def mergeTune (s : State) : State :=
  s.setPc { s.pc with active := s.pc.active.map (·.merge s.pc.tune), tune := TuneSet.empty }

/-- Whether the merge changes race_margin (R141). -/
def State.mergeChangesMargin (s : State) : Bool := (s.prof.merge s.pc.tune).raceMargin ≠ s.prof.raceMargin

/-- The splice condition on a candidate before strip `j` (R104). -/
def State.spliceFits (s : State) (j : Nat) (k : Slot) : Bool :=
  let r := s.slot k
  r.eligible &&
    match r.fill with
    | .complete => true
    | .filling =>
      (match s.ps.q with
       | some q => decide (j + q ≤ r.filled)
       | none => false)
    | .empty | .aborted => false

/-- The newest candidate that satisfies the splice condition (R104). -/
def State.spliceCandidate (s : State) (j : Nat) : Option Slot :=
  (s.pool.cands.filter (s.spliceFits j)).getLast?

/-- Close the splice watch (R103). -/
def closeWatch (s : State) : State := s.setPs { s.ps with watchOpen := false }

/-- The splice before strip `j` to candidate `n`: the handover, the watch, the report (R106). -/
def makeSplice (j : Nat) (n : Slot) (s : State) : State :=
  let r := s.slot n
  let s := closeWatch (spliceSlot n s)
  match r.frameNo with
  | some f => onRecord f (FrameRec.splicedAt s.now j (!r.presented)) s
  | none => s

/-- A splice check with next strip `j` (R103 to R105). -/
def spliceCheck (j : Nat) (s : State) : State :=
  if s.ps.watchOpen && s.prof.tear = .splice then
    if s.prof.spliceLimit < j then closeWatch s
    else
      match s.spliceCandidate j with
      | some n => makeSplice j n s
      | none => s
  else s

/-- An eligibility event taken in SCAN by the scheduler: a splice check at the next strip (R105). -/
def checkInScan (s : State) : State := spliceCheck s.otg.nextStrip s

/-- An eligibility event taken in SCAN: the phase measurement, and the splice check (R60, R105). -/
def eligibleInScan (s : State) : State := checkInScan (phaseMeasure s)

/-- The publication of Q that follows a merge that changes Mg (R57, R141). An eligibility event of this publication reaches
the pacing unit with the refresh start itself (`takeStart`). -/
def publishMargin (changed : Bool) (s : State) : State := if changed then recomputeQ checkInScan s else s

/-- The tune merge, its publication and the choice at a refresh start; with tune fields pending their order is a free
choice (R57, R92, R98, R141; Log 10). -/
def mergeAndChoose (s : State) : State :=
  if s.pc.tune = TuneSet.empty then chooseRefresh s
  else
    let changed := s.mergeChangesMargin
    let s' := s.setChoices (s.choices + 2)
    match Config.refreshOrder s.choices with
    | .mergePublishChoose => chooseRefresh (publishMargin changed (mergeTune s'))
    | .mergeChoosePublish => publishMargin changed (chooseRefresh (mergeTune s'))
    | .chooseMergePublish => publishMargin changed (mergeTune (chooseRefresh s'))

/-- At a refresh start in FREE_RUN the lock moves to ACQUIRE when it may (R81). -/
def lockTest (s : State) : State :=
  if s.otg.lock = .freeRun ∧ s.prof.pacing = .fixed ∧ s.prof.lock ∧ s.pu.admitted ∧ s.sp.state.healthy then
    setLock .acquire s
  else s

/-- The plan count and the load of the repeat timer at a refresh start (R72). `planned` says that a planned repeat caused
it. -/
def repeatLoad (s : State) (planned : Bool) : Nat × Nat :=
  let c := s.otg.planCount - 1
  if s.ps.lastKind = some .new then
    if s.pu.planActive then (s.pu.k - 1, s.pu.tr) else (0, s.prof.winMax)
  else if planned then (c, if 0 < c then s.pu.tr else s.prof.winMax)
  else (0, s.prof.winMax)

/-- Load the repeat timer and set the plan count, ADAPTIVE only; the kept expiry is cleared (R72). -/
def loadRepeat (planned : Bool) (s : State) : State :=
  if s.otg.mode = some .adaptive then
    let l := repeatLoad s planned
    s.setOtg { s.otg with planCount := l.1, repeatTimer := s.timerAfter l.2, keptRepeat := false }
  else s

/-- Steps 1 and 2 of R70: t_last, the markers, SCAN, and the Tmin timer under ADAPTIVE; the refresh strobe. -/
def beginScan (s : State) : State :=
  let o := { s.otg with
    tLast := s.now
    minPassed := false
    nextStrip := 0
    timing := .scan
    tminTimer := if s.otg.mode = some .adaptive then s.timerAfter s.prof.winMin else s.otg.tminTimer }
  (s.setOtg o).setPanel { s.panel with refreshAt := some s.now }

/-- The fixed timer, at its expiry, loads the next fixed interval as it stands (R79). -/
def loadFixed (expired : Bool) (s : State) : State :=
  if expired then s.setOtg { s.otg with fixedTimer := s.timerAfter s.pu.nextFixed } else s

/-- The fixed timer's load, then step 5 of R70, then the pacing unit's share of the refresh start (R60, R63, R79, R81). -/
def lockAndArm (expired : Bool) (s : State) : State := armMeasurement (lockTest (loadFixed expired s))

/-- The pacing unit takes the refresh start, and an eligibility event of the same moment before or after it: taken first, the
event measures the interval that is ending and its result is what the fixed timer loads; taken after, it measures the new
interval (R60; Log 11). -/
def takeStart (expired event eventFirst : Bool) (armedAt : Time) (s : State) : State :=
  match event, eventFirst with
  | false, _ => lockAndArm expired s
  | true, true => lockAndArm expired (measureFrom armedAt s)
  | true, false => phaseMeasure (lockAndArm expired s)

/-- A slot of `t` has been marked eligible since `s` (R14). -/
def State.marksSince (s t : State) : Bool :=
  (List.finRange 4).any fun k => !(s.slot k).eligible && (t.slot k).eligible

/-- A refresh start (R70) in the order of its steps: the scan begins, the choice is made together with the merge, the repeat
timer is loaded, and the lock is tested, with the pacing unit's share; then the banks are exchanged. `expired` says that
the fixed timer's expiry is the cause. -/
def refreshBy (expired planned : Bool) (s : State) : State :=
  let t := loadRepeat planned (mergeAndChoose (beginScan s))
  bankExchange (takeStart expired (s.marksSince t) (Config.eventFirst (s.choices + 1)) s.otg.tLast t)

/-- A refresh start that no expiry of the fixed timer causes (R70). -/
def refreshStart (planned : Bool) (s : State) : State := refreshBy false planned s

/-- An eligible candidate is present (R74). -/
def State.eligiblePresent (s : State) : Bool := s.pool.cands.any fun k => (s.slot k).eligible

/-- Whether a planned repeat is skipped for a frame that is on its way (R75). -/
def State.frameArriving (s : State) : Bool :=
  match s.pool.filling with
  | some k => decide (0 < (s.slot k).filled) && !(s.slot k).eligible
  | none => false

/-- A repeat timer expiry taken in BLANK_OPEN: a planned repeat, its skip, or the Tmax backstop (R75, R76). -/
def repeatExpiryOpen (s : State) : State :=
  if 0 < s.otg.planCount then
    if s.frameArriving then loadBackstop s else refreshStart true s
  else refreshStart false s

/-- Entry to BLANK_OPEN: the test of R74, then a kept repeat expiry (R76). -/
def enterBlankOpen (s : State) : State :=
  let s := s.setOtg { s.otg with timing := .blankOpen }
  if s.eligiblePresent && !s.ps.blankActive then refreshStart false s
  else if s.otg.keptRepeat then repeatExpiryOpen (s.setOtg { s.otg with keptRepeat := false })
  else s

/-- A fixed timer expiry taken in BLANK: the timer loads the next fixed interval as it stands, and a refresh starts
(R79). -/
def fixedRefresh (s : State) : State := refreshBy true false s

/-- An eligibility event: the pacing unit's measurement, the scheduler's splice check in SCAN, the generator's refresh
start in BLANK_OPEN (R14, R60, R74, R80, R105). -/
def eligibilityEvent (s : State) : State :=
  match s.otg.timing with
  | .scan => eligibleInScan s
  | .blankOpen =>
    let s := phaseMeasure s
    if s.otg.mode = some .adaptive ∧ s.ps.blankActive = false then refreshStart false s else s
  | .idle | .blankMin | .blank => phaseMeasure s

/-- The source of strip `k`: the on-screen slot, the held slot, or the blank colour (R94, R100). -/
def State.stripSource (s : State) (k : Nat) : StripSource :=
  match s.pool.onScreen with
  | none => .blank
  | some a =>
    if k < (s.slot a).filled then .onScreen a
    else
      match s.pool.held with
      | some h => if h = a then .blank else .heldSlot h
      | none => .blank

/-- A substituted strip is counted against the on-screen frame (R101). -/
def reportSubstitution (k : Nat) (s : State) : State :=
  match s.pool.onScreen with
  | none => s
  | some a =>
    if k < (s.slot a).filled then s
    else
      match (s.slot a).frameNo with
      | some n => onRecord n FrameRec.substitutedOne s
      | none => s

/-- The splice watch opens after strip read 0 of a NEW or REPEAT refresh (R103). -/
def openWatch (k : Nat) (s : State) : State :=
  if k = 0 ∧ s.ps.lastKind ≠ some .blank ∧ s.ps.lastKind ≠ none then s.setPs { s.ps with watchOpen := true } else s

/-- Strip read `k`: the settings at strip 0, the splice check, the strip sent, its substitution, the watch (R71, R100,
R101, R103, R105, R113). -/
def readStrip (k : Nat) (s : State) : State :=
  let s := s.setOtg { s.otg with nextStrip := k + 1 }
  let s := if k = 0 then copySettings s else s
  let s := spliceCheck k s
  openWatch k (reportSubstitution k (sendStrip k (s.stripSource k) s))

end Sys2Proof.Machine
end

