-- ==== Sys2Proof/Machine/Source.lean ====
section
/-! DEFINITION. The source port: score and source state, frames taken, lines, closes, and what ends them (chapter 2). -/

namespace Sys2Proof.Machine

/-- The source state whose band holds a score (R36). -/
def bandOf (score : Nat) : SourceState :=
  if score ≤ 31 then .clean else if score ≤ 63 then .watch else if score ≤ 127 then .guarded else .detached

/-- Set the source state and the score. A change of state raises SOURCE_STATE, and one outside CLEAN and WATCH drops the
lock (R36, R83). -/
def moveSource (st : SourceState) (score : Nat) (s : State) : State :=
  let s' := s.setSp { s.sp with state := st, score := score }
  if s.sp.state = st then s'
  else if st.healthy then raise (.sourceState st score) s'
  else dropLock (raise (.sourceState st score) s')

/-- The source port asks the pacing unit to clear both windows (R47). -/
def clearWindows (s : State) : State := fillsChanged eligibilityEvent [] (clearIntervals s)

/-- Entry to DETACHED with a score (R37, R108). -/
def enterDetached (score : Nat) (s : State) : State :=
  let s := moveSource .detached score s
  let s := s.setSp { s.sp with cleanRun := 0, prevRef := none }
  let s := s.setPs { s.ps with detachTime := some s.now }
  clearWindows s

/-- A change of the score while attached, and the state that follows it (R35, R36). -/
def changeScore (f : Nat → Nat) (s : State) : State :=
  if s.sp.state.attached then
    let score := f s.sp.score
    if bandOf score = .detached then enterDetached score s else moveSource (bandOf score) score s
  else s

/-- The contribution of damage: +8, saturating at 255 (R35). -/
def scoreUp (x : Nat) : Nat := min 255 (x + 8)

/-- The contribution of a clean frame: -1, saturating at 0 (R35). -/
def scoreDown (x : Nat) : Nat := x - 1

/-- Re-attach as GUARDED with score 96; the detach time and the blank-active flag are cleared (R41, R96, R108). -/
def reattach (s : State) : State :=
  let s := moveSource .guarded 96 s
  let s := s.setSp { s.sp with cleanRun := 0 }
  s.setPs { s.ps with detachTime := none, blankActive := false }

/-- A frame in progress is passed over to its end (R42, R43, R45). -/
def FrameCond.passedOver : FrameCond → FrameCond
  | .none => .none
  | .taken | .foreign | .observed | .ignored => .ignored

/-- Set the frame condition. -/
def setCond (c : FrameCond) (s : State) : State := s.setSp { s.sp with cond := c }

/-- A frame opens with a condition: its line count 0, its marks clear (R29, R40; Log 26). The observed-clean mark is the observed
frame's own (`observeFrame`): a taken frame, or an ignored one while UNARMED, leaves it as it is (DESIGN CHOICE, unsafe:
Log 41). -/
def openFrame (c : FrameCond) (s : State) : State :=
  s.setSp { s.sp with cond := c, lineCount := 0, stripErr := false, firstPixels := 0 }

/-- A frame observed while DETACHED (R28, R40). -/
def observeFrame (s : State) : State :=
  openFrame .observed (s.setSp { s.sp with obsClean := s.sp.signal })

/-- A frame closes: the condition is NONE and the mark of an unfinished strip is discarded (R27, R31). The line count, the
first pixel count and the observed-clean mark keep their values out of a frame (DESIGN CHOICE, unsafe: Log 34). -/
def endFrame (s : State) : State := s.setSp { s.sp with cond := .none, stripErr := false }

/-- An observed frame that is not clean, or a stray event while DETACHED, breaks the clean run (R34, R40). -/
def breakRun (s : State) : State := s.setSp { s.sp with cleanRun := 0 }

/-- The close of the frame in progress by an attached Frame Start (R28). -/
def closeByStart (s : State) : State :=
  match s.sp.cond with
  | .none | .ignored | .observed => s
  | .foreign => reportClose s.sp.frameCounter s.sp.closeBad false s
  | .taken =>
    changeScore scoreUp (reportClose s.sp.frameCounter s.fillingBad true (abortFilling true s))

/-- The interval sample of a taken Frame Start (R46). -/
def intervalSample (s : State) : State :=
  match s.sp.prevRef with
  | some r =>
    if r.foreign then s
    else if elapsed s.now r.time ≤ maxInterval then addInterval (elapsed s.now r.time) s
    else clearIntervals s
  | none => s

/-- Taking a frame into slot `k` (R29). -/
def takeFrame (k : Slot) (s : State) : State :=
  let n := s.sp.frameCounter + 1
  let s := s.setSp { s.sp with frameCounter := n }
  let s := createRecord n k s.now (takeSlot k n s.now s)
  let s := intervalSample s
  openFrame .taken (s.setSp { s.sp with prevRef := some ⟨s.now, false⟩ })

/-- The line count rises by one, up to height + 1 (R26). -/
def countLine (s : State) : State :=
  s.setSp { s.sp with lineCount := if s.sp.lineCount < s.prof.height + 1 then s.sp.lineCount + 1 else s.sp.lineCount }

/-- A stray Line or Frame End (R34). -/
def strayEvent (s : State) : State :=
  match s.sp.state with
  | .clean | .watch | .guarded => changeScore scoreUp s
  | .detached => breakRun s
  | .unarmed => s

/-- Steps 1 to 4 of R32: fate FOREIGN, the abort, the windows and the foreign mark, the notice. -/
def foreignFrame (s : State) : State :=
  let s := abortFilling false (reportFate s.sp.frameCounter .foreign s)
  let s := clearWindows s
  let s := s.setSp { s.sp with prevRef := s.sp.prevRef.map fun r => { r with foreign := true } }
  raise (.foreignFrame s.sp.firstPixels s.sp.lineCount) s

/-- A taken frame becomes foreign at a line (R32). -/
def foreignAtLine (s : State) : State :=
  setCond .foreign (foreignFrame (s.setSp { s.sp with closeBad := s.fillingBad }))

/-- A taken frame is foreign at its Frame End and closes there (R32). -/
def foreignAtEnd (s : State) : State :=
  endFrame (reportClose s.sp.frameCounter s.fillingBad false (foreignFrame s))

/-- A line of the filling frame is stored (R2). -/
def storeLine (line : Nat) (pixels : List Pixel) (s : State) : State :=
  match s.pool.filling with
  | some k => s.setPool { s.pool with store := Store.writeLine s.pool.store k line s.prof.width pixels }
  | none => s

/-- A strip-filled event: the counts, then the eligibility of the filling slot (R7, R31). -/
def stripFilled (bad : Bool) (s : State) : State :=
  let s := countStrip bad s
  match s.pool.filling with
  | some k => if s.judges k then eligibilityEvent (markEligible k s) else s
  | none => s

/-- A line of a TAKEN frame that is stored, an error line or not (R30, R31). -/
def goodLine (symErr : Bool) (pixels : List Pixel) (s : State) : State :=
  let i := s.sp.lineCount
  let err := s.sp.stripErr || symErr || decide (pixels.length ≠ s.prof.width)
  let s := storeLine i pixels s
  let s := s.setSp { s.sp with
    firstPixels := if i = 0 then pixels.length else s.sp.firstPixels
    stripErr := if i % 8 = 7 then false else err }
  let s := countLine s
  if i % 8 = 7 then stripFilled err s else s

/-- A Line in a TAKEN frame (R30). -/
def takenLine (symErr : Bool) (pixels : List Pixel) (s : State) : State :=
  if s.prof.height ≤ s.sp.lineCount then foreignAtLine (countLine s)
  else if s.sp.lineCount = 0 ∧ pixels.length ≠ s.prof.width then
    foreignAtLine (countLine (s.setSp { s.sp with firstPixels := pixels.length }))
  else goodLine symErr pixels s

/-- A Line in an OBSERVED frame (R40). It leaves the first pixel count at 0 (DESIGN CHOICE, unsafe: Log 35). -/
def observedLine (symErr : Bool) (pixels : List Pixel) (s : State) : State :=
  let bad := symErr || decide (pixels.length ≠ s.prof.width) || decide (s.prof.height ≤ s.sp.lineCount)
  countLine (s.setSp { s.sp with obsClean := s.sp.obsClean && !bad })

/-- A Line event by source state and frame condition (R30, R34, R40, R43). -/
def lineEvent (symErr : Bool) (pixels : List Pixel) (s : State) : State :=
  if s.sp.state = .unarmed then s
  else
    match s.sp.cond with
    | .none => strayEvent s
    | .taken => takenLine symErr pixels s
    | .foreign | .ignored => countLine s
    | .observed => observedLine symErr pixels s

/-- The slot pool handles a completion (R8, R9). -/
def completeSlot (k : Slot) (s : State) : State :=
  let r := { s.slot k with fill := .complete, lastLine := some s.now }
  let s := s.setPool { s.pool.setSlot k r with filling := none }
  if s.sp.state = .guarded ∧ 0 < r.bad then freeSlot k .errorDropped s
  else if s.pool.onScreen = some k then s
  else
    let s := becomeReady k s
    if (s.slot k).eligible then s else eligibilityEvent (markEligible k s)

/-- The fill sample of a clean frame (R47). -/
def fillSample (first : Option Time) (s : State) : State :=
  match first with
  | some t =>
    fillsChanged eligibilityEvent (windowAdd s.pu.fills (elapsed s.now t)) (s.setPu { s.pu with filledNow := true })
  | none => s

/-- A TAKEN frame is complete at its Frame End (R33, steps 1 to 5). -/
def completeFrame (s : State) : State :=
  match s.pool.filling with
  | some k =>
    let r := s.slot k
    let n := s.sp.frameCounter
    let s := completeSlot k s
    let s := if r.bad = 0 then fillSample r.firstLine s else s
    let s := reportClose n r.bad false (reportCompletion n s.now s)
    endFrame (changeScore (if r.bad = 0 then scoreDown else scoreUp) s)
  | none => endFrame s

/-- An observed frame ends: a clean one raises the clean run, and the sixteenth re-attaches (R40, R41). -/
def observedEnd (s : State) : State :=
  let s' := endFrame s
  if s.sp.obsClean ∧ s.sp.lineCount = s.prof.height then
    if s.sp.cleanRun + 1 = reattachRun then reattach s'
    else s'.setSp { s'.sp with cleanRun := s.sp.cleanRun + 1 }
  else breakRun s'

/-- A Frame End by source state and frame condition (R33, R34, R40, R43). -/
def frameEndEvent (s : State) : State :=
  if s.sp.state = .unarmed then endFrame s
  else
    match s.sp.cond with
    | .none => strayEvent s
    | .taken => if s.sp.lineCount = s.prof.height then completeFrame s else foreignAtEnd s
    | .foreign => endFrame (reportClose s.sp.frameCounter s.sp.closeBad false s)
    | .ignored => endFrame s
    | .observed => observedEnd s

/-- The close reports of Signal Lost while attached (R38). -/
def closeByLoss (s : State) : State :=
  match s.sp.cond with
  | .taken => reportClose s.sp.frameCounter s.fillingBad false (abortFilling false s)
  | .foreign => reportClose s.sp.frameCounter s.sp.closeBad false s
  | .none | .observed | .ignored => s

/-- Signal Lost by source state (R38). -/
def signalLostEvent (s : State) : State :=
  let s := s.setSp { s.sp with signal := false }
  match s.sp.state with
  | .clean | .watch | .guarded => enterDetached 128 (endFrame (closeByLoss s))
  | .detached => endFrame (s.setSp { s.sp with score := 128, cleanRun := 0 })
  | .unarmed => endFrame s

end Sys2Proof.Machine
end

