-- ==== Sys2Proof/Machine/Points.lean ====
section
/-! DEFINITION. The application of a confirmed profile and the pipeline reset point: every block's share (sections 4.6 and 4.7, 7.6). -/

namespace Sys2Proof.Machine

/-- The geometry of a new profile differs from the one it replaces, or there was none (R139). -/
def geometryDiffers (old : Option Profile) (p : Profile) : Bool :=
  match old with
  | some o => o.width ≠ p.width || o.height ≠ p.height
  | none => true

/-- The pacing field, win_min or win_max differs (R139). -/
def windowDiffers (old : Option Profile) (p : Profile) : Bool :=
  match old with
  | some o => o.pacing ≠ p.pacing || o.winMin ≠ p.winMin || o.winMax ≠ p.winMax
  | none => true

/-- The generator restarts its cycle at an application or reset point (R85, R88). The next strip is kept, above the S of a
lower profile as well (DESIGN CHOICE, unsafe: Log 36). -/
def restartCycle (s : State) : State :=
  let p := s.prof
  let o := { s.otg with
    mode := some p.pacing
    tLast := s.now
    minPassed := false
    keptRepeat := false
    keptFixed := false
    planCount := 0 }
  let o := match p.pacing with
    | .adaptive => { o with
        timing := .blankMin
        tminTimer := s.timerAfter p.winMin
        repeatTimer := s.timerAfter p.winMax
        fixedTimer := .stopped }
    | .fixed => { o with
        timing := .blank
        tminTimer := .stopped
        repeatTimer := .stopped
        fixedTimer := s.timerAfter p.fixedInterval }
  dropLock (s.setOtg o)

/-- The first application after power-on: a refresh start at once, and under FIXED the fixed timer loaded with Tf
(R86). -/
def startOutput (s : State) : State :=
  let s := refreshStart false (s.setOtg { s.otg with mode := some s.prof.pacing })
  if s.prof.pacing = .fixed then s.setOtg { s.otg with fixedTimer := s.timerAfter s.prof.fixedInterval } else s

/-- The source arms at the first application (R43). -/
def armSource (s : State) : State :=
  let s := setCond s.sp.cond.passedOver s
  if s.sp.signal then breakRun (moveSource .clean 0 s) else enterDetached 128 s

/-- The close report of a frame in progress at a change of geometry (R44). -/
def closeByGeometry (s : State) : State :=
  match s.sp.cond with
  | .taken => reportClose s.sp.frameCounter s.fillingBad false s
  | .foreign => reportClose s.sp.frameCounter s.sp.closeBad false s
  | .none | .observed | .ignored => s

/-- The frame in progress is passed over at a change of geometry; the clean run and the previous-frame reference go
(R44; Log 15). Its line count is kept, above the new height + 1 as well (DESIGN CHOICE, unsafe: Log 33). -/
def passOver (s : State) : State :=
  s.setSp { s.sp with cond := s.sp.cond.passedOver, stripErr := false, cleanRun := 0, prevRef := none }

/-- The source port's and the slot pool's shares of an application (R20, R21, R43, R44). -/
def applyFrames (old : Option Profile) (geo : Bool) (s : State) : State :=
  match old with
  | none => armSource (flushPool s)
  | some _ => if geo then passOver (flushPool (closeByGeometry s)) else s

/-- The pacing unit's share of an application (R66). An eligibility event that its publication raises sets the mark and
has no other effect at the application (R85, R138; Log 12). -/
def applyPacing (geo win : Bool) (s : State) : State :=
  let s := emptyWindows (geo || win) geo s
  let s := s.setPu { s.pu with ti := averageInterval s.pu.intervals, fi := averageFill s.pu.fills }
  let s := publishQ (fun s => s) (s.setPu { s.pu with q := computeQ s.pc.active s.pu.fi })
  let s := setAdmission (setPlan s)
  s.setPu { s.pu with
    armed := false
    good := 0
    bad := 0
    nextFixed := if s.prof.pacing = .fixed then s.prof.fixedInterval else 0 }

/-- The application of the proposal, every block's share in order, the generator's last; the Confirm's reply completes
(R85, R86, R138). -/
def applyProfile (s : State) : State :=
  match s.pc.proposal with
  | none => s
  | some p =>
    let old := s.pc.active
    let geo := geometryDiffers old p
    let first := s.otg.timing = .idle
    let s := s.setPc { s.pc with active := some p, proposal := none, propState := .none }
    let s := applyPacing geo (windowDiffers old p) (applyFrames old geo s)
    let s := if first then startOutput s else restartCycle s
    completeDeferred .profileApply .ok (s.setOtg { s.otg with pendingApp := false })

/-- The source port's share of a pipeline reset (R45, R108). The strip error mark of a TAKEN frame that is passed over is
cleared (DESIGN CHOICE, unsafe: Log 38); its counts and its observed-clean mark are kept (Log 34). -/
def resetSource (s : State) : State :=
  let s := setCond s.sp.cond.passedOver s
  let s := s.setSp { s.sp with cleanRun := 0, prevRef := none, stripErr := false }
  if s.sp.signal then
    let s := moveSource .clean 0 s
    s.setPs { s.ps with detachTime := none }
  else if s.sp.state = .detached then s.setSp { s.sp with score := 128 }
  else enterDetached 128 s

/-- The reset point (R22, R45, R67, R88, R110, R142, R160); the reset's reply completes. Q is published only when a fill
sample of this moment is taken after the emptying (R54, R67; Log 37). -/
def resetPoint (s : State) : State :=
  let s := resetPacing (resetSource (resetPool s))
  let s := s.setPs { s.ps with blankActive := false, q := none }
  let s := recomputeQ (fun s => s) ((mergeTune s).setHr [])
  let s := restartCycle s
  completeDeferred .pipelineReset .ok (s.setOtg { s.otg with pendingReset := false })

/-- The acceptance of a Pipeline Reset: a pending application is aborted, a pending commit cancelled, a HELD proposal
discarded without fault (R87). -/
def acceptReset (s : State) : State :=
  let s := if s.otg.pendingApp then
      completeDeferred .profileApply .aborted
        ((s.setOtg { s.otg with pendingApp := false }).setPc { s.pc with propState := .none, proposal := none })
    else s
  let s := cancelCommit s
  if s.pc.propState = .held then s.setPc { s.pc with propState := .none, proposal := none } else s

/-- The generator leaves SCAN at a scan end at which nothing is pending (R73, R79). -/
def leaveScan (s : State) : State :=
  if s.otg.mode = some .adaptive then
    if s.otg.minPassed then enterBlankOpen s else s.setOtg { s.otg with timing := .blankMin }
  else
    let s := s.setOtg { s.otg with timing := .blank }
    if s.otg.keptFixed then fixedRefresh (s.setOtg { s.otg with keptFixed := false }) else s

/-- The scan end: the on-screen slot, then the reset and application points, or leaving SCAN (R71, R85, R88, R99). -/
def endScan (s : State) : State :=
  let s := s.setOtg { s.otg with nextStrip := s.prof.strips }
  let s := scanEndPool (closeWatch s)
  if s.otg.pendingReset || s.otg.pendingApp then
    let s := if s.otg.pendingReset then resetPoint s else s
    if s.otg.pendingApp then applyProfile s else s
  else leaveScan s

end Sys2Proof.Machine
end

