-- ==== Sys2Proof/WellFormed.lean ====
section
/-! DEFINITION. Which commands the outside world can deliver (R26). -/

namespace Sys2Proof

/-- A Line carries a pixel count of 0 to 65,535 (R26). -/
def lineOk (pixels : List Pixel) : Bool := pixels.length ≤ 65535

/-- A Packet carries a length of 0 to 255 (R26). -/
def packetOk (payload : List Byte) : Bool := payload.length ≤ 255

/-- The commands whose operands lie in the ranges of R26. -/
def Instr.wellFormed : Instr → Bool
  | .line _ pixels => lineOk pixels
  | .packet _ _ payload => packetOk payload
  | .powerOnReset | .resetNRelease | .frameStart | .frameEnd | .signalLost | .signalRestored
  | .tminExpiry | .repeatTimerExpiry | .fixedTimerExpiry | .stripRead | .scanEnd
  | .gapEvent | .breakEvent | .messageReceived _ | .overrunReply | .deferredReply
  | .requestRefused | .replySent | .noticeSent
  | .getIdentity | .getStatus | .setNotices | .setPanelLimits | .proposeProfile
  | .confirmProfile | .withdrawProfile | .clearFault | .tuneProfile | .getProfile
  | .lutWrite | .lutCommit | .lutRead | .setFilter | .readCapture | .readHistory
  | .reattachSource | .pipelineReset | .byteReceived _ => true

end Sys2Proof
end

