-- ==== Sys2Proof/Machine/SourceCmds.lean ====
section
/-! DEFINITION. The meanings of the source port's six events and of the reset input (R26, R48, R50, R147, R161). -/

namespace Sys2Proof.Machine

/-- The outcome of a command of this part. -/
abbrev Result := Host.Outcome State Fault Refusal

/-- An event of the outside world: no effect while RESET_N holds the part (R161; Log 5). -/
def whileRunning (f : State → Result) (s : State) : Result :=
  if s.resetAsserted then .next s else f s

/-- POWER_ON_RESET (R161, R2): every block at its power-on state and held there; the strip store is not cleared. -/
def powerOnState (s : State) : State :=
  { State.reset with
    resetAsserted := true
    pool := SlotPool.powerOn s.pool.store
    choices := s.choices
    pending := s.pending }

/-- POWER_ON_RESET (R161). -/
def execPowerOnReset (s : State) : Result := .next (powerOnState s)

/-- RESET_N_RELEASE (R50): the part starts from the state it was held in. -/
def execResetNRelease (s : State) : Result := .next { s with resetAsserted := false }

/-- An attached Frame Start: the close, then the new frame taken, or observed if the close detached the source
(R28, R29, R37). -/
def attachedStart (s : State) : Result :=
  let s := closeByStart s
  if s.sp.state = .detached then .next (settle (observeFrame s))
  else
    match s.pool.lowestFree with
    | some k => .next (settle (takeFrame k s))
    | none => .fault .noFreeSlot

/-- A Frame Start by source state (R28, R43). -/
def frameStartEvent (s : State) : Result :=
  match s.sp.state with
  | .unarmed => .next (openFrame .ignored s)
  | .detached => .next (observeFrame (if s.sp.cond = .observed then breakRun s else s))
  | .clean | .watch | .guarded => attachedStart s

/-- FRAME_START (R28). -/
def execFrameStart (s : State) : Result := whileRunning frameStartEvent s

/-- LINE (R30): refused when the receiver cannot deliver it (R26). -/
def execLine (symErr : Bool) (pixels : List Pixel) (s : State) : Result :=
  if lineOk pixels then whileRunning (fun s => .next (settle (lineEvent symErr pixels s))) s
  else .refused .illFormed

/-- FRAME_END (R33). -/
def execFrameEnd (s : State) : Result := whileRunning (fun s => .next (settle (frameEndEvent s))) s

/-- SIGNAL_LOST (R38). -/
def execSignalLost (s : State) : Result := whileRunning (fun s => .next (settle (signalLostEvent s))) s

/-- SIGNAL_RESTORED (R39): the flag, and nothing else. -/
def execSignalRestored (s : State) : Result :=
  whileRunning (fun s => .next (s.setSp { s.sp with signal := true })) s

/-- A packet's identity: its type byte high, its version byte low (R147). -/
def packetIdentity (ptype version : Byte) : BitVec 16 := ptype ++ version

/-- An enabled entry matches an identity that agrees with its code in every bit of its mask (R147). -/
def FilterEntry.hits (e : FilterEntry) (identity : BitVec 16) : Bool :=
  e.enabled && (identity ^^^ e.code) &&& e.mask = 0

/-- The hit: the lowest-numbered matching entry (R147). -/
def PacketFilter.hit (f : PacketFilter) (identity : BitVec 16) : Option (Fin 4) :=
  (List.finRange 4).find? fun i => f.entries[i].hits identity

/-- The content of a capture record equals a packet's (R148). -/
def Capture.sameContent (c : Capture) (ptype version : Byte) (payload : List Byte) : Bool :=
  c.ptype = ptype && c.version = version && c.payload = payload

/-- Write a capture record. -/
def setCapture (i : Fin 4) (c : Option Capture) (s : State) : State :=
  s.setPf { s.pf with captures := s.pf.captures.set i.val c i.isLt }

/-- The changed set: which records' changed flags are set (R149). -/
def PacketFilter.changedSet (f : PacketFilter) : Vector Bool 4 :=
  f.captures.map fun c => match c with
    | some c => c.changed
    | none => false

/-- A packet hits an entry: stamps only, or the whole packet, the changed flag and the notice (R148, R149). -/
def capturePacket (i : Fin 4) (ptype version : Byte) (payload : List Byte) (s : State) : State :=
  let fresh : Capture := ⟨ptype, version, payload, s.now, s.sp.frameCounter, true⟩
  match s.pf.captures[i] with
  | some c =>
    if c.sameContent ptype version payload then
      setCapture i (some { c with arrival := s.now, frameCounter := s.sp.frameCounter }) s
    else
      let s := setCapture i (some fresh) s
      raise (.packetChanged s.pf.changedSet) s
  | none =>
    let s := setCapture i (some fresh) s
    raise (.packetChanged s.pf.changedSet) s

/-- A Packet event: the length check, the match, the capture (R147). -/
def packetEvent (ptype version : Byte) (payload : List Byte) (s : State) : State :=
  if maxPacket < payload.length then s
  else
    match s.pf.hit (packetIdentity ptype version) with
    | some i => capturePacket i ptype version payload s
    | none => s

/-- PACKET (R147): refused when the receiver cannot deliver it (R26). -/
def execPacket (ptype version : Byte) (payload : List Byte) (s : State) : Result :=
  if packetOk payload then whileRunning (fun s => .next (settle (packetEvent ptype version payload s))) s
  else .refused .illFormed

end Sys2Proof.Machine
end

