-- ==== Sys2Proof/Machine/TimingCmds.lean ====
section
/-! DEFINITION. The meanings of the output timing generator's events: timer expiries, strip reads and scan ends. Each takes effect when it is due; an expiry that is cancelled has no effect (R69; Log 3, Log 24). -/

namespace Sys2Proof.Machine

/-- A timed or granted event: it takes effect when it is due and the part runs, and otherwise does not occur (Log 3). -/
def whenDue (due : State → Bool) (f : State → State) (s : State) : Result :=
  if s.resetAsserted then .next s else if due s then .next (settle (f s)) else .next s

/-- The Tmin timer falls due now. -/
def tminDue (s : State) : Bool := s.due s.otg.tminTimer

/-- The effect of a Tmin expiry (R73). -/
def tminExpired (s : State) : State :=
  let s := s.setOtg { s.otg with tminTimer := .stopped }
  match s.otg.timing with
  | .scan => s.setOtg { s.otg with minPassed := true }
  | .blankMin => enterBlankOpen s
  | .idle | .blankOpen | .blank => s

/-- TMIN_EXPIRY (R73). -/
def execTminExpiry (s : State) : Result := whenDue tminDue tminExpired s

/-- The repeat timer falls due now. -/
def repeatDue (s : State) : Bool := s.due s.otg.repeatTimer

/-- The effect of a repeat timer expiry (R75, R76). -/
def repeatExpired (s : State) : State :=
  let s := s.setOtg { s.otg with repeatTimer := .stopped }
  match s.otg.timing with
  | .blankOpen => repeatExpiryOpen s
  | .scan | .blankMin => s.setOtg { s.otg with keptRepeat := true }
  | .idle | .blank => s

/-- REPEAT_TIMER_EXPIRY (R75, R76). -/
def execRepeatTimerExpiry (s : State) : Result := whenDue repeatDue repeatExpired s

/-- The fixed timer falls due now. -/
def fixedDue (s : State) : Bool := s.due s.otg.fixedTimer

/-- The effect of a fixed timer expiry (R79). -/
def fixedExpired (s : State) : State :=
  let s := s.setOtg { s.otg with fixedTimer := .stopped }
  match s.otg.timing with
  | .blank => fixedRefresh s
  | .scan => s.setOtg { s.otg with keptFixed := true }
  | .idle | .blankMin | .blankOpen => s

/-- FIXED_TIMER_EXPIRY (R79). -/
def execFixedTimerExpiry (s : State) : Result := whenDue fixedDue fixedExpired s

/-- The time of strip read `k`: t_last + floor(k × So / S) (R71). -/
def State.stripTime (s : State) (k : Nat) : Time := plusTicks s.otg.tLast (k * s.prof.scanTime / s.prof.strips)

/-- The next strip read falls due now (R71). -/
def stripDue (s : State) : Bool :=
  s.otg.timing = .scan && decide (s.otg.nextStrip < s.prof.strips) && s.now = s.stripTime s.otg.nextStrip

/-- STRIP_READ (R71, R100). -/
def execStripRead (s : State) : Result := whenDue stripDue (fun s => readStrip s.otg.nextStrip s) s

/-- The scan end falls due now: t_last + So, after strip read S - 1 (R71). -/
def scanEndDue (s : State) : Bool :=
  s.otg.timing = .scan && s.otg.nextStrip = s.prof.strips && s.now = plusTicks s.otg.tLast s.prof.scanTime

/-- SCAN_END (R71). -/
def execScanEnd (s : State) : Result := whenDue scanEndDue endScan s

end Sys2Proof.Machine
end

