-- ==== Sys2Proof/Machine/LinkCmds.lean ====
section
/-! DEFINITION. The meanings of the message link's events: bytes, gaps and breaks, the arbiter's grants, and the ends of transmissions (chapter 10). -/

namespace Sys2Proof.Machine

/-- The payload length a four-byte header declares (R162). -/
def declaredLength (bytes : List Byte) : Nat := fieldAt bytes 2 2

/-- The request that assembled bytes stand for, with an entry code (R161, R162). -/
def requestOf (bytes : List Byte) (payload : List Byte) (entry : EntryCode) : Request where
  type := bytes.getD 0 0
  tag := bytes.getD 1 0
  payload := payload
  entry := entry

/-- The assembler after a byte: its state, the partial message, and the time of the byte (R161, R162). -/
def setAssembler (a : AsmState) (bytes : List Byte) (s : State) : State :=
  s.setMl { s.ml with asm := a, partialMsg := bytes, lastByte := some s.now }

/-- A byte in HEADER (R162, R164). -/
def headerByte (b : Byte) (s : State) : State :=
  let bytes := s.ml.partialMsg ++ [b]
  if bytes.length < 4 then setAssembler .header bytes s
  else if maxPayload < declaredLength bytes then
    handOver (requestOf bytes [] .tooLong) (setAssembler .discarding [] s)
  else if declaredLength bytes = 0 then handOver (requestOf bytes [] .none) (setAssembler .waiting [] s)
  else setAssembler .payload bytes s

/-- A byte in PAYLOAD (R162). -/
def payloadByte (b : Byte) (s : State) : State :=
  let bytes := s.ml.partialMsg ++ [b]
  if bytes.length < 4 + declaredLength bytes then setAssembler .payload bytes s
  else handOver (requestOf bytes (bytes.drop 4) .none) (setAssembler .waiting [] s)

/-- The assembler takes a byte (R162, R164). -/
def takeByte (b : Byte) (s : State) : State :=
  match s.ml.asm with
  | .waiting => setAssembler .header [b] s
  | .header => headerByte b s
  | .payload => payloadByte b s
  | .discarding => setAssembler .discarding [] s

/-- The gap test has run out: more than 4,000 ticks since the last byte, in any state but WAITING (R163, R164). -/
def gapDue (s : State) : Bool :=
  s.ml.asm ≠ .waiting &&
    match s.ml.lastByte with
    | some t => decide (gapTicks < elapsed s.now t)
    | none => false

/-- The assembler returns to WAITING. -/
def resetAssembler (s : State) : State := s.setMl { s.ml with asm := .waiting, partialMsg := [] }

/-- The effect of a gap (R163, R164): a message whose type and tag have been received becomes a MALFORMED request. Its slot holds
an empty payload, whatever payload bytes have been received (DESIGN CHOICE, unsafe: Log 39). -/
def gapEnds (s : State) : State :=
  match s.ml.asm with
  | .header | .payload =>
    if 2 ≤ s.ml.partialMsg.length then
      handOver (requestOf s.ml.partialMsg [] .malformed) (resetAssembler s)
    else resetAssembler s
  | .waiting | .discarding => resetAssembler s

/-- A byte or a break finds the gap event of an earlier moment taken: a gap of more than 4,000 ticks ends the message
before it (R163; Log 24). -/
def gapFirst (s : State) : State := if gapDue s then gapEnds s else s

/-- BYTE_RECEIVED (R162). Whether the byte completes a message is the assembler's to find (Log 9). -/
def execByteReceived (b : Byte) (s : State) : Result := whileRunning (fun s => .next (takeByte b (gapFirst s))) s

/-- MESSAGE_RECEIVED (R162, R164, R165): the byte with which the assembler hands a message over (Log 9). -/
def execMessageReceived (b : Byte) (s : State) : Result := whileRunning (fun s => .next (takeByte b (gapFirst s))) s

/-- GAP_EVENT (R163). -/
def execGapEvent (s : State) : Result := whenDue gapDue gapEnds s

/-- BREAK (R163): the partial message is discarded and the assembler waits (Log 28). -/
def execBreak (s : State) : Result := whileRunning (fun s => .next (resetAssembler (gapFirst s))) s

/-- A completed deferred reply is granted a free entry (R166). -/
def deferredDue (s : State) : Bool := s.entryFree && s.ml.doneOrder ≠ []

/-- DEFERRED_REPLY (R166, R167). -/
def execDeferredReply (s : State) : Result := whenDue deferredDue claimDeferred s

/-- The overrun reply is granted a free entry, no completed deferred reply waiting (R166). -/
def overrunDue (s : State) : Bool := s.entryFree && s.ml.doneOrder = [] && s.ml.overrun.isSome

/-- The overrun reply enters the queue and the marker becomes empty (R165). -/
def overrunReplies (s : State) : State :=
  match s.ml.overrun with
  | some tag => pushReply ⟨tag, .overrun, 0, []⟩ (s.setMl { s.ml with overrun := none })
  | none => s

/-- OVERRUN_REPLY (R165, R166). -/
def execOverrunReply (s : State) : Result := whenDue overrunDue overrunReplies s

/-- The last byte of the reply under transmission goes out now (R168). -/
def replySentDue (s : State) : Bool :=
  match s.ml.tx with
  | .reply _ => s.txEnd = some s.now
  | .idle | .notice _ _ => false

/-- The transmitter is idle again. -/
def txIdle (s : State) : State := s.setMl { s.ml with tx := .idle }

/-- REPLY_SENT (R168): the entry is freed and the transmitter chooses at once. -/
def execReplySent (s : State) : Result :=
  if s.resetAsserted then .next s
  else if replySentDue s then
    .next (chooseMessage (txIdle (s.setMl { s.ml with replies := s.ml.replies.drop 1 })))
  else .next s

/-- The last byte of the notice under transmission goes out now (R168). -/
def noticeSentDue (s : State) : Bool :=
  match s.ml.tx with
  | .notice _ _ => s.txEnd = some s.now
  | .idle | .reply _ => false

/-- NOTICE_SENT (R168): the transmitter chooses at once. -/
def execNoticeSent (s : State) : Result :=
  if s.resetAsserted then .next s
  else if noticeSentDue s then .next (chooseMessage (txIdle s))
  else .next s

end Sys2Proof.Machine
end

