-- ==== Sys2Proof/Machine/RequestCmds.lean ====
section
/-! DEFINITION. The executions of requests that need no profile controller: refusals, identity, status, notices, capture, history, re-attach, Set Filter and the sequence check (chapters 2, 8, 9, 10). -/

namespace Sys2Proof.Machine

/-- The arbiter executes the oldest request now and it is one that reaches the block of this type (R166). -/
def State.executes (s : State) (type : Nat) : Bool :=
  match s.granted with
  | some r => r.reaches type
  | none => false

/-- The oldest request leaves its slot and is carried out (R166). -/
def carryOut (f : Request → State → State) (s : State) : State :=
  match s.ml.slots with
  | r :: _ => f r (takeRequest s)
  | [] => s

/-- The execution of the oldest request when it is of a type and the arbiter grants it; until then it waits in its slot
(R166; Log 3). -/
def execRequest (type : Nat) (f : Request → State → State) (s : State) : Result :=
  whenDue (fun s => s.executes type) (carryOut f) s

/-- The sequence check of a configuration request (R133): a HELD proposal is discarded and the fault set; a fault refuses;
otherwise the request's own rule applies. -/
def sequenceCheck (f : Request → State → State) (r : Request) (s : State) : State :=
  if s.pc.propState = .held then
    answer r .sequence (s.setPc { s.pc with propState := .none, proposal := none, faulted := true })
  else if s.pc.faulted then answer r .faulted s
  else f r s

/-- The oldest request is answered without reaching its block (R166, steps 1 to 3). -/
def refusedDue (s : State) : Bool :=
  match s.granted with
  | some r => r.refusal.isSome
  | none => false

/-- The refusal of a request by its entry code, type or length (R166). -/
def refuseRequest (r : Request) (s : State) : State :=
  match r.refusal with
  | some st => answer r st s
  | none => s

/-- REQUEST_REFUSED (R166). -/
def execRequestRefused (s : State) : Result := whenDue refusedDue (carryOut refuseRequest) s

/-- The identity: part code 7520, revision letter A, protocol version 1 (R171). -/
def identityBody : List Byte := leBytes 2 7520 ++ [0x41, 1]

/-- GET_IDENTITY (R171). -/
def execGetIdentity (s : State) : Result := execRequest 0x01 (fun r s => answerWith r identityBody s) s

/-- GET_STATUS (R172). -/
def execGetStatus (s : State) : Result := execRequest 0x02 (fun r s => answerWith r (statusBody s) s) s

/-- The enables an enable set spells, kind 1 at bit 0 (section 11.2). -/
def enablesOf (set : Nat) : Vector Bool 5 := Vector.ofFn fun i : Fin 5 => set.testBit i.val

/-- The pending copies of the kinds that stay enabled (R170). -/
def keptNotices (on : Vector Bool 5) (n : Vector (Option NoticeMsg) 5) : Vector (Option NoticeMsg) 5 :=
  Vector.ofFn fun i : Fin 5 => if on[i] then n[i] else none

/-- Set Notices (R170). -/
def setNotices (r : Request) (s : State) : State :=
  let set := fieldAt r.payload 0 1
  if 32 ≤ set then answerField r .badField 1 s
  else
    answer r .ok (s.setMl { s.ml with
      enables := enablesOf set
      notices := keptNotices (enablesOf set) s.ml.notices })

/-- SET_NOTICES (R170). -/
def execSetNotices (s : State) : Result := execRequest 0x03 setNotices s

/-- The filter entry with a given number. -/
def entryIndex (n : Nat) : Fin 4 := Fin.ofNat 4 n

/-- Set Filter's own checks and effects (R150). -/
def setFilter (r : Request) (s : State) : State :=
  let n := fieldAt r.payload 0 1
  let on := fieldAt r.payload 1 1
  if 3 < n then answerField r .badField 1 s
  else if ¬ isFlag on then answerField r .badField 2 s
  else
    let i := entryIndex n
    let e : FilterEntry := ⟨on = 1, BitVec.ofNat 16 (fieldAt r.payload 2 2), BitVec.ofNat 16 (fieldAt r.payload 4 2)⟩
    answer r .ok (s.setPf { s.pf with
      entries := s.pf.entries.set i.val e i.isLt
      captures := s.pf.captures.set i.val none i.isLt })

/-- SET_FILTER (R150). -/
def execSetFilter (s : State) : Result := execRequest 0x30 (sequenceCheck setFilter) s

/-- Read Capture (R151). -/
def readCapture (r : Request) (s : State) : State :=
  let n := fieldAt r.payload 0 1
  if 3 < n then answerField r .badField 1 s
  else
    let i := entryIndex n
    let c := s.pf.captures[i]
    answerWith r (captureBytes n c) (setCapture i (c.map fun c => { c with changed := false }) s)

/-- READ_CAPTURE (R151). -/
def execReadCapture (s : State) : Result := execRequest 0x31 readCapture s

/-- The records Read History returns, newest first (R159). -/
def historyRead (ring : List FrameRec) (n : Nat) : List FrameRec := ring.reverse.take n

/-- Read History (R159). -/
def readHistory (r : Request) (s : State) : State :=
  let recs := historyRead s.hr (fieldAt r.payload 0 1)
  answerWith r (leBytes 1 recs.length ++ (recs.map FrameRec.bytes).flatten) s

/-- READ_HISTORY (R159). -/
def execReadHistory (s : State) : Result := execRequest 0x40 readHistory s

/-- Reattach Source (R42). -/
def reattachSource (r : Request) (s : State) : State :=
  if s.sp.state = .detached then
    answer r .ok (setCond s.sp.cond.passedOver (reattach s))
  else answer r .notDetached s

/-- REATTACH_SOURCE (R42). -/
def execReattachSource (s : State) : Result := execRequest 0x50 reattachSource s

end Sys2Proof.Machine
end

