-- ==== Sys2Proof/Machine/ProfileCmds.lean ====
section
/-! DEFINITION. The executions of the profile controller's and the generator's requests: limits, proposals, tuning, Pipeline Reset (chapters 4 and 7). -/

namespace Sys2Proof.Machine

/-- One check of a validation: whether it passes, and what a failure draws. -/
structure FieldCheck where
  passes : Bool
  status : Status
  field : Nat
  deriving DecidableEq, Repr

/-- The first check that fails, in order (R129, R131, R140). -/
def firstFailure (cs : List FieldCheck) : Option FieldCheck := cs.find? fun c => !c.passes

/-- A value lies from `lo` to `hi`. -/
def within (lo hi x : Nat) : Bool := lo ≤ x && x ≤ hi

/-- The limits a Set Panel Limits payload carries (section 11.2). -/
def readLimits (bs : List Byte) : Limits where
  tminAbs := fieldAt bs 0 4
  tmaxAbs := fieldAt bs 4 4
  scanMin := fieldAt bs 8 4
  blankMin := fieldAt bs 12 4

/-- The checks of the four limits, in field order (R128, R129). -/
def limitsChecks (l : Limits) : List FieldCheck :=
  [⟨within minTminAbs maxTicks l.tminAbs, .badField, 1⟩,
   ⟨within l.tminAbs maxTicks l.tmaxAbs, .badField, 2⟩,
   ⟨within 1 maxTicks l.scanMin, .badField, 3⟩,
   ⟨within 0 maxTicks l.blankMin && decide (l.scanMin + l.blankMin ≤ l.tmaxAbs), .badField, 4⟩]

/-- Set Panel Limits' own checks and effects (R129). -/
def setPanelLimits (r : Request) (s : State) : State :=
  if s.pc.limits.isSome then answer r .locked s
  else
    match firstFailure (limitsChecks (readLimits r.payload)) with
    | some c => answerField r c.status c.field s
    | none => answer r .ok (s.setPc { s.pc with limits := some (readLimits r.payload) })

/-- SET_PANEL_LIMITS (R129). -/
def execSetPanelLimits (s : State) : Result := execRequest 0x10 (sequenceCheck setPanelLimits) s

/-- The checks of fields 1 to 9 of a profile record, format before limits (R130, R131). -/
def profileChecksA (l : Limits) (r : RawProfile) : List FieldCheck :=
  [⟨within 640 3840 r.width && r.width % 8 = 0, .badField, 1⟩,
   ⟨within 480 2160 r.height && r.height % 8 = 0, .badField, 2⟩,
   ⟨within 1 maxTicks r.scanTime, .badField, 3⟩,
   ⟨l.scanMin ≤ r.scanTime, .outOfLimits, 3⟩,
   ⟨within 1 maxTicks r.winMin, .badField, 4⟩,
   ⟨l.tminAbs ≤ r.winMin, .outOfLimits, 4⟩,
   ⟨r.scanTime + l.blankMin ≤ r.winMin, .outOfLimits, 4⟩,
   ⟨within 1 maxTicks r.winMax, .badField, 5⟩,
   ⟨r.winMax ≤ l.tmaxAbs, .outOfLimits, 5⟩,
   ⟨r.winMin ≤ r.winMax, .outOfLimits, 5⟩,
   ⟨r.pacing ≤ 1, .badField, 6⟩,
   ⟨within 0 maxTicks r.fixedInterval && (r.pacing = 1 || r.fixedInterval = 0), .badField, 7⟩,
   ⟨r.pacing = 0 || within r.winMin r.winMax r.fixedInterval, .outOfLimits, 7⟩,
   ⟨isFlag r.lock && (r.pacing = 1 || r.lock = 0), .badField, 8⟩,
   ⟨r.lockGuard ≤ r.fixedInterval / 4, .badField, 9⟩]

/-- The checks of fields 10 to 19 of a profile record (R130, R131). -/
def profileChecksB (r : RawProfile) : List FieldCheck :=
  [⟨isFlag r.race, .badField, 10⟩,
   ⟨r.raceMargin ≤ 16, .badField, 11⟩,
   ⟨r.tear ≤ 1, .badField, 12⟩,
   ⟨r.spliceLimit ≤ r.height / 8 - 1, .badField, 13⟩,
   ⟨isFlag r.repeatPlan && (r.pacing = 0 || r.repeatPlan = 0), .badField, 14⟩,
   ⟨r.repeatPlan = 0 || decide (2 * r.winMin ≤ r.winMax), .outOfLimits, 14⟩,
   ⟨r.holdTimeout ≤ 10000, .badField, 15⟩,
   ⟨threeLe r.blankColour 4095, .badField, 16⟩,
   ⟨r.outDepth = 8 || r.outDepth = 10, .badField, 17⟩,
   ⟨threeLe r.mask 1023, .badField, 18⟩,
   ⟨isFlag r.lut, .badField, 19⟩]

/-- The validation of a profile record against the limits: the first check that fails (R131). -/
def profileFailure (l : Limits) (r : RawProfile) : Option FieldCheck :=
  firstFailure (profileChecksA l r ++ profileChecksB r)

/-- Propose Profile's own checks and effects (R135). -/
def proposeProfile (r : Request) (s : State) : State :=
  match s.pc.limits with
  | none => answer r .noLimits s
  | some l =>
    if s.pc.propState = .confirmed then answer r .busy s
    else
      match profileFailure l (readProfile r.payload) with
      | some c => answerField r c.status c.field s
      | none =>
        answer r .ok (s.setPc { s.pc with
          propState := .held
          proposal := some (readProfile r.payload).toProfile })

/-- PROPOSE_PROFILE (R135). -/
def execProposeProfile (s : State) : Result := execRequest 0x11 (sequenceCheck proposeProfile) s

/-- Confirm Profile (R85, R136): the pending application is taken at once outside SCAN, and waits in SCAN. -/
def confirmProfile (r : Request) (s : State) : State :=
  if s.pc.propState = .held then
    let s := deferReply .profileApply r.tag (s.setPc { s.pc with propState := .confirmed })
    let s := s.setOtg { s.otg with pendingApp := true }
    if s.otg.timing = .scan then s else applyProfile s
  else answer r .noProposal s

/-- CONFIRM_PROFILE (R136). -/
def execConfirmProfile (s : State) : Result := execRequest 0x12 confirmProfile s

/-- Withdraw Profile (R137). -/
def withdrawProfile (r : Request) (s : State) : State :=
  if s.pc.propState = .held then
    answer r .ok (s.setPc { s.pc with propState := .none, proposal := none })
  else answer r .noProposal s

/-- WITHDRAW_PROFILE (R137). -/
def execWithdrawProfile (s : State) : Result := execRequest 0x13 withdrawProfile s

/-- Clear Fault (R134). -/
def clearFault (r : Request) (s : State) : State := answer r .ok (s.setPc { s.pc with faulted := false })

/-- CLEAR_FAULT (R134). -/
def execClearFault (s : State) : Result := execRequest 0x14 clearFault s

/-- The marker and value checks of one tune field: the marker is 0 or 1, and the value of a present field passes
(R140, section 11.2.2). -/
def tuneCheck (bs : List Byte) (off field : Nat) (valueOk : Bool) : FieldCheck :=
  let m := fieldAt bs off 1
  ⟨m = 0 || (m = 1 && valueOk), .badField, field⟩

/-- The checks of the eight tune fields, in field-number order (R140). -/
def tuneChecks (bs : List Byte) : List FieldCheck :=
  [tuneCheck bs 0 10 (isFlag (fieldAt bs 1 1)),
   tuneCheck bs 2 11 true,
   tuneCheck bs 4 12 (fieldAt bs 5 1 ≤ 1),
   tuneCheck bs 6 13 true,
   tuneCheck bs 9 15 true,
   tuneCheck bs 12 16 (threeLe (fieldThree bs 13) 4095),
   tuneCheck bs 19 18 (threeLe (fieldThree bs 20) 1023),
   tuneCheck bs 26 19 (isFlag (fieldAt bs 27 1))]

/-- A tune field is present (section 11.2.2). -/
def tunePresent (bs : List Byte) (off : Nat) : Bool := fieldAt bs off 1 = 1

/-- A present tune field's value, or the value already pending (R140). -/
def tuned {α : Type} (bs : List Byte) (off : Nat) (value : α) (old : Option α) : Option α :=
  if tunePresent bs off then some value else old

/-- The pending tune set after a Tune Profile, its three clamped fields clamped (R140). -/
def tuneAdd (bs : List Byte) (p : Profile) (t : TuneSet) : TuneSet where
  race := tuned bs 0 (fieldAt bs 1 1 = 1 : Bool) t.race
  raceMargin := tuned bs 2 (min 16 (fieldAt bs 3 1)) t.raceMargin
  tear := tuned bs 4 (if fieldAt bs 5 1 = 1 then .splice else .sync) t.tear
  spliceLimit := tuned bs 6 (min (p.strips - 1) (fieldAt bs 7 2)) t.spliceLimit
  holdTimeout := tuned bs 9 (min 10000 (fieldAt bs 10 2)) t.holdTimeout
  blankColour := tuned bs 12 (toColour (fieldThree bs 13)) t.blankColour
  mask := tuned bs 19 (toMask (fieldThree bs 20)) t.mask
  lut := tuned bs 26 (fieldAt bs 27 1 = 1 : Bool) t.lut

/-- The clamped set of the reply: bit 0 race_margin, bit 1 splice_limit, bit 2 hold_timeout (R140, section 11.2). -/
def clampedSet (bs : List Byte) (p : Profile) : Byte :=
  flagByte (tunePresent bs 2 && decide (16 < fieldAt bs 3 1))
    ||| (flagByte (tunePresent bs 6 && decide (p.strips - 1 < fieldAt bs 7 2)) <<< 1)
    ||| (flagByte (tunePresent bs 9 && decide (10000 < fieldAt bs 10 2)) <<< 2)

/-- Tune Profile's own checks and effects (R140). -/
def tuneProfile (r : Request) (s : State) : State :=
  match s.pc.active with
  | none => answer r .noProfile s
  | some p =>
    match firstFailure (tuneChecks r.payload) with
    | some c => answerField r c.status c.field s
    | none => answerWith r [clampedSet r.payload p] (s.setPc { s.pc with tune := tuneAdd r.payload p s.pc.tune })

/-- TUNE_PROFILE (R140). -/
def execTuneProfile (s : State) : Result := execRequest 0x15 (sequenceCheck tuneProfile) s

/-- Get Profile (R143). -/
def getProfile (r : Request) (s : State) : State :=
  match s.pc.active with
  | some p => answerWith r p.bytes s
  | none => answer r .noProfile s

/-- GET_PROFILE (R143). -/
def execGetProfile (s : State) : Result := execRequest 0x16 getProfile s

/-- Pipeline Reset (R87). -/
def pipelineReset (r : Request) (s : State) : State :=
  match s.pc.active with
  | none => answer r .ok s
  | some _ =>
    if s.otg.pendingReset then answer r .busy s
    else
      let s := deferReply .pipelineReset r.tag (acceptReset s)
      if s.otg.timing = .scan then s.setOtg { s.otg with pendingReset := true } else resetPoint s

/-- PIPELINE_RESET (R87). -/
def execPipelineReset (s : State) : Result := execRequest 0x51 pipelineReset s

end Sys2Proof.Machine
end

