-- ==== Sys2Proof/Machine/ColourCmds.lean ====
section
/-! DEFINITION. The executions of the table requests (section 6.6). -/

namespace Sys2Proof.Machine

/-- The value at place `i` of a LUT Write, above 4095 stored as 4095 (R121). -/
def lutValue (bs : List Byte) (i : Nat) : BitVec 12 := BitVec.ofNat 12 (min 4095 (fieldAt bs (4 + 2 * i) 2))

/-- The entry that group `g` of three values spells (R121). -/
def lutGroup (bs : List Byte) (g : Nat) : Colour :=
  ⟨lutValue bs (3 * g), lutValue bs (3 * g + 1), lutValue bs (3 * g + 2)⟩

/-- The number of entries a LUT Write writes (R121). -/
def lutWritten (start n : Nat) : Nat := min (n / 3) (bankSize - start)

/-- A bank with the groups of a LUT Write written from `start` (R121). -/
def writeBank (bs : List Byte) (start count : Nat) (bank : List Colour) : List Colour :=
  bank.mapIdx fun i e => if start ≤ i ∧ i < start + count then lutGroup bs (i - start) else e

/-- LUT Write's own checks and effects (R121). -/
def lutWrite (r : Request) (s : State) : State :=
  let start := fieldAt r.payload 0 2
  let n := fieldAt r.payload 2 2
  if s.cs.shadowPending then answer r .conflict s
  else if 256 < start then answerField r .badField 1 s
  else if n = 0 ∨ 771 < n then answerField r .badField 2 s
  else
    let m := lutWritten start n
    answerWith r (leBytes 2 m) (s.setCs { s.cs with shadow := writeBank r.payload start m s.cs.shadow })

/-- LUT_WRITE (R121). -/
def execLutWrite (s : State) : Result := execRequest 0x20 (sequenceCheck lutWrite) s

/-- LUT Commit's own checks and effects (R122). -/
def lutCommit (r : Request) (s : State) : State :=
  if s.cs.shadowPending then answer r .busy s
  else if s.otg.timing = .idle then answer r .ok (s.setCs s.cs.exchanged)
  else deferReply .lutCommit r.tag (s.setCs { s.cs with shadowPending := true })

/-- LUT_COMMIT (R122). -/
def execLutCommit (s : State) : Result := execRequest 0x21 (sequenceCheck lutCommit) s

/-- LUT Read (R124). -/
def lutRead (r : Request) (s : State) : State :=
  let sel := fieldAt r.payload 0 1
  let start := fieldAt r.payload 1 2
  let count := fieldAt r.payload 3 2
  if 1 < sel then answerField r .badField 1 s
  else if 256 < start then answerField r .badField 2 s
  else if 257 < count then answerField r .badField 3 s
  else
    let bank := if sel = 0 then s.cs.active else s.cs.shadow
    let m := min count (bankSize - start)
    answerWith r (leBytes 2 start ++ leBytes 2 m ++ (((bank.drop start).take m).map colourBytes).flatten) s

/-- LUT_READ (R124). -/
def execLutRead (s : State) : Result := execRequest 0x22 lutRead s

end Sys2Proof.Machine
end

