-- ==== Sys2Proof/Machine/Due.lean ====
section
/-! DEFINITION. What the part does on an empty queue: a due event of its own enters the queue, or a tick of the time base passes (R50; Log 1, Log 2). -/

namespace Sys2Proof.Machine

/-- The request row that executes a request (R166, section 11.2). -/
def requestRow (r : Request) : Instr :=
  if r.refusal.isSome then .requestRefused
  else
    match r.type.toNat with
    | 0x01 => .getIdentity
    | 0x02 => .getStatus
    | 0x03 => .setNotices
    | 0x10 => .setPanelLimits
    | 0x11 => .proposeProfile
    | 0x12 => .confirmProfile
    | 0x13 => .withdrawProfile
    | 0x14 => .clearFault
    | 0x15 => .tuneProfile
    | 0x16 => .getProfile
    | 0x20 => .lutWrite
    | 0x21 => .lutCommit
    | 0x22 => .lutRead
    | 0x30 => .setFilter
    | 0x31 => .readCapture
    | 0x40 => .readHistory
    | 0x50 => .reattachSource
    | 0x51 => .pipelineReset
    | _ => .requestRefused

/-- The part's own events and whether each is due. -/
def ownEvents (s : State) : List (Bool × Instr) :=
  [(tminDue s, .tminExpiry), (repeatDue s, .repeatTimerExpiry), (fixedDue s, .fixedTimerExpiry),
   (stripDue s, .stripRead), (scanEndDue s, .scanEnd), (gapDue s, .gapEvent),
   (replySentDue s, .replySent), (noticeSentDue s, .noticeSent),
   (deferredDue s, .deferredReply), (overrunDue s, .overrunReply)]

/-- The execution that the arbiter grants (R166). -/
def grantedRow (s : State) : List Instr := (s.granted.map requestRow).toList

/-- The events of the part's own that are due at this moment; none while RESET_N holds the part (R161). -/
def dueEvents (s : State) : List Instr :=
  if s.resetAsserted then []
  else ((ownEvents s).filter Prod.fst).map Prod.snd ++ grantedRow s

/-- One tick of the time base, which stays where it is while RESET_N is asserted (R50). No sample is of the new moment yet
(Log 37). -/
def tick (s : State) : State :=
  if s.resetAsserted then s
  else (s.setTimeBase (s.now + 1)).setPu { s.pu with sampledNow := false, filledNow := false }

/-- A step on an empty queue: a tick when nothing is due, otherwise one due event enters the queue; with several due, a
free choice says which (Log 1, Log 2). -/
def idleStep (s : State) : State :=
  match dueEvents s with
  | [] => tick s
  | [c] => s.setPending [c]
  | c :: c' :: cs =>
    let all := c :: c' :: cs
    (s.setPending [all.getD (Config.dueChoice s.choices % all.length) c]).setChoices (s.choices + 1)

end Sys2Proof.Machine
end

