-- ==== Sys2Proof/Machine/Dispatch.lean ====
section
/-! DEFINITION. One arm per command: each calls the meaning of its row. -/

namespace Sys2Proof.Machine

def exec (i : Instr) (s : State) : Host.Outcome State Fault Refusal :=
  match i with
  | .powerOnReset => Sys2Proof.Machine.execPowerOnReset s
  | .resetNRelease => Sys2Proof.Machine.execResetNRelease s
  | .frameStart => Sys2Proof.Machine.execFrameStart s
  | .line symErr pixels => Sys2Proof.Machine.execLine symErr pixels s
  | .frameEnd => Sys2Proof.Machine.execFrameEnd s
  | .packet ptype version payload => Sys2Proof.Machine.execPacket ptype version payload s
  | .signalLost => Sys2Proof.Machine.execSignalLost s
  | .signalRestored => Sys2Proof.Machine.execSignalRestored s
  | .tminExpiry => Sys2Proof.Machine.execTminExpiry s
  | .repeatTimerExpiry => Sys2Proof.Machine.execRepeatTimerExpiry s
  | .fixedTimerExpiry => Sys2Proof.Machine.execFixedTimerExpiry s
  | .stripRead => Sys2Proof.Machine.execStripRead s
  | .scanEnd => Sys2Proof.Machine.execScanEnd s
  | .gapEvent => Sys2Proof.Machine.execGapEvent s
  | .breakEvent => Sys2Proof.Machine.execBreak s
  | .messageReceived b => Sys2Proof.Machine.execMessageReceived b s
  | .overrunReply => Sys2Proof.Machine.execOverrunReply s
  | .deferredReply => Sys2Proof.Machine.execDeferredReply s
  | .requestRefused => Sys2Proof.Machine.execRequestRefused s
  | .replySent => Sys2Proof.Machine.execReplySent s
  | .noticeSent => Sys2Proof.Machine.execNoticeSent s
  | .getIdentity => Sys2Proof.Machine.execGetIdentity s
  | .getStatus => Sys2Proof.Machine.execGetStatus s
  | .setNotices => Sys2Proof.Machine.execSetNotices s
  | .setPanelLimits => Sys2Proof.Machine.execSetPanelLimits s
  | .proposeProfile => Sys2Proof.Machine.execProposeProfile s
  | .confirmProfile => Sys2Proof.Machine.execConfirmProfile s
  | .withdrawProfile => Sys2Proof.Machine.execWithdrawProfile s
  | .clearFault => Sys2Proof.Machine.execClearFault s
  | .tuneProfile => Sys2Proof.Machine.execTuneProfile s
  | .getProfile => Sys2Proof.Machine.execGetProfile s
  | .lutWrite => Sys2Proof.Machine.execLutWrite s
  | .lutCommit => Sys2Proof.Machine.execLutCommit s
  | .lutRead => Sys2Proof.Machine.execLutRead s
  | .setFilter => Sys2Proof.Machine.execSetFilter s
  | .readCapture => Sys2Proof.Machine.execReadCapture s
  | .readHistory => Sys2Proof.Machine.execReadHistory s
  | .reattachSource => Sys2Proof.Machine.execReattachSource s
  | .pipelineReset => Sys2Proof.Machine.execPipelineReset s
  | .byteReceived b => Sys2Proof.Machine.execByteReceived b s

end Sys2Proof.Machine
end

