-- ==== Sys2Proof/Safety.lean ====
section
/-! DEFINITION. What counts as a sound state of the part, as predicates of one state; and, for the statements, what the rules
say an event leaves, as relations between two states, and the byte layouts of chapter 11, field by field. -/

namespace Sys2Proof.Machine

/-- The part runs: RESET_N is not asserted (R161). -/
def State.running (s : State) : Prop := s.resetAsserted = false

/-- The score lies in the band of the source state; UNARMED has score 0 (R36, R43). -/
def State.bandHolds (s : State) : Prop :=
  match s.sp.state with
  | .unarmed => s.sp.score = 0
  | .clean => s.sp.score ≤ 31
  | .watch => 32 ≤ s.sp.score ∧ s.sp.score ≤ 63
  | .guarded => 64 ≤ s.sp.score ∧ s.sp.score ≤ 127
  | .detached => 128 ≤ s.sp.score ∧ s.sp.score ≤ 255

/-- Each number is one more than the one before it, modulo 2^32 (R153). -/
def consecutive : List FrameNo → Prop
  | [] => True
  | [_] => True
  | a :: b :: t => b = a + 1 ∧ consecutive (b :: t)

/-- The ring holds at most 32 records with consecutive frame numbers, the newest of them the frame counter
(R153, R154). -/
def State.ringHolds (s : State) : Prop :=
  s.hr.length ≤ 32 ∧ consecutive (s.hr.map FrameRec.frameNo) ∧
    ∀ r, s.hr.getLast? = some r → r.frameNo = s.sp.frameCounter

/-- The relations of R131 that every validated record satisfies, with the ranges of R130 that the arithmetic reads. -/
def Profile.meets (p : Profile) (l : Limits) : Prop :=
  l.tminAbs ≤ p.winMin ∧ p.winMin ≤ p.winMax ∧ p.winMax ≤ l.tmaxAbs ∧ l.scanMin ≤ p.scanTime ∧
    p.scanTime + l.blankMin ≤ p.winMin ∧
    (p.pacing = .fixed → p.winMin ≤ p.fixedInterval ∧ p.fixedInterval ≤ p.winMax) ∧
    (p.repeatPlan = true → 2 * p.winMin ≤ p.winMax) ∧
    480 ≤ p.height ∧ p.height ≤ 2160 ∧ p.height % 8 = 0 ∧ 640 ≤ p.width ∧ p.width ≤ 3840 ∧
    (p.pacing = .adaptive → p.fixedInterval = 0 ∧ p.lock = false) ∧ (p.pacing = .fixed → p.repeatPlan = false) ∧
    1 ≤ p.scanTime

/-- The profile controller's standing conditions: a proposal exactly out of NONE (R127), the active profile and the
proposal within the set limits (R131, R132), never FAULTED and HELD (R134), a pending application exactly in CONFIRMED
(R136), and no profile exactly in UNARMED and in IDLE, with nothing pending and nothing tuned (R68, R127, R142);
an application or a reset waits only in SCAN (R85, R88). -/
def State.profileHolds (s : State) : Prop :=
  (s.pc.propState = .none ↔ s.pc.proposal = none) ∧
    (∀ p, s.pc.active = some p → ∃ l, s.pc.limits = some l ∧ p.meets l) ∧
    (∀ p, s.pc.proposal = some p → ∃ l, s.pc.limits = some l ∧ p.meets l) ∧
    ¬ (s.pc.propState = .held ∧ s.pc.faulted = true) ∧
    (s.otg.pendingApp = true ↔ s.pc.propState = .confirmed) ∧
    (s.pc.active = none ↔ s.sp.state = .unarmed) ∧ (s.pc.active = none ↔ s.otg.timing = .idle) ∧
    (s.pc.active = none → s.otg.pendingReset = false ∧ s.pc.tune = TuneSet.empty) ∧
    (s.otg.pendingApp = true ∨ s.otg.pendingReset = true → s.otg.timing = .scan)

/-- The detach time is present exactly while the source is DETACHED (R90). -/
def State.detachHolds (s : State) : Prop := s.sp.state = .detached ↔ s.ps.detachTime.isSome = true

/-- A filling slot exists only while a taken frame is in progress under an attached source (R27, R37). -/
def State.fillingHolds (s : State) : Prop :=
  s.pool.filling.isSome = true → s.sp.cond = .taken ∧ s.sp.state.attached = true

/-- The marker and list conditions of the slot pool: a slot that no marker designates holds the free values; the filling
slot is the one FILLING slot; the ready slot is COMPLETE and marked, and shares with neither held nor on-screen; the held
slot is COMPLETE; no ready frame waits while the screen races the filling frame; the list is the ready slot, then the
filling slot unless it is on screen (R4, R8, R11, R13, R15). -/
def SlotPool.rolesHold (p : SlotPool) : Prop :=
  (∀ k, p.isFree k = true → p.slot k = SlotRec.free) ∧
    (∀ k, (p.slot k).fill = .filling ↔ p.filling = some k) ∧
    (∀ k, p.ready = some k →
      (p.slot k).fill = .complete ∧ (p.slot k).eligible = true ∧ p.held ≠ some k ∧ p.onScreen ≠ some k) ∧
    (∀ k, p.held = some k → (p.slot k).fill = .complete) ∧
    (∀ k, p.onScreen = some k → (p.slot k).fill ≠ .empty ∧ (p.filling = some k → p.ready = none)) ∧
    p.cands = p.ready.toList ++ (if p.onScreen = p.filling then [] else p.filling.toList)

/-- The roles hold, and outside SCAN no slot is on screen and the splice watch is closed (R4, R17, R103). -/
def State.poolHolds (s : State) : Prop :=
  s.pool.rolesHold ∧ (s.otg.timing ≠ .scan → s.pool.onScreen = none ∧ s.ps.watchOpen = false)

/-- The link's capacities, and its notices: a reply under transmission is in the queue; a pending copy is of an enabled
kind, carries that kind's content and a count from 1 to 255 (R161, R165, R166, R168, R169, R170). -/
def State.linkHolds (s : State) : Prop :=
  s.ml.slots.length ≤ 2 ∧ s.ml.replies.length ≤ 4 ∧ (∀ t, s.ml.tx = .reply t → s.ml.replies ≠ []) ∧
    ∀ (i : Fin 5) (c : NoticeMsg), s.ml.notices[i] = some c →
      s.ml.enables[i] = true ∧ c.content.kind = i ∧ 1 ≤ c.count ∧ c.count ≤ 255

/-- A deferred-reply record waits exactly while its operation is pending, and the completed records are the ones in the
order of completion, each once (R85, R88, R120, R167). -/
def State.deferredHolds (s : State) : Prop :=
  ((∃ tag, s.ml.defProfile = .waiting tag) ↔ s.otg.pendingApp = true) ∧
    ((∃ tag, s.ml.defLut = .waiting tag) ↔ s.cs.shadowPending = true) ∧
    ((∃ tag, s.ml.defReset = .waiting tag) ↔ s.otg.pendingReset = true) ∧
    (∀ k, k ∈ s.ml.doneOrder ↔ ∃ tag st, s.ml.deferred k = .completed tag st) ∧ s.ml.doneOrder.Nodup

/-- Both banks hold 257 entries (R119). -/
def State.banksHold (s : State) : Prop := s.cs.active.length = 257 ∧ s.cs.shadow.length = 257

/-- A present capture record belongs to an enabled entry and holds at most 28 payload bytes (R146, R147). -/
def State.filterHolds (s : State) : Prop :=
  ∀ (i : Fin 4) (c : Capture), s.pf.captures[i] = some c → s.pf.entries[i].enabled = true ∧ c.payload.length ≤ 28

/-- The pacing results are those of the windows and the active profile, and the three copies of Q agree
(R52 to R59, R65, R91). -/
def State.pacingHolds (s : State) : Prop :=
  s.pu.intervals.length ≤ 4 ∧ s.pu.fills.length ≤ 4 ∧ s.pu.ti = averageInterval s.pu.intervals ∧
    s.pu.fi = averageFill s.pu.fills ∧ s.pu.q = computeQ s.pc.active s.pu.fi ∧ s.pu.lastQ = s.pu.q ∧
    s.pool.q = s.pu.q ∧ s.ps.q = s.pu.q ∧
    (s.pu.planActive, s.pu.k, s.pu.tr) = planOf s.pc.active s.pu.ti ∧
    s.pu.admitted = admissionHolds s.pc.active s.pu.ti

/-- The lock is out of FREE_RUN only under FIXED pacing with lock on, an admitted rate and a source in CLEAN or WATCH; the
next fixed interval lies in the window of a FIXED profile, is Tf in FREE_RUN, and is 0 under ADAPTIVE (R63, R81, R83). -/
def State.lockHolds (s : State) : Prop :=
  (s.otg.lock ≠ .freeRun → ∃ p, s.pc.active = some p ∧ p.pacing = .fixed ∧ p.lock = true ∧ s.pu.admitted = true ∧
      s.sp.state.healthy = true) ∧
    ∀ p, s.pc.active = some p →
      (p.pacing = .fixed → p.winMin ≤ s.pu.nextFixed ∧ s.pu.nextFixed ≤ p.winMax ∧
        (s.otg.lock = .freeRun → s.pu.nextFixed = p.fixedInterval)) ∧
      (p.pacing = .adaptive → s.pu.nextFixed = 0)

/-- The arbiter executes this request now, it is of this type, and its entry code and length let it reach the block that
owns the type (R166). -/
def State.serves (s : State) (type : Nat) (r : Request) : Prop :=
  s.running ∧ s.granted = some r ∧ r.type.toNat = type ∧ r.refusal = none

/-- The sequence check lets a configuration request through: no proposal is HELD and there is no fault (R133). -/
def State.passesCheck (s : State) : Prop := s.pc.propState ≠ .held ∧ s.pc.faulted = false

/-- The oldest request has left its slot and a reply has entered the queue as its newest (R166). -/
def State.answered (s : State) (rep : Reply) : State :=
  { s with ml := { s.ml with slots := s.ml.slots.drop 1, replies := s.ml.replies ++ [rep] } }

/-- A request or a message has entered a free request slot, or has overrun into the marker (R165). -/
def State.received (s : State) (r : Request) : State :=
  if s.ml.slots.length < 2 then { s with ml := { s.ml with slots := s.ml.slots ++ [r] } }
  else { s with ml := { s.ml with overrun := some r.tag } }

/-- Bytes arrive one after the other, with no other event between them. -/
def State.feed (s : State) : List Byte → Result
  | [] => .next s
  | b :: t =>
    match exec (.byteReceived b) s with
    | .next s' => s'.feed t
    | .fault f => .fault f
    | .refused r => .refused r

/-- The notice has been raised on what `s` had of its kind, and is pending or already under transmission in `t`: a new copy
has count 1, a pending one takes the new content and one more, at most 255; nothing when its kind is disabled (R168, R169). -/
def State.noticed (s t : State) (n : Notice) : Prop :=
  s.ml.enables[n.kind] = true →
    let count :=
      match s.ml.notices[n.kind] with
      | none => 1
      | some c => min 255 (c.count + 1)
    t.ml.notices[n.kind] = some ⟨n, count⟩ ∨ t.ml.tx = .notice ⟨n, count⟩ s.timeBase

/-- The lock after an event that drops it or does not: out of ACQUIRE or TRACK a drop takes it to FREE_RUN with both counts
at 0, the next fixed interval at Tf under FIXED pacing, and a LOCK_STATE notice; otherwise all of this stays
(R63, R64, R83, R84). -/
def State.lockDrops (s t : State) (drop : Prop) : Prop :=
  (drop → s.otg.lock ≠ .freeRun →
    t.otg.lock = .freeRun ∧ t.pu.good = 0 ∧ t.pu.bad = 0 ∧
      t.pu.nextFixed = (if s.prof.pacing = .fixed then s.prof.fixedInterval else s.pu.nextFixed) ∧
      s.noticed t (.lockState .freeRun)) ∧
    (¬ drop ∨ s.otg.lock = .freeRun →
      t.otg.lock = s.otg.lock ∧ t.pu.good = s.pu.good ∧ t.pu.bad = s.pu.bad ∧ t.pu.nextFixed = s.pu.nextFixed)

/-- The ring of `s` after fates have been reported, in order, for the frames in some slots: a PENDING record takes the first
fate reported for its frame (R158). -/
def State.fateRing (s : State) (reports : List (Slot × Fate)) : List FrameRec :=
  s.hr.map fun r =>
    match r.fate, reports.find? (fun x => (s.slot x.1).frameNo = some r.frameNo) with
    | .pending, some x => { r with fate := x.2 }
    | _, _ => r

/-- A ring after a close report on the frame in progress: its bad strips and truncated flag (R155). -/
def State.closeRing (s : State) (bad : Nat) (truncated : Bool) (ring : List FrameRec) : List FrameRec :=
  ring.map fun r => if r.frameNo = s.sp.frameCounter then { r with bad := bad, truncated := truncated } else r

/-- The bad strips of the filling frame (R1). -/
def State.badSoFar (s : State) : Nat :=
  match s.pool.filling with
  | some k => (s.slot k).bad
  | none => 0

/-- The ring after the close of the frame in progress that Signal Lost or a change of geometry brings about: a TAKEN frame
with the bad strips of its slot, a FOREIGN one with those its slot had when it became foreign (R38, R44; Log 16). -/
def State.cutRing (s : State) (ring : List FrameRec) : List FrameRec :=
  match s.sp.cond with
  | .taken => s.closeRing s.badSoFar false ring
  | .foreign => s.closeRing s.sp.closeBad false ring
  | .none | .observed | .ignored => ring

/-- The fate of a slot freed out of ABORTED: SHOWN if it was shown from strip 0, PARTIAL if it was shown at all, else
ERROR_DROPPED (R5). -/
def SlotRec.fateAborted (r : SlotRec) : Fate :=
  if r.shownTop = true then .shown else if r.presented = true then .partShown else .errorDropped

/-- The ring after the filling frame has been aborted: a slot off the screen is freed with its fate (R5, R6, R10). -/
def State.abortRing (s : State) : List FrameRec :=
  match s.pool.filling with
  | none => s.hr
  | some k => if s.pool.onScreen = some k then s.hr else s.fateRing [(k, (s.slot k).fateAborted)]

/-- A slot once the filling frame has been aborted: the frame's own is ABORTED while it is on screen, with the truncated
flag given, and is free otherwise; another is as it was (R5, R6, R10). -/
def State.slotAborted (s : State) (truncated : Bool) (k : Slot) : SlotRec :=
  if s.pool.filling ≠ some k then s.slot k
  else if s.pool.onScreen = some k then { s.slot k with fill := .aborted, truncated := truncated }
  else SlotRec.free

/-- The plan count and the repeat timer once new plan values have been handed over: with the plan active the count is held
to k - 1, and a run that loses its plan ends with the backstop loaded, t_last + Tmax (R77). -/
def OutputTiming.planTaken (o : OutputTiming) (p : Profile) (active : Bool) (k : Nat) : Nat × Timer :=
  if active = true then (min o.planCount (k - 1), o.repeatTimer)
  else if 0 < o.planCount then (0, .running (plusTicks o.tLast p.winMax))
  else (o.planCount, o.repeatTimer)

/-- The interval window of `t` is new: Ti, the repeat plan and the admission result are those of it, and the generator has
taken the plan values (R53, R58, R65, R77). -/
def State.intervalsTaken (s t : State) : Prop :=
  t.pu.ti = (if t.pu.intervals.length = 4 then some (t.pu.intervals.sum / 4) else none) ∧
    (t.pu.planActive, t.pu.k, t.pu.tr) = planOf s.pc.active t.pu.ti ∧
    (t.pu.admitted = true ↔ ∃ p ti, s.pc.active = some p ∧ t.pu.ti = some ti ∧ p.pacing = .fixed ∧ p.lock = true ∧
      ((ti : Int) - p.fixedInterval).natAbs ≤ p.fixedInterval / 256) ∧
    (t.otg.planCount, t.otg.repeatTimer) = s.otg.planTaken s.prof t.pu.planActive t.pu.k

/-- The interval window after a taken Frame Start: no sample without a reference or with a foreign one, a sample of at most
16,777,216 ticks entered as the newest of four, and the window emptied by a larger one (R46, R52). -/
def State.sampledWindow (s : State) : List Nat :=
  match s.sp.prevRef with
  | none => s.pu.intervals
  | some ref =>
    if ref.foreign = true then s.pu.intervals
    else if elapsed s.timeBase ref.time ≤ 16777216 then
      (if s.pu.intervals.length < 4 then s.pu.intervals else s.pu.intervals.drop 1) ++ [elapsed s.timeBase ref.time]
    else []

/-- A taken Frame Start forms an interval sample (R46). -/
def State.samples (s : State) : Prop := ∃ ref, s.sp.prevRef = some ref ∧ ref.foreign = false

/-- The candidates older than `k`, which leave the list replaced when `k` is taken (R15, R19). -/
def State.olderReplaced (s : State) (k : Slot) : List (Slot × Fate) :=
  (s.pool.cands.takeWhile (· ≠ k)).map fun j => (j, .replaced)

/-- A ring after a presentation of the frame in slot `k` at a refresh start: the count up to 255, the first presentation as
REFRESH with its time, and the latency at the first presentation from strip 0 (R97, R156). -/
def State.refreshRing (s : State) (k : Slot) (ring : List FrameRec) : List FrameRec :=
  ring.map fun r =>
    if (s.slot k).frameNo = some r.frameNo then
      { r with
        count := min 255 (r.count + 1)
        first := if (s.slot k).presented = true then r.first else some (.refresh s.timeBase)
        latency := if (s.slot k).shownTop = true then r.latency else some (s.timeBase - r.firstLine) }
    else r

/-- A ring after a presentation of the frame in slot `n` by a splice at strip `j`: the count up to 255 and the first
presentation as SPLICE with its time and entry strip; no latency (R106, R156). -/
def State.spliceRing (s : State) (n : Slot) (j : Nat) (ring : List FrameRec) : List FrameRec :=
  ring.map fun r =>
    if (s.slot n).frameNo = some r.frameNo then
      { r with
        count := min 255 (r.count + 1)
        first := if (s.slot n).presented = true then r.first else some (.splice s.timeBase j) }
    else r

/-- The pool after the candidate in slot `k` has gone on screen with the record `shown`: every older entry of the list is
freed, its markers with it, the slot leaves the list and the ready marker, newer entries stay in place, and every other
slot and marker is as it was (R5, R15, R19). -/
def SlotPool.toScreen (p : SlotPool) (k : Slot) (shown : SlotRec) : SlotPool :=
  let older := p.cands.takeWhile (· ≠ k)
  let stays := fun j : Slot => decide (j ∉ older)
  { p with
    slots := Vector.ofFn fun j => if j = k then shown else if j ∈ older then SlotRec.free else p.slot j
    cands := p.cands.filter fun j => decide (j ≠ k) && stays j
    filling := p.filling.filter stays
    ready := p.ready.filter fun j => decide (j ≠ k) && stays j
    held := p.held.filter stays
    onScreen := some k }

/-- The pool after a refresh start that finds `s`: the newest eligible candidate on screen, the held slot on screen with no
other marker and no list entry changed, or, in a BLANK refresh, the pool as it was (R15, R16, R92 to R96). -/
def State.shownPool (s : State) : SlotPool :=
  let shown := fun k : Slot => { s.slot k with presented := true, shownTop := true }
  if s.holdExpired = true then s.pool
  else
    match s.newestEligible, s.pool.held with
    | some k, _ => s.pool.toScreen k (shown k)
    | none, some k => { s.pool.setSlot k (shown k) with onScreen := some k }
    | none, none => s.pool

/-- What a refresh start that finds `s` shows in `t`: the blank colour under the hold, with OUTPUT_BLANK at the first such
refresh, the newest eligible candidate, the held frame, or the blank colour; and the ring after it (R92 to R97, R156). What
it makes of the pool is `State.shownPool`. -/
def State.choiceShown (s t : State) : Prop :=
  let shows := fun kind : RefreshKind => { s.ps with lastKind := some kind, q := t.ps.q }
  if s.holdExpired = true then
    t.ps = { shows .blank with blankActive := true } ∧ t.hr = s.hr ∧
      ∀ d, s.ps.detachTime = some d → s.ps.blankActive = false → s.noticed t (.outputBlank d s.timeBase)
  else
    match s.newestEligible, s.pool.held with
    | some k, _ => t.ps = shows .new ∧ t.hr = s.refreshRing k (s.fateRing (s.olderReplaced k))
    | none, some k => t.ps = shows .repeated ∧ t.hr = s.refreshRing k s.hr
    | none, none => t.ps = shows .blank ∧ t.hr = s.hr

/-- A refresh start moves the lock from FREE_RUN to ACQUIRE: FIXED pacing with lock on, an admitted rate, a source in CLEAN
or WATCH (R81). -/
abbrev State.acquires (s : State) : Prop :=
  s.otg.lock = .freeRun ∧ s.prof.pacing = .fixed ∧ s.prof.lock = true ∧ s.pu.admitted = true ∧ s.sp.state.healthy = true

/-- The pacing unit's share of an eligibility event: when the measurement is armed and the lock is out of FREE_RUN under
FIXED pacing with lock on, the phase is measured once, the next fixed interval is Ti with the correction held to its
bounds, and the measurement counts: in ACQUIRE the eighth good one in a row moves the lock to TRACK, in TRACK the third bad
one in a row moves it to ACQUIRE, each with both counts at 0 and a LOCK_STATE notice (R60 to R64, R82, R84; with Ti
undefined the interval stays, Log 32). -/
def State.measured (s : State) : State :=
  if s.prof.pacing = .fixed ∧ s.prof.lock = true ∧ s.otg.lock ≠ .freeRun ∧ s.pu.armed = true then
    let d := phaseError s.prof (elapsed s.timeBase s.otg.tLast)
    let next :=
      match s.pu.ti with
      | some ti => clampFixed s.prof (ti + correction s.prof s.otg.lock d)
      | none => s.pu.nextFixed
    let good := if d.natAbs ≤ s.prof.fixedInterval / 512 then s.pu.good + 1 else 0
    let bad := if s.prof.fixedInterval / 128 < d.natAbs then s.pu.bad + 1 else 0
    let moved := fun l => raise (.lockState l) { s with
      otg := { s.otg with lock := l }
      pu := { s.pu with armed := false, nextFixed := next, good := 0, bad := 0 } }
    match s.otg.lock with
    | .acquire =>
      if good = 8 then moved .track else { s with pu := { s.pu with armed := false, nextFixed := next, good := good } }
    | .track =>
      if bad = 3 then moved .acquire else { s with pu := { s.pu with armed := false, nextFixed := next, bad := bad } }
    | .freeRun => s
  else s

/-- The lock and the phase measurement as a refresh start leaves them: the move to ACQUIRE with its counts at 0; under FIXED
pacing with lock on the measurement is armed at this moment, and out of FREE_RUN the next fixed interval is Ti held to its
bounds (R60, R63, R81; with Ti undefined it stays, Log 32). -/
def State.armedAs (s : State) : State :=
  let lock := if s.acquires then .acquire else s.otg.lock
  { s with
    otg := { s.otg with lock := lock, tLast := s.timeBase }
    pu := { s.pu with
      good := if s.acquires then 0 else s.pu.good
      bad := if s.acquires then 0 else s.pu.bad
      armed := if s.prof.pacing = .fixed ∧ s.prof.lock = true then true else s.pu.armed
      nextFixed :=
        if s.prof.pacing = .fixed ∧ s.prof.lock = true ∧ lock ≠ .freeRun then
          match s.pu.ti with
          | some ti => clampFixed s.prof ti
          | none => s.pu.nextFixed
        else s.pu.nextFixed } }

/-- The lock and the phase measurement of `t` are those of `u`, and a change of the lock since `s` has its notice (R84). -/
def State.lockAs (s u t : State) : Prop :=
  t.otg.lock = u.otg.lock ∧ t.pu.good = u.pu.good ∧ t.pu.bad = u.pu.bad ∧ t.pu.armed = u.pu.armed ∧
    t.pu.nextFixed = u.pu.nextFixed ∧ (u.otg.lock ≠ s.otg.lock → s.noticed t (.lockState u.otg.lock))

/-- Under FIXED pacing the fixed timer has been loaded with `next` at the moment of `s` (R79). -/
def State.fixedLoaded (s : State) (next : Nat) (t : State) : Prop :=
  s.otg.mode = some .fixed → t.otg.fixedTimer = .running (plusTicks s.timeBase next)

/-- A refresh start from `s` that no eligibility event meets has been taken by the lock and the pacing unit: under FIXED
pacing the timer loads the next fixed interval as it stood, and the measurement is armed (R60, R63, R79, R81). -/
def State.startTaken (s t : State) : Prop := s.lockAs s.armedAs t ∧ s.fixedLoaded s.pu.nextFixed t

/-- A refresh start from `s` that an eligibility event meets: taken first, the event is the measurement of the interval that
ends and sets what the timer loads; taken after the refresh start, it is that of the new interval, at phase 0 (R60; that
the order is free at the refresh start's own publication is Log 11). -/
def State.startMet (s t : State) : Prop :=
  s.lockAs s.measured.armedAs t ∧ s.fixedLoaded s.measured.pu.nextFixed t ∨
    s.lockAs s.armedAs.measured t ∧ s.fixedLoaded s.pu.nextFixed t

/-- A refresh has begun from `s`: SCAN from this moment at strip 0, the exchange of the banks if a commit is pending, and
nothing at the source port, in the packet filter and in the strip store (R70, R92, R123). -/
def State.refreshBegun (s t : State) : Prop :=
  t.otg.timing = .scan ∧ t.otg.tLast = s.timeBase ∧ t.otg.nextStrip = 0 ∧ t.otg.minPassed = false ∧
    t.otg.mode = s.otg.mode ∧ t.otg.pendingApp = s.otg.pendingApp ∧ t.otg.pendingReset = s.otg.pendingReset ∧
    t.panel = { s.panel with refreshAt := some s.timeBase } ∧
    t.cs = (if s.cs.shadowPending then
      { s.cs with active := s.cs.shadow, shadow := s.cs.active, shadowPending := false } else s.cs) ∧
    t.sp = s.sp ∧ t.pf = s.pf ∧ t.pool.store = s.pool.store ∧ t.timeBase = s.timeBase

/-- A refresh has started from `s` with no tune field pending: the choice is that of `s`, with every slot, marker and list
entry as it leaves them, the lock is tested and the measurement armed by it, and the profile and the pacing results stay
(R15, R16, R60, R63, R70, R79, R81, R92). -/
def State.refreshStarted (s t : State) : Prop :=
  s.refreshBegun t ∧ s.choiceShown t ∧ t.pool = s.shownPool ∧ t.ps.q = s.ps.q ∧ s.startTaken t ∧ t.pc = s.pc ∧
    t.pu = { s.pu with
      armed := t.pu.armed, nextFixed := t.pu.nextFixed, good := t.pu.good, bad := t.pu.bad }

/-- A profile with the present fields of a tune set written into it, splice_limit held to S - 1 (R141). -/
def Profile.withTune (p : Profile) (t : TuneSet) : Profile :=
  { p with
    race := t.race.getD p.race
    raceMargin := t.raceMargin.getD p.raceMargin
    tear := t.tear.getD p.tear
    spliceLimit := (t.spliceLimit.map fun l => min l (p.height / 8 - 1)).getD p.spliceLimit
    holdTimeout := t.holdTimeout.getD p.holdTimeout
    blankColour := t.blankColour.getD p.blankColour
    mask := t.mask.getD p.mask
    lut := t.lut.getD p.lut }

/-- The filling candidate marked eligible if it meets the race test under this Q (R12, R13). -/
def State.marked (s : State) (q : Option Nat) : State :=
  match s.pool.filling with
  | some k =>
    if k ∈ s.pool.cands ∧ (s.slot k).eligible = false ∧ s.prof.race = true ∧ s.sp.state.healthy = true ∧
        q.any (fun n => decide (n ≤ (s.slot k).filled)) = true then
      { s with pool := s.pool.setSlot k { s.slot k with eligible := true } }
    else s
  | none => s

/-- A refresh has started from `s` under profile `p` with tune fields pending: they are merged and the set is empty, Q is
that of the merged profile everywhere, and the choice is that of `s`, of `s` merged, or of `s` merged with the candidate
that a changed Q makes eligible marked, the order being free; where nothing is marked the lock is tested and the measurement
armed as at any refresh, and otherwise the eligibility event meets the refresh start. The pool is as that choice leaves it,
with the candidate that a changed Q makes eligible marked, before the choice or after it (R13, R15, R16, R57, R60, R92, R98,
R141; Log 10, Log 11). -/
def State.refreshMerged (s : State) (p : Profile) (t : State) : Prop :=
  let q := computeQ (some (p.withTune s.pc.tune)) s.pu.fi
  let m := { s with pc := { s.pc with active := some (p.withTune s.pc.tune), tune := TuneSet.empty } }
  let published := fun u : State => if q = s.pu.q then u else u.marked q
  let v := published m
  let poolAfter := fun p : SlotPool => { (published { m with pool := p }).pool with q := q }
  s.refreshBegun t ∧ t.pc = m.pc ∧ t.choices = s.choices + 2 ∧
    t.pu.q = q ∧ t.pu.lastQ = q ∧ t.pool.q = q ∧ t.ps.q = q ∧
    (s.choiceShown t ∧ t.pool = poolAfter s.shownPool ∨ m.choiceShown t ∧ t.pool = poolAfter m.shownPool ∨
      v.choiceShown t ∧ t.pool = { v.shownPool with q := q }) ∧
    (v = m → s.startTaken t) ∧ (v ≠ m → s.startMet t)

/-- The repeat timer and the plan count after an ADAPTIVE refresh start from `s`; `planned` says that a planned repeat
caused it (R72). -/
def State.repeatLoaded (s t : State) (planned : Bool) : Prop :=
  t.otg.keptRepeat = false ∧ t.otg.tminTimer = .running (plusTicks s.timeBase s.prof.winMin) ∧
    if t.ps.lastKind = some .new ∧ s.pu.planActive = true then
      t.otg.planCount = s.pu.k - 1 ∧ t.otg.repeatTimer = .running (plusTicks s.timeBase s.pu.tr)
    else if t.ps.lastKind ≠ some .new ∧ planned = true then
      t.otg.planCount = s.otg.planCount - 1 ∧
        t.otg.repeatTimer = .running (plusTicks s.timeBase (if 1 < s.otg.planCount then s.pu.tr else s.prof.winMax))
    else t.otg.planCount = 0 ∧ t.otg.repeatTimer = .running (plusTicks s.timeBase s.prof.winMax)

/-- What a refresh start from `s` leaves, with or without tune fields pending; `planned` says that a planned repeat caused
it (R70, R72, R141). -/
def State.refreshMade (s t : State) (planned : Bool) : Prop :=
  (s.pc.tune = TuneSet.empty → s.refreshStarted t) ∧
    (s.pc.tune ≠ TuneSet.empty → s.poolHolds → s.pacingHolds → ∀ p, s.pc.active = some p → s.refreshMerged p t) ∧
    (s.otg.mode = some .adaptive → s.repeatLoaded t planned)

/-- A repeat expiry taken in BLANK_OPEN starts a refresh: the Tmax backstop, or a planned repeat that no arriving frame
skips (R75, R76). -/
def State.repeatGoes (s : State) (planned : Bool) : Prop :=
  s.otg.planCount = 0 ∧ planned = false ∨
    0 < s.otg.planCount ∧ planned = true ∧
      ∀ k, s.pool.filling = some k → (s.slot k).filled = 0 ∨ (s.slot k).eligible = true

/-- A frame is eligible and the output is not blanked: entry to BLANK_OPEN starts a refresh (R74, R96). -/
def State.opensOnFrame (s : State) : Prop :=
  (∃ k ∈ s.pool.cands, (s.slot k).eligible = true) ∧ s.ps.blankActive = false

/-- Entry to BLANK_OPEN starts a refresh: an eligible candidate, else a kept repeat expiry that goes (R74, R75, R76). -/
def State.opensWithRefresh (s : State) (planned : Bool) : Prop :=
  s.opensOnFrame ∧ planned = false ∨ ¬ s.opensOnFrame ∧ s.otg.keptRepeat = true ∧ s.repeatGoes planned

/-- The expiries that start a refresh, with whether a planned repeat is the cause: Tmin in BLANK_MIN, the repeat timer in
BLANK_OPEN, the fixed timer in BLANK (R69, R73, R74, R75, R76, R79). -/
def State.expiryStarts (s : State) (c : Instr) (planned : Bool) : Prop :=
  (s.otg.mode = some .adaptive ∧ c = .tminExpiry ∧ tminDue s = true ∧ s.otg.timing = .blankMin ∧
      s.opensWithRefresh planned) ∨
    (s.otg.mode = some .adaptive ∧ c = .repeatTimerExpiry ∧ repeatDue s = true ∧ s.otg.timing = .blankOpen ∧
      s.repeatGoes planned) ∨
    (s.otg.mode = some .fixed ∧ c = .fixedTimerExpiry ∧ fixedDue s = true ∧ s.otg.timing = .blank ∧ planned = false)

/-- The line that fills a strip of the frame in slot `k` and makes it eligible by the race test: the line stored, the counts
up, the mark set (R2, R7, R12, R31). -/
def State.raceStrip (s : State) (k : Slot) (symErr : Bool) (pixels : List Pixel) : State :=
  let err := s.sp.stripErr || symErr || decide (pixels.length ≠ s.prof.width)
  let stored := { s.pool with store := Store.writeLine s.pool.store k s.sp.lineCount s.prof.width pixels }
  { s with
    pool := stored.setSlot k { s.slot k with
      filled := (s.slot k).filled + 1
      bad := if err then (s.slot k).bad + 1 else (s.slot k).bad
      eligible := true }
    sp := { s.sp with lineCount := s.sp.lineCount + 1, stripErr := false } }

/-- The fates reported when the on-screen slot `a` becomes held: the old held frame, if another, is freed SHOWN, then the
frame itself is SHOWN (R18). -/
def State.heldFates (s : State) (a : Slot) : List (Slot × Fate) :=
  (match s.pool.held with
   | some j => if j = a then [] else [(j, .shown)]
   | none => []) ++ [(a, .shown)]

/-- The fates reported when the on-screen slot leaves at a splice (R19). -/
def State.leaveFates (s : State) : List (Slot × Fate) :=
  match s.pool.onScreen with
  | none => []
  | some a =>
    match (s.slot a).fill with
    | .complete => if s.pool.held = some a then [] else s.heldFates a
    | .aborted => [(a, (s.slot a).fateAborted)]
    | .empty | .filling => []

/-- The pool after a splice to candidate `n`: the frame that leaves becomes held if it is COMPLETE, another held slot being
freed, and is freed if it is ABORTED; then the candidate goes on screen with its presented flag, its shown-from-top flag as
it was; every other slot and marker is as it was (R18, R19). -/
def State.splicedPool (s : State) (n : Slot) : SlotPool :=
  let left :=
    match s.pool.onScreen with
    | none => s.pool
    | some a =>
      match (s.slot a).fill with
      | .complete =>
        { (match s.pool.held with
           | some j => if j = a then s.pool else s.pool.setSlot j SlotRec.free
           | none => s.pool) with held := some a }
      | .aborted => s.pool.setSlot a SlotRec.free
      | .empty | .filling => s.pool
  left.toScreen n { s.slot n with presented := true }

/-- A splice has handed the screen to `n` in `t`: the pool is as R19 leaves it, the watch closes, and nothing else is changed
but the ring, the output and the link (R19, R104, R106). -/
def State.splicedTo (s : State) (n : Slot) (t : State) : Prop :=
  t.pool = s.splicedPool n ∧ t.ps = { s.ps with watchOpen := false } ∧
    t.cs = s.cs ∧ t.pc = s.pc ∧ t.sp = s.sp ∧ t.pu = s.pu ∧ t.pf = s.pf ∧ t.timeBase = s.timeBase

/-- The ring after a splice before strip `j` to `n`: the fates of the frame that leaves and of the older candidates, then the
presentation of `n` (R18, R19, R106, R156, R158). -/
def State.splicedRing (s : State) (j : Nat) (n : Slot) : List FrameRec :=
  s.spliceRing n j (s.fateRing (s.leaveFates ++ s.olderReplaced n))

/-- The pool once the frame in slot `k` has completed at a Frame End, before a refresh or a splice that its eligibility brings
about: dropped in GUARDED with bad strips, COMPLETE on screen, or COMPLETE, marked eligible and ready alone on the list, the
older ready slot freed; every other slot and marker is as it was (R8, R9, R12). -/
def State.completedPool (s : State) (k : Slot) : SlotPool :=
  let done := { s.slot k with fill := .complete, lastLine := some s.timeBase }
  let closed := { s.pool with filling := none }
  if s.sp.state = .guarded ∧ (s.slot k).bad ≠ 0 then
    { closed.setSlot k SlotRec.free with
      cands := s.pool.cands.filter (· ≠ k), onScreen := s.pool.onScreen.filter (· ≠ k) }
  else if s.pool.onScreen = some k then closed.setSlot k done
  else
    let alone :=
      match s.pool.ready with
      | some r => closed.setSlot r SlotRec.free
      | none => closed
    { alone.setSlot k { done with eligible := true } with ready := some k, cands := [k] }

/-- The ring after the frame in slot `k` has completed at a Frame End: dropped in GUARDED with bad strips, or with the older
ready frame REPLACED and, where it becomes eligible there, its presentation at the refresh that starts at once or by the
splice; then its completion time, its bad strips and a clear truncated flag (R8, R9, R33, R97, R106, R155, R156, R158). -/
def State.completedRing (s : State) (k : Slot) : List FrameRec :=
  let older : List (Slot × Fate) :=
    match s.pool.ready with
    | some r => [(r, .replaced)]
    | none => []
  let ring :=
    if s.sp.state = .guarded ∧ (s.slot k).bad ≠ 0 then s.fateRing [(k, .errorDropped)]
    else if s.pool.onScreen = some k then s.hr
    else if (s.slot k).eligible = true then s.fateRing older
    else if s.otg.timing = .blankOpen ∧ s.otg.mode = some .adaptive ∧ s.ps.blankActive = false then
      s.refreshRing k (s.fateRing older)
    else if s.otg.timing = .scan ∧ s.ps.watchOpen = true ∧ s.prof.tear = .splice ∧
        s.otg.nextStrip ≤ s.prof.spliceLimit then
      s.spliceRing k s.otg.nextStrip (s.fateRing (older ++ s.leaveFates))
    else s.fateRing older
  ring.map fun r =>
    if r.frameNo = s.sp.frameCounter then
      { r with completion := some s.timeBase, bad := (s.slot k).bad, truncated := false }
    else r

/-- A scan end up to what the generator does next: the watch closes, and the on-screen slot becomes held when COMPLETE, the
old held frame freed SHOWN, returns to the list as the newest when FILLING, and is freed when ABORTED
(R17, R18, R71, R99). -/
def State.screenEnded (s : State) : State :=
  let ended := { s with
    otg := { s.otg with nextStrip := s.prof.strips }
    ps := { s.ps with watchOpen := false } }
  match s.pool.onScreen with
  | none => ended
  | some a =>
    let off := { s.pool with onScreen := none }
    match (s.slot a).fill with
    | .complete =>
      { ended with
        pool := { (match s.pool.held with
          | some j => if j = a then off else off.setSlot j SlotRec.free
          | none => off) with held := some a }
        hr := s.fateRing (s.heldFates a) }
    | .filling => { ended with pool := { off with cands := s.pool.cands ++ [a] } }
    | .aborted =>
      { ended with
        pool := off.setSlot a SlotRec.free
        hr := s.fateRing [(a, (s.slot a).fateAborted)] }
    | .empty => { ended with pool := off }

/-- The generator's items after it has restarted its cycle under a profile (R85, R88). -/
def OutputTiming.restarted (o : OutputTiming) (p : Profile) (now : Time) : OutputTiming :=
  { o with
    mode := some p.pacing
    timing := if p.pacing = .adaptive then .blankMin else .blank
    lock := .freeRun
    tLast := now
    tminTimer := if p.pacing = .adaptive then .running (plusTicks now p.winMin) else .stopped
    minPassed := false
    repeatTimer := if p.pacing = .adaptive then .running (plusTicks now p.winMax) else .stopped
    keptRepeat := false
    planCount := 0
    fixedTimer := if p.pacing = .adaptive then .stopped else .running (plusTicks now p.fixedInterval)
    keptFixed := false
    pendingApp := false
    pendingReset := false }

/-- A window `w` has become `w'` at an emptying of an application or a reset point: it is empty, or it holds the sample that
was entered last, at this same moment, and was taken after the emptying (R52, R54; Log 37). -/
def emptiedTo (enteredNow : Bool) (w w' : List Nat) : Prop :=
  w' = [] ∨ enteredNow = true ∧ w' = w.getLast?.toList

/-- The ring after a change of geometry: the frame in progress closes, and the frame of every slot takes the fate FLUSHED
(R21, R44, R155, R158). -/
def State.flushRing (s : State) : List FrameRec :=
  s.cutRing (s.fateRing ((List.finRange 4).map fun k => (k, .flushed)))

/-- A later profile `p` has been applied in place of `old`: it is active, the generator has restarted its cycle under it
with the lock in FREE_RUN and its notice, and the pacing unit's results are those of its windows under it, the measurement
not armed and both counts 0. With the same geometry the source port, the slots, the markers, the list and the ring are kept,
but for the eligible mark that the judgement of the published Q may set, while with another every slot is freed FLUSHED, the
windows are emptied and the frame in progress closes and is passed over (R13, R20, R21, R44, R66, R84, R85, R109, R138, R139, R155, R158; Log 12, Log 15, Log 33, Log 34, Log 36, Log 37). -/
def State.appliedAs (s : State) (old p : Profile) (t : State) : Prop :=
  t.pc = { s.pc with active := some p, proposal := none, propState := .none } ∧
    t.otg = s.otg.restarted p s.timeBase ∧ (s.otg.lock ≠ .freeRun → s.noticed t (.lockState .freeRun)) ∧
    t.cs = s.cs ∧ t.pf = s.pf ∧ t.panel = s.panel ∧ t.timeBase = s.timeBase ∧ t.pool.store = s.pool.store ∧
    t.ps = { s.ps with q := t.pu.q } ∧ t.pool.q = t.pu.q ∧
    t.pu = { s.pu with
      intervals := t.pu.intervals
      fills := t.pu.fills
      ti := averageInterval t.pu.intervals
      fi := averageFill t.pu.fills
      q := computeQ (some p) (averageFill t.pu.fills)
      lastQ := t.pu.q
      planActive := (planOf (some p) t.pu.ti).1
      k := (planOf (some p) t.pu.ti).2.1
      tr := (planOf (some p) t.pu.ti).2.2
      admitted := admissionHolds (some p) t.pu.ti
      armed := false
      good := 0
      bad := 0
      nextFixed := if p.pacing = .fixed then p.fixedInterval else 0 } ∧
    (old.width = p.width → old.height = p.height →
      t.sp = s.sp ∧ t.hr = s.hr ∧
      (∀ k, t.slot k = s.slot k ∨ t.slot k = { s.slot k with eligible := true }) ∧
      (s.poolHolds →
        t.pool = { ({ s with pc := { s.pc with active := some p } }.marked t.pu.q).pool with q := t.pu.q }) ∧
      t.pool.filling = s.pool.filling ∧ t.pool.ready = s.pool.ready ∧
      t.pool.held = s.pool.held ∧ t.pool.onScreen = s.pool.onScreen ∧ t.pool.cands = s.pool.cands ∧
      t.pu.fills = s.pu.fills ∧
      (old.pacing = p.pacing ∧ old.winMin = p.winMin ∧ old.winMax = p.winMax → t.pu.intervals = s.pu.intervals) ∧
      (¬ (old.pacing = p.pacing ∧ old.winMin = p.winMin ∧ old.winMax = p.winMax) →
        emptiedTo s.pu.sampledNow s.pu.intervals t.pu.intervals)) ∧
    (¬ (old.width = p.width ∧ old.height = p.height) →
      t.sp = { s.sp with
        cond := s.sp.cond.passedOver, stripErr := false, cleanRun := 0, prevRef := none } ∧
      t.hr = s.flushRing ∧
      (∀ k, t.slot k = SlotRec.free) ∧ t.pool.filling = none ∧ t.pool.ready = none ∧ t.pool.held = none ∧
      t.pool.onScreen = none ∧ t.pool.cands = [] ∧ emptiedTo s.pu.filledNow s.pu.fills t.pu.fills ∧
      emptiedTo s.pu.sampledNow s.pu.intervals t.pu.intervals)

/-- A pipeline reset has taken its point under profile `p`: the slot pool, the windows and the ring are emptied, the tune set
is merged, the source is CLEAN with score 0 or DETACHED with score 128 by the signal flag, the generator restarts its
cycle, and a change of source state or of lock state has its notice (R22, R36, R45, R67, R84, R88, R108, R110, R142, R160;
Log 36, Log 37). -/
def State.resetAs (s : State) (p : Profile) (t : State) : Prop :=
  t.pool = { SlotPool.powerOn s.pool.store with q := t.pu.q } ∧ t.hr = [] ∧
    t.sp.frameCounter = s.sp.frameCounter ∧ t.sp.signal = s.sp.signal ∧ t.sp.cleanRun = 0 ∧
    t.sp.cond = s.sp.cond.passedOver ∧ t.sp.prevRef = none ∧
    (s.sp.signal = true → t.sp.state = .clean ∧ t.sp.score = 0 ∧ t.ps.detachTime = none) ∧
    (s.sp.signal = false → t.sp.state = .detached ∧ t.sp.score = 128 ∧
      t.ps.detachTime = (if s.sp.state = .detached then s.ps.detachTime else some s.timeBase)) ∧
    (t.sp.state ≠ s.sp.state → s.noticed t (.sourceState t.sp.state t.sp.score)) ∧
    (s.otg.lock ≠ .freeRun → s.noticed t (.lockState .freeRun)) ∧
    emptiedTo s.pu.sampledNow s.pu.intervals t.pu.intervals ∧ emptiedTo s.pu.filledNow s.pu.fills t.pu.fills ∧
    (s.sp.signal = false → s.sp.state ≠ .detached → t.pu.intervals = [] ∧ t.pu.fills = []) ∧
    t.pu = { PacingUnit.powerOn with
      intervals := t.pu.intervals
      fills := t.pu.fills
      fi := averageFill t.pu.fills
      q := computeQ (some (p.withTune s.pc.tune)) (averageFill t.pu.fills)
      lastQ := t.pu.q
      nextFixed := if p.pacing = .fixed then p.fixedInterval else 0
      sampledNow := s.pu.sampledNow
      filledNow := s.pu.filledNow } ∧
    t.ps = { s.ps with detachTime := t.ps.detachTime, blankActive := false, q := t.pu.q } ∧
    t.otg = { s.otg.restarted p s.timeBase with pendingApp := s.otg.pendingApp } ∧
    t.pc = { s.pc with active := some (p.withTune s.pc.tune), tune := TuneSet.empty } ∧
    t.cs = s.cs ∧ t.pf = s.pf ∧ t.timeBase = s.timeBase ∧ t.panel = s.panel

/-- The source that R100 names for strip `k`: the on-screen slot's own strip if it is filled, else the held slot if it is
another, else the blank colour. -/
def SlotPool.sourceOf (p : SlotPool) (k : Nat) : StripSource :=
  match p.onScreen, p.held with
  | none, _ => .blank
  | some a, held =>
    if k < (p.slot a).filled then .onScreen a
    else
      match held with
      | some h => if h = a then .blank else .heldSlot h
      | none => .blank

/-- Fields one after the other, each given as its size in bytes and its value (R173). -/
def spelled (rows : List (Nat × Nat)) : List Byte := (rows.map fun r => leBytes r.1 r.2).flatten

/-- A flag as the manual encodes it: 0 or 1 (R173). -/
def flagValue (b : Bool) : Nat := if b = true then 1 else 0

/-- A slot number, or 0xFF for none (section 11.5). -/
def markerValue : Option Slot → Nat
  | none => 0xFF
  | some k => k.val

/-- The seven bytes of a slot in the status snapshot (sections 11.3 and 11.5). -/
def SlotRec.rows (r : SlotRec) : List (Nat × Nat) :=
  [(1, [FillState.empty, .filling, .complete, .aborted].idxOf r.fill), (4, (r.frameNo.map BitVec.toNat).getD 0),
   (2, r.filled)]

/-- The status snapshot field by field, in the order and with the codes of the manual, 79 bytes (sections 11.3, 11.5); bits 2
to 7 of its flag byte are the model's 0 (Log 40). -/
def State.statusRows (s : State) : List (Nat × Nat) :=
  [(5, s.timeBase.toNat), (4, s.sp.frameCounter.toNat),
   (1, [SourceState.unarmed, .clean, .watch, .guarded, .detached].idxOf s.sp.state), (1, s.sp.score),
   (1, s.sp.cleanRun), (1, [none, some Pacing.adaptive, some .fixed].idxOf s.otg.mode),
   (1, [Timing.idle, .scan, .blankMin, .blankOpen, .blank].idxOf s.otg.timing),
   (1, [Lock.freeRun, .acquire, .track].idxOf s.otg.lock), (5, s.otg.tLast.toNat), (1, s.otg.planCount),
   (1, [none, some RefreshKind.new, some .repeated, some .blank].idxOf s.ps.lastKind), (2, s.pu.q.getD 0),
   (1, flagValue s.pu.ti.isSome + 2 * flagValue s.pu.fi.isSome), (4, s.pu.ti.getD 0), (5, s.pu.fi.getD 0),
   (1, s.pu.k), (4, s.pu.tr)]
  ++ (s.slot 0).rows ++ (s.slot 1).rows ++ (s.slot 2).rows ++ (s.slot 3).rows
  ++ [(1, markerValue s.pool.filling), (1, markerValue s.pool.ready), (1, markerValue s.pool.held),
   (1, markerValue s.pool.onScreen), (1, s.pool.cands.length), (1, markerValue s.pool.cands[0]?),
   (1, markerValue s.pool.cands[1]?), (1, flagValue s.cs.shadowPending),
   (1, [ProposalState.none, .held, .confirmed].idxOf s.pc.propState), (1, flagValue s.pc.faulted),
   (1, flagValue s.pc.limits.isSome), (1, s.ml.slots.length)]

/-- A history record field by field, 35 bytes (sections 11.2.4, 11.3); bits 3 to 7 of its flag byte are the model's 0
(Log 40). -/
def FrameRec.rows (r : FrameRec) : List (Nat × Nat) :=
  [(4, r.frameNo.toNat), (1, r.slot.val),
   (1, flagValue r.completion.isSome + 2 * flagValue r.truncated + 4 * flagValue r.latency.isSome),
   (5, r.firstLine.toNat), (5, (r.completion.map BitVec.toNat).getD 0), (2, r.bad), (1, r.count)]
  ++ (match r.first with
   | none => [(1, 0), (5, 0), (2, 0)]
   | some (.refresh t) => [(1, 1), (5, t.toNat), (2, 0)]
   | some (.splice t j) => [(1, 2), (5, t.toNat), (2, j)])
  ++ [(5, (r.latency.map BitVec.toNat).getD 0), (2, r.substituted),
   (1, [Fate.pending, .shown, .partShown, .replaced, .errorDropped, .foreign, .flushed].idxOf r.fate)]

/-- The body of Read Capture for an entry, 43 bytes (section 11.2.3). -/
def captureBody (entry : Nat) : Option Capture → List Byte
  | none => spelled [(1, entry), (42, 0)]
  | some c =>
    spelled [(1, entry), (1, 1), (1, flagValue c.changed), (1, c.ptype.toNat), (1, c.version.toNat),
      (1, c.payload.length), (5, c.arrival.toNat), (4, c.frameCounter.toNat)]
    ++ c.payload ++ List.replicate (28 - c.payload.length) 0

/-- The format of field `f` of a profile record, numbered from 1 to 19 (R130). -/
def RawProfile.formatOk (r : RawProfile) (f : Nat) : Prop :=
  match f with
  | 1 => 640 ≤ r.width ∧ r.width ≤ 3840 ∧ r.width % 8 = 0
  | 2 => 480 ≤ r.height ∧ r.height ≤ 2160 ∧ r.height % 8 = 0
  | 3 => 1 ≤ r.scanTime ∧ r.scanTime ≤ 10000000
  | 4 => 1 ≤ r.winMin ∧ r.winMin ≤ 10000000
  | 5 => 1 ≤ r.winMax ∧ r.winMax ≤ 10000000
  | 6 => r.pacing ≤ 1
  | 7 => r.fixedInterval ≤ 10000000 ∧ (r.pacing = 0 → r.fixedInterval = 0)
  | 8 => r.lock ≤ 1 ∧ (r.pacing = 0 → r.lock = 0)
  | 9 => r.lockGuard ≤ r.fixedInterval / 4
  | 10 => r.race ≤ 1
  | 11 => r.raceMargin ≤ 16
  | 12 => r.tear ≤ 1
  | 13 => r.spliceLimit ≤ r.height / 8 - 1
  | 14 => r.repeatPlan ≤ 1 ∧ (r.pacing = 1 → r.repeatPlan = 0)
  | 15 => r.holdTimeout ≤ 10000
  | 16 => r.blankColour.c0 ≤ 4095 ∧ r.blankColour.c1 ≤ 4095 ∧ r.blankColour.c2 ≤ 4095
  | 17 => r.outDepth = 8 ∨ r.outDepth = 10
  | 18 => r.mask.c0 ≤ 1023 ∧ r.mask.c1 ≤ 1023 ∧ r.mask.c2 ≤ 1023
  | 19 => r.lut ≤ 1
  | _ => True

/-- The limits check of field `f` of a profile record; the fields not named have none (R131). -/
def RawProfile.limitsOk (r : RawProfile) (l : Limits) (f : Nat) : Prop :=
  match f with
  | 3 => l.scanMin ≤ r.scanTime
  | 4 => l.tminAbs ≤ r.winMin ∧ r.scanTime + l.blankMin ≤ r.winMin
  | 5 => r.winMax ≤ l.tmaxAbs ∧ r.winMin ≤ r.winMax
  | 7 => r.pacing = 1 → r.winMin ≤ r.fixedInterval ∧ r.fixedInterval ≤ r.winMax
  | 14 => r.repeatPlan = 1 → 2 * r.winMin ≤ r.winMax
  | _ => True

/-- The eight tunable fields by number, in order (section 11.2.2). -/
def tuneFields : List Nat := [10, 11, 12, 13, 15, 16, 18, 19]

/-- Tune field `f` of a payload passes: its marker is 0, or 1 with a value of the field's format; the three clamped fields
take any value (R140, section 11.2.2). -/
def tuneFieldOk (bs : List Byte) (f : Nat) : Prop :=
  let absentOr := fun (off : Nat) (valueOk : Prop) => fieldAt bs off 1 = 0 ∨ fieldAt bs off 1 = 1 ∧ valueOk
  match f with
  | 10 => absentOr 0 (fieldAt bs 1 1 ≤ 1)
  | 11 => absentOr 2 True
  | 12 => absentOr 4 (fieldAt bs 5 1 ≤ 1)
  | 13 => absentOr 6 True
  | 15 => absentOr 9 True
  | 16 => absentOr 12 (fieldAt bs 13 2 ≤ 4095 ∧ fieldAt bs 15 2 ≤ 4095 ∧ fieldAt bs 17 2 ≤ 4095)
  | 18 => absentOr 19 (fieldAt bs 20 2 ≤ 1023 ∧ fieldAt bs 22 2 ≤ 1023 ∧ fieldAt bs 24 2 ≤ 1023)
  | 19 => absentOr 26 (fieldAt bs 27 1 ≤ 1)
  | _ => True

/-- The request types with a payload of one length, and that length; LUT Write's is by its count (section 11.2). -/
def requestLengths : List (Nat × Nat) :=
  [(0x01, 0), (0x02, 0), (0x03, 1), (0x10, 16), (0x11, 48), (0x12, 0), (0x13, 0), (0x14, 0), (0x15, 28), (0x16, 0),
   (0x21, 0), (0x22, 5), (0x30, 6), (0x31, 1), (0x40, 1), (0x50, 0), (0x51, 0)]

/-- The replies that completed deferred-reply records hold, for operations in order (R167). -/
def MessageLink.completedReplies (m : MessageLink) (ks : List DeferredKind) : List Reply :=
  ks.filterMap fun k =>
    match m.deferred k with
    | .completed tag st => some ⟨tag, st, 0, []⟩
    | .empty | .waiting _ => none

/-- The commands that stand for the execution of a request (R166). -/
def requestRows : List Instr :=
  [.requestRefused, .getIdentity, .getStatus, .setNotices, .setPanelLimits, .proposeProfile, .confirmProfile,
   .withdrawProfile, .clearFault, .tuneProfile, .getProfile, .lutWrite, .lutCommit, .lutRead, .setFilter, .readCapture,
   .readHistory, .reattachSource, .pipelineReset]

end Sys2Proof.Machine
end

