-- ==== Sys2Proof/Certificates/Slice0/Obligations.lean ====
section
/-! DEFINITION. The statements for the provers, each with the rules of the manual it formalises. -/

section
open Sys2Proof Sys2Proof.Machine

/-! The queue, reset, and commands without effect -/

/-- A step with a command at the front of the queue is that command's meaning on the state with the queue's rest. -/
def Obligations.StepRunsFront : Prop :=
  ∀ (c : Instr) (rest : List Instr) (s : State), step { s with pending := c :: rest } = exec c { s with pending := rest }

/-- On an empty queue nothing happens under RESET_N, a tick passes when nothing is due (R50), after which no sample of the
windows is of the new moment (Log 37), and otherwise one of the due events enters the queue. The model's form of time
(Log 1, Log 2). -/
def Obligations.IdleStep : Prop :=
  ∀ s : State, s.pending = [] →
    (s.resetAsserted = true → step s = .next s) ∧
    (s.running → dueEvents s = [] → step s = .next { s with
      timeBase := s.timeBase + 1, pu := { s.pu with sampledNow := false, filledNow := false } }) ∧
    (dueEvents s ≠ [] → ∃ c ∈ dueEvents s, ∃ n, step s = .next { s with pending := [c], choices := n })

/-- POWER_ON_RESET brings every block to its power-on state and holds it there, the strip store alone keeping its content
(R2, R23, R161); RESET_N_RELEASE only releases it (R50). The power-on state is that of the power-on columns of R1, R25,
R51, R68, R90, R112, R119, R127, R145, R146 and R161, with the time base 0 and the ring empty (R50, R153). The queue and
the count of free choices are the model's (Log 29). -/
def Obligations.PowerOnAndRelease : Prop :=
  (∀ s : State,
    exec .powerOnReset s = .next { State.reset with
      resetAsserted := true
      pool := { State.reset.pool with store := s.pool.store }
      choices := s.choices
      pending := s.pending } ∧
    exec .resetNRelease s = .next { s with resetAsserted := false }) ∧
  let s := State.reset
  s.timeBase = 0 ∧
  (∀ k, s.slot k = ⟨.empty, none, 0, 0, false, none, none, false, false, false⟩) ∧
  (s.pool.filling = none ∧ s.pool.ready = none ∧ s.pool.held = none ∧ s.pool.onScreen = none ∧ s.pool.cands = [] ∧
    s.pool.q = none) ∧
  (s.sp.state = .unarmed ∧ s.sp.score = 0 ∧ s.sp.cleanRun = 0 ∧ s.sp.signal = false ∧ s.sp.frameCounter = 0 ∧
    s.sp.cond = .none ∧ s.sp.lineCount = 0 ∧ s.sp.stripErr = false ∧ s.sp.obsClean = false ∧ s.sp.firstPixels = 0 ∧
    s.sp.prevRef = none) ∧
  s.pu = ⟨[], [], none, none, none, none, false, 0, 0, 0, false, 0, 0, false, false, false⟩ ∧
  s.otg = ⟨none, .idle, .freeRun, 0, .stopped, false, .stopped, false, 0, .stopped, false, 0, false, false⟩ ∧
  s.ps = ⟨none, none, false, false, none⟩ ∧
  (s.cs.active = s.cs.shadow ∧ s.cs.shadowPending = false ∧ s.cs.scan = none ∧ s.cs.active.length = 257 ∧
    ∀ i < 257, ∃ v : BitVec 12, v.toNat = min 4095 (16 * i) ∧ s.cs.active[i]? = some ⟨v, v, v⟩) ∧
  (s.pc.limits = none ∧ s.pc.active = none ∧ s.pc.propState = .none ∧ s.pc.proposal = none ∧ s.pc.faulted = false ∧
    s.pc.tune = ⟨none, none, none, none, none, none, none, none⟩) ∧
  (∀ i : Fin 4, s.pf.entries[i] = ⟨false, 0, 0⟩ ∧ s.pf.captures[i] = none) ∧
  s.hr = [] ∧
  (s.ml.asm = .waiting ∧ s.ml.partialMsg = [] ∧ s.ml.lastByte = none ∧ s.ml.slots = [] ∧ s.hold = false ∧
    s.ml.overrun = none ∧ s.ml.replies = [] ∧ s.ml.defProfile = .empty ∧ s.ml.defLut = .empty ∧ s.ml.defReset = .empty ∧
    s.ml.tx = .idle ∧ ∀ i : Fin 5, s.ml.enables[i] = false ∧ s.ml.notices[i] = none)

/-- While RESET_N is asserted no command but the two of the reset input has an effect (R161; Log 5), and a command that
the receiver cannot deliver is refused (R26; Log 8). An expiry, strip read, scan end, gap, grant or end of transmission that
is not due has no effect, and a request row has none unless it is the granted request's own row (R69, R71, R163, R166,
R168; the model's form of it, Log 3). -/
def Obligations.CommandsWithoutEffect : Prop :=
  (∀ (c : Instr) (s : State),
    (c.wellFormed = false → exec c s = .refused .illFormed) ∧
    (c.wellFormed = true → s.resetAsserted = true → c ≠ .powerOnReset → c ≠ .resetNRelease → exec c s = .next s)) ∧
  ∀ s : State,
    (tminDue s = false → exec .tminExpiry s = .next s) ∧
    (repeatDue s = false → exec .repeatTimerExpiry s = .next s) ∧
    (fixedDue s = false → exec .fixedTimerExpiry s = .next s) ∧
    (stripDue s = false → exec .stripRead s = .next s) ∧
    (scanEndDue s = false → exec .scanEnd s = .next s) ∧
    (gapDue s = false → exec .gapEvent s = .next s) ∧
    (deferredDue s = false → exec .deferredReply s = .next s) ∧
    (overrunDue s = false → exec .overrunReply s = .next s) ∧
    (replySentDue s = false → exec .replySent s = .next s) ∧
    (noticeSentDue s = false → exec .noticeSent s = .next s) ∧
    ∀ c ∈ requestRows, (∀ r, s.granted = some r → requestRow r ≠ c) → exec c s = .next s

/-! Invariants: what every step keeps -/

/-- The state after reset meets every standing condition stated below. -/
def Obligations.ResetIsSound : Prop :=
  let s := State.reset
  s.bandHolds ∧ s.ringHolds ∧ s.profileHolds ∧ s.detachHolds ∧ s.fillingHolds ∧ s.poolHolds ∧
    Store.wf s.pool.store = true ∧ s.banksHold ∧ s.linkHolds ∧ s.filterHolds ∧ s.deferredHolds ∧ s.pacingHolds ∧ s.lockHolds

/-- In CLEAN, WATCH and GUARDED the score lies in the band of the state, in DETACHED it is at least 128 and at most 255, and
in UNARMED it is 0 (R25, R35, R36, R43). -/
def Obligations.ScoreStaysInBand : Prop :=
  ∀ s t : State, s.bandHolds → step s = .next t → t.bandHolds

/-- The history ring holds at most 32 records with consecutive frame numbers, the newest of them the frame counter
(R29, R153, R160). -/
def Obligations.RingStaysConsecutive : Prop :=
  ∀ s t : State, s.ringHolds → step s = .next t → t.ringHolds

/-- The active profile always satisfies the locked limits, a proposal exists exactly out of NONE, the part is never
FAULTED and HELD, a pending application is a CONFIRMED proposal, no profile means UNARMED and IDLE, what is pending waits
only in SCAN (R68, R85, R88, R127, R131, R132, R134, R136, R142), and the detach time is present exactly while the source
is DETACHED (R90, R108). -/
def Obligations.ActiveProfileStaysLawful : Prop :=
  ∀ s t : State, s.profileHolds → step s = .next t → t.profileHolds ∧ (s.detachHolds → t.detachHolds)

/-- The marker and list conditions of the slot pool: markers share a slot only as R4 allows, the held slot is COMPLETE, an
undesignated slot is free, the list is the ready and the filling slot off the screen, and outside SCAN nothing is on screen
(R4, R11, R17, R27, R103). -/
def Obligations.RolesStayConsistent : Prop :=
  ∀ s t : State, s.poolHolds → s.fillingHolds → step s = .next t → t.poolHolds ∧ t.fillingHolds

/-- The strip store keeps its canonical form, both banks 257 entries, the link its capacities and its notices, and a
capture record belongs to an enabled entry; HOLD is asserted exactly while both request slots are occupied
(R119, R146, R161, R165, R166, R169, R170; the form of the store is Log 6, HOLD as a view of the slots Log 20). -/
def Obligations.CapacitiesHold : Prop :=
  ∀ s t : State, step s = .next t →
    (Store.wf s.pool.store = true → Store.wf t.pool.store = true) ∧ (s.banksHold → t.banksHold) ∧
      (s.linkHolds → t.linkHolds ∧ (t.hold = true ↔ t.ml.slots.length = 2)) ∧ (s.filterHolds → t.filterHolds)

/-- A deferred reply waits exactly while its operation is pending, and each completed one waits once for its entry
(R85, R88, R120, R167). -/
def Obligations.DeferredRepliesAreKept : Prop :=
  ∀ s t : State, s.deferredHolds → step s = .next t → t.deferredHolds

/-- Ti, Fi, Q, the repeat plan and the admission result are those of the windows and the active profile, and the copies of
Q of the slot pool and the scheduler agree with it (R53 to R59, R65, R91); the lock is out of FREE_RUN only where R81 and
R83 allow it, and the next fixed interval lies in the window of the profile (R63, R78). -/
def Obligations.PacingAndLockHold : Prop :=
  ∀ s t : State, step s = .next t →
    (s.pacingHolds → t.pacingHolds) ∧ (s.profileHolds → s.lockHolds → t.lockHolds)

/-- Every Frame Start taken finds a free slot: no step faults (R6). -/
def Obligations.FreeSlotAlwaysFound : Prop :=
  ∀ (s : State) (f : Fault), s.fillingHolds → step s ≠ .fault f

/-! Whole-machine rules -/

/-- Which commands may change the limits, which not even Set Panel Limits changes once they are set, the frame counter, the
filter, the notice enables, the strip store, the time base and the queue (R2, R25, R50, R127, R129, R152, R170); and the
link's own events and the requests that only read reach nothing outside the message link (R124, R143, R159, R163, R171). -/
def Obligations.OnlyTheirCommandsChange : Prop :=
  (∀ (c : Instr) (s t : State), exec c s = .next t →
    t.pending = s.pending ∧
    (c ≠ .powerOnReset →
      t.timeBase = s.timeBase ∧
      (c ≠ .setPanelLimits → t.pc.limits = s.pc.limits) ∧
      (∀ l, s.pc.limits = some l → t.pc.limits = some l) ∧
      (c ≠ .frameStart → t.sp.frameCounter = s.sp.frameCounter) ∧
      (c ≠ .setFilter → t.pf.entries = s.pf.entries) ∧
      (c ≠ .setFilter → c ≠ .readCapture → (∀ a b p, c ≠ .packet a b p) → t.pf = s.pf) ∧
      (c ≠ .setNotices → t.ml.enables = s.ml.enables) ∧
      ((∀ e p, c ≠ .line e p) → t.pool.store = s.pool.store))) ∧
  ∀ (c : Instr) (s t : State), exec c s = .next t →
    (c ∈ [.gapEvent, .breakEvent, .overrunReply, .deferredReply, .requestRefused, .replySent, .noticeSent, .getIdentity,
      .getStatus, .setNotices, .getProfile, .lutRead, .readHistory] ∨
      ∃ b, c = .byteReceived b ∨ c = .messageReceived b) →
    t = { s with ml := t.ml }

/-- Requests write only the shadow bank; apart from LUT Write, a command leaves both banks as they are or exchanges them
(R119, R121, R123, R125). -/
def Obligations.BanksOnlyExchange : Prop :=
  ∀ (c : Instr) (s t : State), exec c s = .next t → c ≠ .powerOnReset →
    (c = .lutWrite → t.cs.active = s.cs.active) ∧
    (c ≠ .lutWrite →
      (t.cs.active = s.cs.active ∧ t.cs.shadow = s.cs.shadow) ∨
      (t.cs.active = s.cs.shadow ∧ t.cs.shadow = s.cs.active))

/-- A record keeps its number, slot and first-line time, and its fate once it is other than PENDING; the one new record is
that of a taken frame (R154, R155, R158). -/
def Obligations.FatesAreFinal : Prop :=
  ∀ (c : Instr) (s t : State), exec c s = .next t → ∀ r' ∈ t.hr,
    (∃ r ∈ s.hr, r'.frameNo = r.frameNo ∧ r'.slot = r.slot ∧ r'.firstLine = r.firstLine ∧
      (r.fate = .pending ∨ r'.fate = r.fate)) ∨
    (c = .frameStart ∧ r'.frameNo = s.sp.frameCounter + 1 ∧ r'.fate = .pending)

/-! Requests -/

/-- Get Identity answers OK with part code 7520, revision letter A and protocol version 1 (R171). -/
def Obligations.GetIdentityAnswers : Prop :=
  ∀ (s : State) (r : Request), s.serves 0x01 r →
    exec .getIdentity s = .next (settle (s.answered ⟨r.tag, .ok, 0, [0x60, 0x1D, 0x41, 0x01]⟩))

/-- Get Status answers OK with the 79 bytes of the status snapshot of the part as it is once the request has left its slot
(R172, section 11.5); Read History with the number of records and the newest records, newest first, 35 bytes each (R159,
section 11.2.4); LUT Read, unless its selector, start index or count is refused BAD_FIELD, with entries of the selected bank
(R124). A field of n bytes is little-endian, each byte a digit of its value to the base 256 (R173). That the unassigned bits
of the two flag bytes, bits 2 to 7 of the snapshot's and bits 3 to 7 of a record's, are 0 is the model's choice (Log 40). -/
def Obligations.ReadRequestsAnswer : Prop :=
  (∀ (s : State) (r : Request), s.serves 0x02 r →
    exec .getStatus s = .next (settle (s.answered ⟨r.tag, .ok, 0,
      spelled ({ s with ml := { s.ml with slots := s.ml.slots.drop 1 } }).statusRows⟩))) ∧
  (∀ (s : State) (r : Request) (n : Byte), s.serves 0x40 r → r.payload = [n] →
    exec .readHistory s = .next (settle (s.answered ⟨r.tag, .ok, 0,
      BitVec.ofNat 8 (min n.toNat s.hr.length) :: ((s.hr.reverse.take n.toNat).map fun r => spelled r.rows).flatten⟩))) ∧
  (∀ (s : State) (r : FrameRec), (spelled s.statusRows).length = 79 ∧ (spelled r.rows).length = 35) ∧
  (∀ n v : Nat, (leBytes n v).length = n ∧ ∀ i < n, (leBytes n v)[i]? = some (BitVec.ofNat 8 (v / 256 ^ i))) ∧
  ∀ (s : State) (r : Request), s.serves 0x22 r →
    let sel := fieldAt r.payload 0 1
    let start := fieldAt r.payload 1 2
    let count := fieldAt r.payload 3 2
    exec .lutRead s = .next (settle (
      if 1 < sel then s.answered ⟨r.tag, .badField, 1, []⟩
      else if 256 < start then s.answered ⟨r.tag, .badField, 2, []⟩
      else if 257 < count then s.answered ⟨r.tag, .badField, 3, []⟩
      else
        let m := min count (257 - start)
        let bank := if sel = 0 then s.cs.active else s.cs.shadow
        s.answered ⟨r.tag, .ok, 0,
          leBytes 2 start ++ leBytes 2 m ++ (((bank.drop start).take m).map colourBytes).flatten⟩))

/-- Get Profile answers with the nineteen fields of the active profile, or is refused NO_PROFILE (R143). -/
def Obligations.GetProfileAnswers : Prop :=
  ∀ (s : State) (r : Request), s.serves 0x16 r →
    (∀ p, s.pc.active = some p → exec .getProfile s = .next (settle (s.answered ⟨r.tag, .ok, 0, p.bytes⟩))) ∧
    (s.pc.active = none → exec .getProfile s = .next (settle (s.answered ⟨r.tag, .noProfile, 0, []⟩)))

/-- Set Notices replaces the enables and discards the pending copies of the kinds it disables, or is refused BAD_FIELD when
a flag outside the five kinds is set (R170). -/
def Obligations.SetNoticesAnswers : Prop :=
  ∀ (s : State) (r : Request) (b : Byte), s.serves 0x03 r → r.payload = [b] →
    exec .setNotices s = .next (settle (
      if 32 ≤ b.toNat then s.answered ⟨r.tag, .badField, 1, []⟩
      else
        { s with ml := { s.ml with
            enables := Vector.ofFn fun i : Fin 5 => b.toNat.testBit i.val
            notices := Vector.ofFn fun i : Fin 5 => if b.toNat.testBit i.val then s.ml.notices[i] else none } }.answered
          ⟨r.tag, .ok, 0, []⟩))

/-- The sequence check of the six configuration requests, and Clear Fault (R133, R134). -/
def Obligations.SequenceCheckAndClearFault : Prop :=
  (∀ row ∈ [(0x10, Instr.setPanelLimits), (0x11, .proposeProfile), (0x15, .tuneProfile), (0x20, .lutWrite),
      (0x21, .lutCommit), (0x30, .setFilter)],
    ∀ (s : State) (r : Request), s.serves row.1 r →
      (s.pc.propState = .held →
        exec row.2 s = .next (settle ({ s with pc := { s.pc with
          propState := .none, proposal := none, faulted := true } }.answered ⟨r.tag, .sequence, 0, []⟩))) ∧
      (s.pc.propState ≠ .held → s.pc.faulted = true →
        exec row.2 s = .next (settle (s.answered ⟨r.tag, .faulted, 0, []⟩)))) ∧
  ∀ (s : State) (r : Request), s.serves 0x14 r →
    exec .clearFault s = .next (settle ({ s with pc := { s.pc with faulted := false } }.answered ⟨r.tag, .ok, 0, []⟩))

/-- Set Panel Limits is refused LOCKED once the limits are set, refused BAD_FIELD with the first field out of its range,
and otherwise sets them (R128, R129). -/
def Obligations.SetPanelLimitsAnswers : Prop :=
  ∀ (s : State) (r : Request), s.serves 0x10 r → s.passesCheck →
    exec .setPanelLimits s = .next (settle (
      let l : Limits := ⟨fieldAt r.payload 0 4, fieldAt r.payload 4 4, fieldAt r.payload 8 4, fieldAt r.payload 12 4⟩
      if s.pc.limits.isSome then s.answered ⟨r.tag, .locked, 0, []⟩
      else if ¬ (208333 ≤ l.tminAbs ∧ l.tminAbs ≤ 10000000) then s.answered ⟨r.tag, .badField, 1, []⟩
      else if ¬ (l.tminAbs ≤ l.tmaxAbs ∧ l.tmaxAbs ≤ 10000000) then s.answered ⟨r.tag, .badField, 2, []⟩
      else if ¬ (1 ≤ l.scanMin ∧ l.scanMin ≤ 10000000) then s.answered ⟨r.tag, .badField, 3, []⟩
      else if ¬ (l.blankMin ≤ 10000000 ∧ l.scanMin + l.blankMin ≤ l.tmaxAbs) then s.answered ⟨r.tag, .badField, 4, []⟩
      else { s with pc := { s.pc with limits := some l } }.answered ⟨r.tag, .ok, 0, []⟩))

/-- Propose Profile is refused NO_LIMITS, BUSY, or with the first check of its record that fails, and otherwise holds the
record. The validation passes exactly the records whose nineteen fields meet their formats and the limits checks, and such
a record satisfies the relations on which the other blocks rely; a record that fails draws the number of its
lowest-numbered failing field, BAD_FIELD when that field fails its format and OUT_OF_LIMITS when it passes its format and
fails its limits checks (R130, R131, R135). -/
def Obligations.ProposeProfileAnswers : Prop :=
  (∀ (s : State) (r : Request), s.serves 0x11 r → s.passesCheck →
    (s.pc.limits = none → exec .proposeProfile s = .next (settle (s.answered ⟨r.tag, .noLimits, 0, []⟩))) ∧
    ∀ l, s.pc.limits = some l →
      (s.pc.propState = .confirmed → exec .proposeProfile s = .next (settle (s.answered ⟨r.tag, .busy, 0, []⟩))) ∧
      (s.pc.propState ≠ .confirmed →
        (∀ c, profileFailure l (readProfile r.payload) = some c →
          exec .proposeProfile s = .next (settle (s.answered ⟨r.tag, c.status, c.field, []⟩))) ∧
        (profileFailure l (readProfile r.payload) = none →
          exec .proposeProfile s = .next (settle ({ s with pc := { s.pc with
            propState := .held, proposal := some (readProfile r.payload).toProfile } }.answered ⟨r.tag, .ok, 0, []⟩))))) ∧
  ∀ (l : Limits) (r : RawProfile),
    (profileFailure l r = none ↔
      (640 ≤ r.width ∧ r.width ≤ 3840 ∧ r.width % 8 = 0) ∧ (480 ≤ r.height ∧ r.height ≤ 2160 ∧ r.height % 8 = 0) ∧
      (1 ≤ r.scanTime ∧ r.scanTime ≤ 10000000 ∧ l.scanMin ≤ r.scanTime) ∧
      (1 ≤ r.winMin ∧ r.winMin ≤ 10000000 ∧ l.tminAbs ≤ r.winMin ∧ r.scanTime + l.blankMin ≤ r.winMin) ∧
      (1 ≤ r.winMax ∧ r.winMax ≤ 10000000 ∧ r.winMax ≤ l.tmaxAbs ∧ r.winMin ≤ r.winMax) ∧ r.pacing ≤ 1 ∧
      (r.fixedInterval ≤ 10000000 ∧ (r.pacing = 0 → r.fixedInterval = 0) ∧
        (r.pacing = 1 → r.winMin ≤ r.fixedInterval ∧ r.fixedInterval ≤ r.winMax)) ∧
      (r.lock ≤ 1 ∧ (r.pacing = 0 → r.lock = 0)) ∧ r.lockGuard ≤ r.fixedInterval / 4 ∧ r.race ≤ 1 ∧ r.raceMargin ≤ 16 ∧
      r.tear ≤ 1 ∧ r.spliceLimit ≤ r.height / 8 - 1 ∧
      (r.repeatPlan ≤ 1 ∧ (r.pacing = 1 → r.repeatPlan = 0) ∧ (r.repeatPlan = 1 → 2 * r.winMin ≤ r.winMax)) ∧
      r.holdTimeout ≤ 10000 ∧ (r.blankColour.c0 ≤ 4095 ∧ r.blankColour.c1 ≤ 4095 ∧ r.blankColour.c2 ≤ 4095) ∧
      (r.outDepth = 8 ∨ r.outDepth = 10) ∧ (r.mask.c0 ≤ 1023 ∧ r.mask.c1 ≤ 1023 ∧ r.mask.c2 ≤ 1023) ∧ r.lut ≤ 1) ∧
    (profileFailure l r = none → r.toProfile.meets l) ∧
    ∀ c, profileFailure l r = some c →
      1 ≤ c.field ∧ c.field ≤ 19 ∧ (∀ f < c.field, r.formatOk f ∧ r.limitsOk l f) ∧
      (c.status = .badField ∧ ¬ r.formatOk c.field ∨
        c.status = .outOfLimits ∧ r.formatOk c.field ∧ ¬ r.limitsOk l c.field)

/-- The 48 bytes of a profile record carry each of the nineteen fields at the offset, of the size and with the codes of the
manual's table, and Get Profile returns the 48 bytes that an accepted Propose Profile carried: encoding the record that was
read from them gives them back (R173, section 11.2.1). -/
def Obligations.ProfileRecordRoundTrip : Prop :=
  (∀ bs : List Byte,
    let at_ := fun off n => fieldAt bs off n
    let three := fun off => (⟨fieldAt bs off 2, fieldAt bs (off + 2) 2, fieldAt bs (off + 4) 2⟩ : Three Nat)
    readProfile bs =
      { width := at_ 0 2, height := at_ 2 2, scanTime := at_ 4 4, winMin := at_ 8 4, winMax := at_ 12 4
        pacing := at_ 16 1, fixedInterval := at_ 17 4, lock := at_ 21 1, lockGuard := at_ 22 4, race := at_ 26 1
        raceMargin := at_ 27 1, tear := at_ 28 1, spliceLimit := at_ 29 2, repeatPlan := at_ 31 1
        holdTimeout := at_ 32 2, blankColour := three 34, outDepth := at_ 40 1, mask := three 41, lut := at_ 47 1 } ∧
    let p := (readProfile bs).toProfile
    p.width = at_ 0 2 ∧ p.height = at_ 2 2 ∧ p.scanTime = at_ 4 4 ∧ p.winMin = at_ 8 4 ∧ p.winMax = at_ 12 4 ∧
    (p.pacing = .fixed ↔ at_ 16 1 = 1) ∧ p.fixedInterval = at_ 17 4 ∧ (p.lock = true ↔ at_ 21 1 = 1) ∧
    p.lockGuard = at_ 22 4 ∧ (p.race = true ↔ at_ 26 1 = 1) ∧ p.raceMargin = at_ 27 1 ∧
    (p.tear = .splice ↔ at_ 28 1 = 1) ∧ p.spliceLimit = at_ 29 2 ∧ (p.repeatPlan = true ↔ at_ 31 1 = 1) ∧
    p.holdTimeout = at_ 32 2 ∧
    p.blankColour = ⟨BitVec.ofNat 12 (at_ 34 2), BitVec.ofNat 12 (at_ 36 2), BitVec.ofNat 12 (at_ 38 2)⟩ ∧
    (p.outDepth = .d8 ↔ at_ 40 1 = 8) ∧
    p.mask = ⟨BitVec.ofNat 10 (at_ 41 2), BitVec.ofNat 10 (at_ 43 2), BitVec.ofNat 10 (at_ 45 2)⟩ ∧
    (p.lut = true ↔ at_ 47 1 = 1)) ∧
  ∀ (l : Limits) (bs : List Byte), bs.length = 48 → profileFailure l (readProfile bs) = none →
    (readProfile bs).toProfile.bytes = bs

/-- Confirm Profile without a HELD proposal is refused NO_PROPOSAL; in SCAN a HELD proposal becomes CONFIRMED, its
application waits and its reply is deferred (R85, R136, R167). -/
def Obligations.ConfirmProfileDefers : Prop :=
  ∀ (s : State) (r : Request), s.serves 0x12 r →
    (s.pc.propState ≠ .held → exec .confirmProfile s = .next (settle (s.answered ⟨r.tag, .noProposal, 0, []⟩))) ∧
    (s.pc.propState = .held → s.otg.timing = .scan →
      exec .confirmProfile s = .next (settle { s with
        pc := { s.pc with propState := .confirmed }
        otg := { s.otg with pendingApp := true }
        ml := { s.ml with slots := s.ml.slots.drop 1, defProfile := .waiting r.tag } }))

/-- A later profile confirmed outside SCAN is applied at once: it becomes active, the generator restarts its cycle under it
with the lock in FREE_RUN and its notice, the source keeps its state, score, signal and frame counter, and the reply is OK.
The pacing unit's results are those of its windows under the new profile, with no measurement armed, both counts 0 and the
next fixed interval Tf, or 0 under ADAPTIVE. With the same geometry the source port, the slots, the markers, the list and
the ring are kept, but for the eligible mark that the judgement of the published Q may set; with another geometry every slot
is freed and its frame FLUSHED, the windows are emptied, and the frame in progress closes with its bad strips and is passed
over (R13, R20, R21, R44, R66, R84, R85, R136, R138, R139, R155, R158). The model's choices: the cycle restarts whatever the
publication of Q marks (Log 12), the clean run is 0 after every change of geometry (Log 15), the bad strips of a foreign
frame are those of its slot at the line (Log 16), the line count, the first pixel count and the observed-clean mark of a
frame passed over are kept (Log 33, Log 34), the next strip is kept (Log 36), and a window may keep the sample of this same
moment (R52, R54; Log 37). -/
def Obligations.ApplicationRestartsCycle : Prop :=
  ∀ (s : State) (r : Request) (old p : Profile), s.serves 0x12 r → s.pc.propState = .held → s.pc.proposal = some p →
    s.pc.active = some old → s.otg.timing ∈ [Timing.blankMin, .blankOpen, .blank] → s.otg.pendingReset = false →
    ∃ t, exec .confirmProfile s = .next t ∧ s.appliedAs old p t ∧
      t.ml.replies = s.ml.replies ++ [⟨r.tag, .ok, 0, []⟩] ∧ t.ml.slots = s.ml.slots.drop 1

/-- The first profile is applied at once: the source arms into CLEAN or DETACHED by the signal flag, with its notice, and a
BLANK refresh starts at that moment, with the timers of the new pacing loaded (R21, R36, R43, R72, R86, R138, R169). -/
def Obligations.FirstApplicationStartsOutput : Prop :=
  ∀ (s : State) (r : Request) (p : Profile), s.serves 0x12 r → s.pc.propState = .held → s.pc.proposal = some p →
    s.pc.active = none → s.otg.timing = .idle → s.sp.state = .unarmed → s.pc.tune = TuneSet.empty →
    s.cs.shadowPending = false →
    ∃ t, exec .confirmProfile s = .next t ∧
      t.pc = { s.pc with active := some p, proposal := none, propState := .none } ∧
      t.otg.timing = .scan ∧ t.otg.tLast = s.timeBase ∧ t.otg.nextStrip = 0 ∧ t.otg.mode = some p.pacing ∧
      t.otg.pendingApp = false ∧ t.ps.lastKind = some .blank ∧ t.panel.refreshAt = some s.timeBase ∧
      t.sp.cleanRun = 0 ∧ t.sp.cond = s.sp.cond.passedOver ∧ t.sp.frameCounter = s.sp.frameCounter ∧
      (s.sp.signal = true → t.sp.state = .clean ∧ t.sp.score = 0 ∧ s.noticed t (.sourceState .clean 0)) ∧
      (s.sp.signal = false → t.sp.state = .detached ∧ t.sp.score = 128 ∧ t.ps.detachTime = some s.timeBase ∧
        s.noticed t (.sourceState .detached 128)) ∧
      (∀ k, t.slot k = SlotRec.free) ∧ t.pool.cands = [] ∧ t.pool.onScreen = none ∧
      (p.pacing = .adaptive → t.otg.tminTimer = .running (plusTicks s.timeBase p.winMin) ∧ t.otg.planCount = 0 ∧
        t.otg.repeatTimer = .running (plusTicks s.timeBase p.winMax)) ∧
      (p.pacing = .fixed → t.otg.fixedTimer = .running (plusTicks s.timeBase p.fixedInterval)) ∧
      t.cs = s.cs ∧ t.pf = s.pf ∧ t.ml.replies = s.ml.replies ++ [⟨r.tag, .ok, 0, []⟩]

/-- Withdraw Profile discards a HELD proposal without a fault; otherwise it is refused NO_PROPOSAL and nothing changes
(R137). -/
def Obligations.WithdrawProfileAnswers : Prop :=
  ∀ (s : State) (r : Request), s.serves 0x13 r →
    exec .withdrawProfile s = .next (settle (
      if s.pc.propState = .held then
        { s with pc := { s.pc with propState := .none, proposal := none } }.answered ⟨r.tag, .ok, 0, []⟩
      else s.answered ⟨r.tag, .noProposal, 0, []⟩))

/-- Tune Profile is refused NO_PROFILE, or BAD_FIELD with the first field, in field-number order, whose marker is neither 0
nor 1 or whose present value is outside its format, the three clamped fields taking any value; otherwise each present field,
as clamped, enters the pending tune set and the reply carries the clamped set (R140, section 11.2.2). -/
def Obligations.TuneProfileAnswers : Prop :=
  (∀ bs : List Byte,
    (firstFailure (tuneChecks bs) = none ↔ ∀ f ∈ tuneFields, tuneFieldOk bs f) ∧
    ∀ c, firstFailure (tuneChecks bs) = some c →
      c.field ∈ tuneFields ∧ ¬ tuneFieldOk bs c.field ∧ ∀ f ∈ tuneFields, f < c.field → tuneFieldOk bs f) ∧
  ∀ (s : State) (r : Request), s.serves 0x15 r → s.passesCheck →
    (s.pc.active = none → exec .tuneProfile s = .next (settle (s.answered ⟨r.tag, .noProfile, 0, []⟩))) ∧
    ∀ p, s.pc.active = some p →
      (∀ c, firstFailure (tuneChecks r.payload) = some c →
        exec .tuneProfile s = .next (settle (s.answered ⟨r.tag, .badField, c.field, []⟩))) ∧
      (firstFailure (tuneChecks r.payload) = none →
        ∃ t set, exec .tuneProfile s =
            .next (settle ({ s with pc := { s.pc with tune := t } }.answered ⟨r.tag, .ok, 0, [set]⟩)) ∧
          (let at_ := fun off n => fieldAt r.payload off n
           t.race = (if at_ 0 1 = 1 then some (at_ 1 1 == 1) else s.pc.tune.race) ∧
           t.raceMargin = (if at_ 2 1 = 1 then some (min 16 (at_ 3 1)) else s.pc.tune.raceMargin) ∧
           t.tear = (if at_ 4 1 = 1 then some (if at_ 5 1 = 1 then .splice else .sync) else s.pc.tune.tear) ∧
           t.spliceLimit = (if at_ 6 1 = 1 then some (min (p.strips - 1) (at_ 7 2)) else s.pc.tune.spliceLimit) ∧
           t.holdTimeout = (if at_ 9 1 = 1 then some (min 10000 (at_ 10 2)) else s.pc.tune.holdTimeout) ∧
           (at_ 12 1 ≠ 1 → t.blankColour = s.pc.tune.blankColour) ∧
           (at_ 12 1 = 1 → t.blankColour = some ⟨BitVec.ofNat 12 (at_ 13 2), BitVec.ofNat 12 (at_ 15 2),
             BitVec.ofNat 12 (at_ 17 2)⟩) ∧
           (at_ 19 1 ≠ 1 → t.mask = s.pc.tune.mask) ∧
           (at_ 19 1 = 1 → t.mask = some ⟨BitVec.ofNat 10 (at_ 20 2), BitVec.ofNat 10 (at_ 22 2),
             BitVec.ofNat 10 (at_ 24 2)⟩) ∧
           t.lut = (if at_ 26 1 = 1 then some (at_ 27 1 == 1) else s.pc.tune.lut) ∧
           set.toNat = (if at_ 2 1 = 1 ∧ 16 < at_ 3 1 then 1 else 0)
             + (if at_ 6 1 = 1 ∧ p.strips - 1 < at_ 7 2 then 2 else 0)
             + (if at_ 9 1 = 1 ∧ 10000 < at_ 10 2 then 4 else 0)))

/-- LUT Write is refused CONFLICT, or BAD_FIELD by its start index or count; otherwise it writes whole entries of the
shadow bank from the start index, values above 4095 as 4095, and nothing else (R119, R121). -/
def Obligations.LutWriteAnswers : Prop :=
  ∀ (s : State) (r : Request), s.serves 0x20 r → s.passesCheck →
    let start := fieldAt r.payload 0 2
    let n := fieldAt r.payload 2 2
    (s.cs.shadowPending = true → exec .lutWrite s = .next (settle (s.answered ⟨r.tag, .conflict, 0, []⟩))) ∧
    (s.cs.shadowPending = false →
      (256 < start → exec .lutWrite s = .next (settle (s.answered ⟨r.tag, .badField, 1, []⟩))) ∧
      (start ≤ 256 → n = 0 ∨ 771 < n →
        exec .lutWrite s = .next (settle (s.answered ⟨r.tag, .badField, 2, []⟩))) ∧
      (start ≤ 256 → 1 ≤ n → n ≤ 771 →
        ∃ bank, exec .lutWrite s = .next (settle ({ s with cs := { s.cs with shadow := bank } }.answered
            ⟨r.tag, .ok, 0, leBytes 2 (min (n / 3) (257 - start))⟩)) ∧
          bank.length = s.cs.shadow.length ∧
          ∀ i < bank.length, bank[i]? =
            (if start ≤ i ∧ i < start + min (n / 3) (257 - start) then
              let v := fun c => BitVec.ofNat 12 (min 4095 (fieldAt r.payload (4 + 2 * (3 * (i - start) + c)) 2))
              some ⟨v 0, v 1, v 2⟩
            else s.cs.shadow[i]?)))

/-- LUT Commit is refused BUSY while a commit is pending, exchanges the banks at once in IDLE, and otherwise becomes
PENDING with its reply deferred (R120, R122, R123, R167). -/
def Obligations.LutCommitAnswers : Prop :=
  ∀ (s : State) (r : Request), s.serves 0x21 r → s.passesCheck →
    (s.cs.shadowPending = true → exec .lutCommit s = .next (settle (s.answered ⟨r.tag, .busy, 0, []⟩))) ∧
    (s.cs.shadowPending = false → s.otg.timing = .idle →
      exec .lutCommit s = .next (settle ({ s with cs := { s.cs with
        active := s.cs.shadow, shadow := s.cs.active } }.answered ⟨r.tag, .ok, 0, []⟩))) ∧
    (s.cs.shadowPending = false → s.otg.timing ≠ .idle →
      exec .lutCommit s = .next (settle { s with
        cs := { s.cs with shadowPending := true }
        ml := { s.ml with slots := s.ml.slots.drop 1, defLut := .waiting r.tag } }))

/-- Set Filter writes one entry and clears its capture record, and Read Capture returns a record in 43 bytes, the payload
filled up with zeros and every byte after the present flag 0 for an absent record, and clears its changed flag; each is
refused BAD_FIELD by its fields (R150, R151, section 11.2.3). -/
def Obligations.FilterRequestsAnswer : Prop :=
  (∀ (s : State) (r : Request), s.serves 0x30 r → s.passesCheck →
    let n := fieldAt r.payload 0 1
    let on := fieldAt r.payload 1 1
    (3 < n → exec .setFilter s = .next (settle (s.answered ⟨r.tag, .badField, 1, []⟩))) ∧
    (n ≤ 3 → 1 < on → exec .setFilter s = .next (settle (s.answered ⟨r.tag, .badField, 2, []⟩))) ∧
    ∀ i : Fin 4, i.val = n → on ≤ 1 →
      exec .setFilter s = .next (settle ({ s with pf :=
        { entries := s.pf.entries.set i.val
            ⟨on == 1, BitVec.ofNat 16 (fieldAt r.payload 2 2), BitVec.ofNat 16 (fieldAt r.payload 4 2)⟩ i.isLt
          captures := s.pf.captures.set i.val none i.isLt } }.answered ⟨r.tag, .ok, 0, []⟩))) ∧
  ∀ (s : State) (r : Request), s.serves 0x31 r →
    let n := fieldAt r.payload 0 1
    (3 < n → exec .readCapture s = .next (settle (s.answered ⟨r.tag, .badField, 1, []⟩))) ∧
    ∀ i : Fin 4, i.val = n →
      exec .readCapture s = .next (settle ({ s with pf := { s.pf with
        captures := s.pf.captures.set i.val (s.pf.captures[i].map fun c : Capture => { c with changed := false }) i.isLt } }.answered
          ⟨r.tag, .ok, 0, captureBody n s.pf.captures[i]⟩))

/-- Reattach Source in DETACHED re-attaches as GUARDED with score 96 and raises SOURCE_STATE; otherwise it is refused
NOT_DETACHED and nothing changes (R41, R42, R96, R108; that the line count, the first pixel count and the observed-clean
mark of a frame passed over are kept is Log 34). -/
def Obligations.ReattachSourceAnswers : Prop :=
  ∀ (s : State) (r : Request), s.serves 0x50 r →
    (s.sp.state ≠ .detached → exec .reattachSource s = .next (settle (s.answered ⟨r.tag, .notDetached, 0, []⟩))) ∧
    (s.sp.state = .detached → s.otg.lock = .freeRun →
      exec .reattachSource s = .next (settle (raise (.sourceState .guarded 96) ({ s with
        sp := { s.sp with state := .guarded, score := 96, cleanRun := 0, cond := s.sp.cond.passedOver }
        ps := { s.ps with detachTime := none, blankActive := false } }.answered ⟨r.tag, .ok, 0, []⟩))))

/-- Pipeline Reset completes at once without a profile, is refused BUSY while a reset is pending, and in SCAN records a
pending reset after it has aborted a pending application, cancelled a pending commit and discarded a HELD proposal
without a fault, with an ABORTED reply for each of the two that was pending, the application's first; one that finds no free
entry stays in its record (R87, R125, R167). -/
def Obligations.PipelineResetAccepted : Prop :=
  ∀ (s : State) (r : Request), s.serves 0x51 r →
    (s.pc.active = none → exec .pipelineReset s = .next (settle (s.answered ⟨r.tag, .ok, 0, []⟩))) ∧
    (s.pc.active ≠ none → s.otg.pendingReset = true →
      exec .pipelineReset s = .next (settle (s.answered ⟨r.tag, .busy, 0, []⟩))) ∧
    (s.pc.active ≠ none → s.otg.pendingReset = false → s.otg.timing = .scan → s.profileHolds →
      ∃ t, exec .pipelineReset s = .next t ∧
        t.otg = { s.otg with pendingReset := true, pendingApp := false } ∧
        t.pc = { s.pc with propState := .none, proposal := none } ∧
        t.cs = { s.cs with shadowPending := false } ∧ t.ml.defReset = .waiting r.tag ∧
        t.ml.slots = s.ml.slots.drop 1 ∧ t.pool = s.pool ∧ t.sp = s.sp ∧ t.pu = s.pu ∧ t.ps = s.ps ∧ t.pf = s.pf ∧
        t.hr = s.hr ∧ t.panel = s.panel ∧
        (s.otg.pendingApp = false → s.cs.shadowPending = false →
          t.ml.replies = s.ml.replies ∧ t.ml.defProfile = s.ml.defProfile ∧ t.ml.defLut = s.ml.defLut) ∧
        (∀ a, s.ml.defProfile = .waiting a → s.otg.pendingApp = true → s.cs.shadowPending = false →
          t.ml.replies = s.ml.replies ++ [⟨a, .aborted, 0, []⟩] ∧ t.ml.defProfile = .empty ∧
          t.ml.defLut = s.ml.defLut) ∧
        (∀ b, s.ml.defLut = .waiting b → s.otg.pendingApp = false → s.cs.shadowPending = true →
          t.ml.replies = s.ml.replies ++ [⟨b, .aborted, 0, []⟩] ∧ t.ml.defLut = .empty ∧
          t.ml.defProfile = s.ml.defProfile) ∧
        ∀ a b, s.ml.defProfile = .waiting a → s.ml.defLut = .waiting b → s.otg.pendingApp = true →
          s.cs.shadowPending = true →
          t.ml.defProfile = .empty ∧
          (s.ml.replies.length ≤ 2 →
            t.ml.replies = s.ml.replies ++ [⟨a, .aborted, 0, []⟩, ⟨b, .aborted, 0, []⟩] ∧ t.ml.defLut = .empty) ∧
          (s.ml.replies.length = 3 →
            t.ml.replies = s.ml.replies ++ [⟨a, .aborted, 0, []⟩] ∧ t.ml.defLut = .completed b .aborted ∧
            t.ml.doneOrder = [.lutCommit]))

/-- A Pipeline Reset accepted outside SCAN discards a HELD proposal, cancels a pending commit and takes its point at once:
the slot pool, the windows and the ring are emptied, the tune set is merged, the source is CLEAN with score 0 or DETACHED
with score 128 by the signal flag, the generator restarts its cycle, a change of source state or of lock state has its
notice, and the limits, the fault, the banks, the filter, the frame counter and the last refresh kind are kept (R22, R36, R45,
R67, R84, R87, R88, R108, R110, R142, R160, R167). The model's choices: the next strip is kept (Log 36), and a window may keep
the sample of this same moment (R52, R54; Log 37). -/
def Obligations.ResetPointEmptiesPath : Prop :=
  ∀ (s : State) (r : Request) (p : Profile), s.serves 0x51 r → s.pc.active = some p → s.otg.pendingReset = false →
    s.otg.timing ≠ .scan → s.profileHolds →
    let accepted := { s with
      pc := { s.pc with propState := .none, proposal := none }
      cs := { s.cs with shadowPending := false } }
    ∃ t, exec .pipelineReset s = .next t ∧ accepted.resetAs p t ∧ t.otg.pendingApp = false ∧
      (s.cs.shadowPending = false → t.ml.replies = s.ml.replies ++ [⟨r.tag, .ok, 0, []⟩]) ∧
      ∀ b, s.cs.shadowPending = true → s.ml.defLut = .waiting b → s.ml.replies.length ≤ 2 →
        t.ml.replies = s.ml.replies ++ [⟨b, .aborted, 0, []⟩, ⟨r.tag, .ok, 0, []⟩]

/-- A request that does not reach its block is answered by its entry code, else by its unknown type, else by its length, and
has no other effect; every known type requires the length of the manual's table, and LUT Write 4 bytes and two more for each
value it counts (section 11.2); the overrun reply enters a free entry when no completed deferred reply waits, and the first
completed deferred reply enters a free entry and leaves its record empty (R165, R166, R167). -/
def Obligations.ArbiterGrants : Prop :=
  (∀ (s : State) (r : Request), s.running → s.granted = some r →
    (r.entry = .malformed → exec .requestRefused s = .next (settle (s.answered ⟨r.tag, .malformed, 0, []⟩))) ∧
    (r.entry = .tooLong → exec .requestRefused s = .next (settle (s.answered ⟨r.tag, .tooLong, 0, []⟩))) ∧
    (r.entry = .none →
      (lengthFits r.type.toNat r.payload = none →
        exec .requestRefused s = .next (settle (s.answered ⟨r.tag, .unknown, 0, []⟩))) ∧
      (lengthFits r.type.toNat r.payload = some false →
        exec .requestRefused s = .next (settle (s.answered ⟨r.tag, .malformed, 0, []⟩))))) ∧
  (∀ payload : List Byte,
    (∀ row ∈ requestLengths, lengthFits row.1 payload = some (decide (payload.length = row.2))) ∧
    lengthFits 0x20 payload =
      some (decide (4 ≤ payload.length ∧ payload.length = 4 + 2 * fieldAt payload 2 2)) ∧
    ∀ type, type ≠ 0x20 → (∀ row ∈ requestLengths, row.1 ≠ type) → lengthFits type payload = none) ∧
  ∀ s : State, s.running → s.ml.replies.length < 4 →
    (∀ tag, s.ml.doneOrder = [] → s.ml.overrun = some tag →
      exec .overrunReply s = .next (settle { s with ml := { s.ml with
        overrun := none, replies := s.ml.replies ++ [⟨tag, .overrun, 0, []⟩] } })) ∧
    ∀ k rest tag st, s.ml.doneOrder = k :: rest → s.ml.deferred k = .completed tag st →
      exec .deferredReply s = .next (settle { s with ml := { s.ml.setDeferred k .empty with
        doneOrder := rest, replies := s.ml.replies ++ [⟨tag, st, 0, []⟩] } })

/-! The message link -/

/-- The assembler takes a byte: the first starts a header, the fourth decides by the declared length, the last of the
payload hands the message over, and in DISCARDING every byte is discarded. A gap of more than 4,000 ticks hands over a
MALFORMED request when type and tag have been received, and otherwise discards; a break discards the partial message; either
leaves the assembler WAITING. A byte or a break that finds such a gap run out comes after it: the gap ends the message, and
the byte is the first of a new one (R162, R163, R164, R165; that the gap is taken first is Log 24). The model's choices: the
slot of a MALFORMED request holds an empty payload (Log 39), and MESSAGE_RECEIVED is the same step of the assembler as
BYTE_RECEIVED (Log 9). -/
def Obligations.AssemblerTakesByte : Prop :=
  (∀ (s : State) (b : Byte), ∀ c ∈ [Instr.byteReceived b, .messageReceived b], s.running → gapDue s = false →
    let bytes := s.ml.partialMsg ++ [b]
    let becomes := fun (a : AsmState) (p : List Byte) =>
      { s with ml := { s.ml with asm := a, partialMsg := p, lastByte := some s.timeBase } }
    let request := fun (p : List Byte) (e : EntryCode) => (⟨bytes.getD 0 0, bytes.getD 1 0, p, e⟩ : Request)
    (s.ml.asm = .waiting → exec c s = .next (becomes .header [b])) ∧
    (s.ml.asm = .discarding → exec c s = .next (becomes .discarding [])) ∧
    (s.ml.asm = .header →
      (bytes.length < 4 → exec c s = .next (becomes .header bytes)) ∧
      (4 ≤ bytes.length → 2048 < declaredLength bytes →
        exec c s = .next ((becomes .discarding []).received (request [] .tooLong))) ∧
      (4 ≤ bytes.length → declaredLength bytes = 0 →
        exec c s = .next ((becomes .waiting []).received (request [] .none))) ∧
      (4 ≤ bytes.length → 1 ≤ declaredLength bytes → declaredLength bytes ≤ 2048 →
        exec c s = .next (becomes .payload bytes))) ∧
    (s.ml.asm = .payload →
      (bytes.length < 4 + declaredLength bytes → exec c s = .next (becomes .payload bytes)) ∧
      (4 + declaredLength bytes ≤ bytes.length →
        exec c s = .next ((becomes .waiting []).received (request (bytes.drop 4) .none))))) ∧
  ∀ s : State, s.running →
    let waits := { s with ml := { s.ml with asm := .waiting, partialMsg := [] } }
    (∀ last, s.ml.lastByte = some last → 4000 < elapsed s.timeBase last →
      (s.ml.asm ∈ [AsmState.header, .payload] → 2 ≤ s.ml.partialMsg.length →
        exec .gapEvent s = .next (settle (waits.received
          ⟨s.ml.partialMsg.getD 0 0, s.ml.partialMsg.getD 1 0, [], .malformed⟩))) ∧
      (s.ml.asm = .discarding ∨ s.ml.asm ∈ [AsmState.header, .payload] ∧ s.ml.partialMsg.length < 2 →
        exec .gapEvent s = .next (settle waits))) ∧
    (gapDue s = false → exec .breakEvent s = .next waits) ∧
    (gapDue s = true →
      let ended :=
        if s.ml.asm ∈ [AsmState.header, .payload] ∧ 2 ≤ s.ml.partialMsg.length then
          waits.received ⟨s.ml.partialMsg.getD 0 0, s.ml.partialMsg.getD 1 0, [], .malformed⟩
        else waits
      exec .breakEvent s = .next ended ∧
      ∀ b, ∀ c ∈ [Instr.byteReceived b, .messageReceived b],
        exec c s = .next { ended with ml := { ended.ml with
          asm := .header, partialMsg := [b], lastByte := some s.timeBase } })

/-- The bytes of a message of at most 2,048 payload bytes, one after the other from WAITING, hand over exactly the request
with that type, tag and payload; a header that declares more hands over a TOO_LONG request and discards what follows
(R162, R164, R165). -/
def Obligations.MessageIsAssembled : Prop :=
  ∀ (s : State) (type tag : Byte), s.running → s.ml.asm = .waiting →
    (∀ payload : List Byte, payload.length ≤ 2048 →
      s.feed ([type, tag] ++ leBytes 2 payload.length ++ payload) =
        .next ({ s with ml := { s.ml with
          asm := .waiting, partialMsg := [], lastByte := some s.timeBase } }.received ⟨type, tag, payload, .none⟩)) ∧
    ∀ (n : Nat) (more : List Byte), 2048 < n → n < 65536 →
      s.feed ([type, tag] ++ leBytes 2 n ++ more) =
        .next ({ s with ml := { s.ml with
          asm := .discarding, partialMsg := [], lastByte := some s.timeBase } }.received ⟨type, tag, [], .tooLong⟩)

/-- At the end of its last byte, 400 ticks a byte, a reply frees its entry and a notice is done, and the transmitter is
IDLE and chooses again. An IDLE one takes the oldest reply, else the pending notice of the lowest enabled kind, which is
then no longer pending; a busy one goes on. At the end of an event completed deferred replies enter the free entries in the
order of completion, those that do not fit staying in their records, before that choice is made. Raising a notice does
nothing when its kind is disabled, and otherwise gives a new copy with count 1 or replaces the content of the pending one
and raises its count, up to 255 (R166, R167, R168, R169, section 1.9; when the claims and the choice are made is Log 13 and
Log 14, and that the 400 ticks a byte run from the moment of choice is Log 27). -/
def Obligations.TransmitterChooses : Prop :=
  (∀ s : State, s.running →
    (∀ since q rest, s.ml.tx = .reply since → s.ml.replies = q :: rest →
      s.timeBase = plusTicks since (400 * q.bytes.length) →
      exec .replySent s = .next (chooseMessage { s with ml := { s.ml with tx := .idle, replies := rest } })) ∧
    ∀ since m, s.ml.tx = .notice m since → s.timeBase = plusTicks since (400 * m.bytes.length) →
      exec .noticeSent s = .next (chooseMessage { s with ml := { s.ml with tx := .idle } })) ∧
  (∀ s : State,
    (s.ml.doneOrder = [] → settle s = chooseMessage s) ∧
    (s.deferredHolds →
      let claimed := s.ml.doneOrder.take (4 - s.ml.replies.length)
      settle s = chooseMessage { s with ml := { s.ml with
        replies := s.ml.replies ++ s.ml.completedReplies claimed
        doneOrder := s.ml.doneOrder.drop (4 - s.ml.replies.length)
        defProfile := if .profileApply ∈ claimed then .empty else s.ml.defProfile
        defLut := if .lutCommit ∈ claimed then .empty else s.ml.defLut
        defReset := if .pipelineReset ∈ claimed then .empty else s.ml.defReset } }) ∧
    (s.ml.tx ≠ .idle → chooseMessage s = s) ∧
    (s.ml.tx = .idle →
      (s.ml.replies ≠ [] → chooseMessage s = { s with ml := { s.ml with tx := .reply s.timeBase } }) ∧
      (s.ml.replies = [] →
        ((∀ i : Fin 5, s.ml.enables[i] = true → s.ml.notices[i] = none) → chooseMessage s = s) ∧
        ∀ (i : Fin 5) (m : NoticeMsg), s.ml.enables[i] = true → s.ml.notices[i] = some m →
          (∀ j < i, s.ml.enables[j] = true → s.ml.notices[j] = none) →
          chooseMessage s = { s with ml := { s.ml with
            tx := .notice m s.timeBase, notices := s.ml.notices.set i.val none i.isLt } }))) ∧
  ∀ (s : State) (n : Notice),
    let i := n.kind
    (i = match n with
      | .sourceState _ _ => 0
      | .lockState _ => 1
      | .foreignFrame _ _ => 2
      | .outputBlank _ _ => 3
      | .packetChanged _ => 4) ∧
    (s.ml.enables[i] = false → raise n s = s) ∧
    (s.ml.enables[i] = true →
      (s.ml.notices[i] = none →
        raise n s = { s with ml := { s.ml with notices := s.ml.notices.set i.val (some ⟨n, 1⟩) i.isLt } }) ∧
      ∀ c, s.ml.notices[i] = some c →
        raise n s = { s with ml := { s.ml with
          notices := s.ml.notices.set i.val (some ⟨n, min 255 (c.count + 1)⟩) i.isLt } })

/-! The source port and the packet filter -/

/-- Signal Restored sets the signal flag to PRESENT and changes nothing else (R39). -/
def Obligations.SignalRestoredSetsFlag : Prop :=
  ∀ s : State, s.running → exec .signalRestored s = .next { s with sp := { s.sp with signal := true } }

/-- Signal Lost clears the flag and ends the frame in progress; UNARMED nothing more, DETACHED score 128 and clean run 0,
and from an attached state DETACHED with score 128, both windows empty, the plan ended with the backstop loaded, the lock in
FREE_RUN, the detach time set and no filling slot, with the notices of the source state and of the lock. A TAKEN frame is
aborted, its slot ABORTED on screen and freed with its fate otherwise, and it and a FOREIGN one close with their bad strips
and a clear truncated flag (R5, R10, R37, R38, R47, R77, R83, R84, R108, R155, R158). The bad strips of a foreign frame are
those of its slot at the line (Log 16), and the line count, the first pixel count and the observed-clean mark are kept
(Log 34). -/
def Obligations.SignalLostDetaches : Prop :=
  ∀ s : State, s.running →
    (s.sp.state = .unarmed → exec .signalLost s = .next (settle { s with sp := { s.sp with
      signal := false, cond := .none, stripErr := false } })) ∧
    (s.sp.state = .detached → exec .signalLost s = .next (settle { s with sp := { s.sp with
      signal := false, cond := .none, stripErr := false, score := 128, cleanRun := 0 } })) ∧
    (s.sp.state.attached = true → s.poolHolds → s.fillingHolds →
      ∃ t, exec .signalLost s = .next t ∧
        t.sp = { s.sp with
          state := .detached, score := 128, signal := false, cond := .none, stripErr := false, cleanRun := 0,
          prevRef := none } ∧
        t.ps.detachTime = some s.timeBase ∧ t.ps.lastKind = s.ps.lastKind ∧ t.ps.blankActive = s.ps.blankActive ∧
        t.pu.intervals = [] ∧ t.pu.fills = [] ∧ t.pu.ti = none ∧ t.pu.fi = none ∧ t.pu.q = none ∧
        s.intervalsTaken t ∧ t.otg.lock = .freeRun ∧ s.lockDrops t True ∧ t.otg.timing = s.otg.timing ∧
        t.otg.tLast = s.otg.tLast ∧ s.noticed t (.sourceState .detached 128) ∧
        t.pool.filling = none ∧ t.pool.ready = s.pool.ready ∧ t.pool.held = s.pool.held ∧
        t.pool.onScreen = s.pool.onScreen ∧ t.pool.store = s.pool.store ∧ (∀ k, t.slot k = s.slotAborted false k) ∧
        t.pool.cands = s.pool.cands.filter (fun k => s.pool.filling ≠ some k) ∧ t.hr = s.cutRing s.abortRing ∧
        t.pc = s.pc ∧ t.cs = s.cs ∧ t.pf = s.pf ∧ t.panel = s.panel ∧ t.timeBase = s.timeBase ∧
        t.ml.slots = s.ml.slots)

/-- A Frame Start in CLEAN, WATCH or GUARDED with no taken frame in progress takes the lowest-numbered free slot, numbers
the frame, creates its record and enters its interval sample; one that ends a FOREIGN frame closes that frame's record first,
with the bad strips its slot had when it became foreign. After a sample or the emptying by an oversized one, Ti, the repeat
plan and the admission result are set afresh, a run of planned repeats takes the new plan, its count held to k - 1 or the
backstop loaded, and a failed admission drops the lock; without a sample the generator and the pacing unit stay (R6, R28, R29,
R46, R52, R53, R58, R65, R77, R83, R84, R154; those bad strips are Log 16, and that the observed-clean mark is kept is
Log 41). -/
def Obligations.FrameStartTakesSlot : Prop :=
  ∀ s : State, s.running → s.sp.state.attached = true → s.pool.filling = none →
    s.sp.cond ∈ [FrameCond.none, .ignored, .foreign] →
    ∃ (k : Slot) (t : State), s.pool.isFree k = true ∧ (∀ j < k, s.pool.isFree j = false) ∧
      exec .frameStart s = .next t ∧
      t.sp = { s.sp with
        frameCounter := s.sp.frameCounter + 1, cond := .taken, lineCount := 0, stripErr := false, firstPixels := 0,
        prevRef := some ⟨s.timeBase, false⟩ } ∧
      t.pool = { s.pool with
        slots := s.pool.slots.set k.val
          ⟨.filling, some (s.sp.frameCounter + 1), 0, 0, false, some s.timeBase, none, false, false, false⟩ k.isLt
        filling := some k
        cands := s.pool.cands ++ [k] } ∧
      (let ring := if s.sp.cond = .foreign then
          s.hr.map fun r => if r.frameNo = s.sp.frameCounter then
            { r with bad := s.sp.closeBad, truncated := false } else r
        else s.hr
       t.hr = (if ring.length < 32 then ring else ring.drop 1) ++
        [⟨s.sp.frameCounter + 1, k, s.timeBase, none, 0, false, 0, none, none, 0, .pending⟩]) ∧
      t.pu.intervals = s.sampledWindow ∧
      (s.samples → s.intervalsTaken t ∧ s.lockDrops t (t.pu.admitted = false)) ∧
      (¬ s.samples → t.otg = s.otg ∧ t.pu = s.pu) ∧
      t.otg = { s.otg with
        lock := t.otg.lock, planCount := t.otg.planCount, repeatTimer := t.otg.repeatTimer } ∧
      t.pu.fills = s.pu.fills ∧ t.pc = s.pc ∧ t.ps = s.ps ∧ t.cs = s.cs ∧ t.pf = s.pf ∧ t.panel = s.panel ∧
      t.timeBase = s.timeBase ∧ t.otg.timing = s.otg.timing

/-- A Frame Start that truncates a taken frame adds 8 to the score, with the notice of a new source state and the lock
dropped outside CLEAN and WATCH, and closes its record with its bad strips and the truncated flag; its slot stays ABORTED on
screen and is freed with its fate otherwise. Below 128 the new frame is taken as any other: the lowest free slot, its record,
its interval sample with what follows from it. At 128 or more the source detaches, both windows are emptied, the plan ends
with the backstop loaded, and the frame is observed (R5, R6, R28, R29, R35, R36, R37, R46, R77, R83, R154, R155). -/
def Obligations.FrameStartTruncates : Prop :=
  ∀ (s : State) (j : Slot), s.running → s.sp.state.attached = true → s.sp.cond = .taken → s.pool.filling = some j →
    s.sp.score ≤ 255 → s.poolHolds →
    let score := min 255 (s.sp.score + 8)
    let moves := bandOf score ≠ s.sp.state
    let closed := s.closeRing (s.slot j).bad true s.abortRing
    ∃ t, exec .frameStart s = .next t ∧
      t.sp.score = score ∧ t.sp.state = bandOf score ∧ (moves → s.noticed t (.sourceState (bandOf score) score)) ∧
      (∀ r ∈ t.hr, r.frameNo = s.sp.frameCounter → r.bad = (s.slot j).bad ∧ r.truncated = true) ∧
      (s.pool.onScreen = some j → (t.slot j).fill = .aborted ∧ (t.slot j).truncated = true ∧
        (t.slot j).filled = (s.slot j).filled) ∧
      t.pool.ready = s.pool.ready ∧ t.pool.held = s.pool.held ∧ t.pool.onScreen = s.pool.onScreen ∧
      t.pf = s.pf ∧ t.timeBase = s.timeBase ∧ t.pool.store = s.pool.store ∧ t.pc = s.pc ∧ t.cs = s.cs ∧
      t.panel = s.panel ∧
      t.otg = { s.otg with
        lock := t.otg.lock, planCount := t.otg.planCount, repeatTimer := t.otg.repeatTimer } ∧
      (s.sp.score + 8 < 128 →
        t.sp.cond = .taken ∧ t.sp.frameCounter = s.sp.frameCounter + 1 ∧ t.sp.lineCount = 0 ∧
        t.sp.prevRef = some ⟨s.timeBase, false⟩ ∧ t.ps = s.ps ∧
        (∃ k, t.pool.filling = some k ∧ (t.slot k).frameNo = some (s.sp.frameCounter + 1) ∧
          (t.slot k).firstLine = some s.timeBase ∧ (s.pool.onScreen = some j → k ≠ j) ∧
          (s.pool.isFree k = true ∨ k = j) ∧ (∀ i < k, s.pool.isFree i = false ∧ (i = j → s.pool.onScreen = some j)) ∧
          (∀ i, t.slot i =
            if i = k then ⟨.filling, some (s.sp.frameCounter + 1), 0, 0, false, some s.timeBase, none, false, false, false⟩
            else s.slotAborted true i) ∧
          t.pool.cands = s.pool.cands.filter (· ≠ j) ++ [k] ∧
          t.hr = (if closed.length < 32 then closed else closed.drop 1) ++
            [⟨s.sp.frameCounter + 1, k, s.timeBase, none, 0, false, 0, none, none, 0, .pending⟩]) ∧
        t.pu.intervals = s.sampledWindow ∧ t.pu.fills = s.pu.fills ∧
        (s.samples → s.intervalsTaken t) ∧
        (¬ s.samples → t.otg.planCount = s.otg.planCount ∧ t.otg.repeatTimer = s.otg.repeatTimer) ∧
        s.lockDrops t (moves ∧ (bandOf score).healthy = false ∨ s.samples ∧ t.pu.admitted = false)) ∧
      (128 ≤ s.sp.score + 8 →
        t.sp.cond = .observed ∧ t.sp.obsClean = s.sp.signal ∧ t.sp.frameCounter = s.sp.frameCounter ∧
        t.sp.cleanRun = 0 ∧ t.sp.prevRef = none ∧ t.pool.filling = none ∧ t.ps.detachTime = some s.timeBase ∧
        (∀ i, t.slot i = s.slotAborted true i) ∧ t.pool.cands = s.pool.cands.filter (· ≠ j) ∧ t.hr = closed ∧
        t.pu.intervals = [] ∧ t.pu.fills = [] ∧ s.intervalsTaken t ∧ s.lockDrops t True)

/-- While UNARMED a Frame Start sets IGNORED, a Line is disregarded and a Frame End sets NONE; a Line of an IGNORED or
FOREIGN frame is counted and no more, the Frame End of an IGNORED frame ends it, and that of a FOREIGN frame ends it and
closes its record (R26, R30, R33, R34, R43). The cleared line count and marks of an ignored frame are Log 26, its
observed-clean mark kept Log 41, the bad strips of the foreign frame's record Log 16, the counts and the mark kept after a
Frame End Log 34. -/
def Obligations.UntakenFramesPass : Prop :=
  ∀ (s : State) (e : Bool) (pixels : List Pixel), s.running → pixels.length ≤ 65535 →
    (s.sp.state = .unarmed →
      exec .frameStart s = .next { s with sp := { s.sp with
        cond := .ignored, lineCount := 0, stripErr := false, firstPixels := 0 } } ∧
      exec (.line e pixels) s = .next (settle s) ∧
      exec .frameEnd s = .next (settle { s with sp := { s.sp with cond := .none, stripErr := false } })) ∧
    (s.sp.state ≠ .unarmed → s.sp.cond ∈ [FrameCond.ignored, .foreign] →
      exec (.line e pixels) s = .next (settle { s with sp := { s.sp with
        lineCount := if s.sp.lineCount < s.prof.height + 1 then s.sp.lineCount + 1 else s.sp.lineCount } })) ∧
    (s.sp.state ≠ .unarmed → s.sp.cond = .ignored →
      exec .frameEnd s = .next (settle { s with sp := { s.sp with cond := .none, stripErr := false } })) ∧
    (s.sp.state ≠ .unarmed → s.sp.cond = .foreign →
      exec .frameEnd s = .next (settle { s with
        hr := s.hr.map fun r => if r.frameNo = s.sp.frameCounter then
          { r with bad := s.sp.closeBad, truncated := false } else r
        sp := { s.sp with cond := .none, stripErr := false } }))

/-- In DETACHED a frame is observed: its Frame Start takes the mark from the signal flag, a damaged or surplus line clears
it, a clean Frame End raises the clean run, the sixteenth re-attaches as GUARDED with score 96, and anything else sets the
clean run to 0 (R28, R34, R40, R41, R96, R108; the cleared line count and marks of an observed frame are Log 26, its first
pixel count left at 0 is Log 35, and the counts and the mark kept after its Frame End are Log 34). -/
def Obligations.DetachedFramesAreObserved : Prop :=
  ∀ (s : State) (e : Bool) (pixels : List Pixel), s.running → s.sp.state = .detached → pixels.length ≤ 65535 →
    exec .frameStart s = .next { s with sp := { s.sp with
      cond := .observed, obsClean := s.sp.signal, lineCount := 0, stripErr := false, firstPixels := 0
      cleanRun := if s.sp.cond = .observed then 0 else s.sp.cleanRun } } ∧
    (s.sp.cond = .none →
      exec (.line e pixels) s = .next (settle { s with sp := { s.sp with cleanRun := 0 } }) ∧
      exec .frameEnd s = .next (settle { s with sp := { s.sp with cleanRun := 0 } })) ∧
    (s.sp.cond = .observed →
      exec (.line e pixels) s = .next (settle { s with sp := { s.sp with
        obsClean := s.sp.obsClean && !e && decide (pixels.length = s.prof.width)
          && decide (s.sp.lineCount < s.prof.height)
        lineCount := if s.sp.lineCount < s.prof.height + 1 then s.sp.lineCount + 1 else s.sp.lineCount } }) ∧
      (¬ (s.sp.obsClean = true ∧ s.sp.lineCount = s.prof.height) →
        exec .frameEnd s = .next (settle { s with sp := { s.sp with
          cond := .none, stripErr := false, cleanRun := 0 } })) ∧
      (s.sp.obsClean = true → s.sp.lineCount = s.prof.height → s.sp.cleanRun ≠ 15 →
        exec .frameEnd s = .next (settle { s with sp := { s.sp with
          cond := .none, stripErr := false, cleanRun := s.sp.cleanRun + 1 } })) ∧
      (s.sp.obsClean = true → s.sp.lineCount = s.prof.height → s.sp.cleanRun = 15 → s.otg.lock = .freeRun →
        exec .frameEnd s = .next (settle (raise (.sourceState .guarded 96) { s with
          sp := { s.sp with
            cond := .none, stripErr := false, cleanRun := 0, state := .guarded, score := 96 }
          ps := { s.ps with detachTime := none, blankActive := false } }))))

/-- A Line or a Frame End outside a frame under an attached source adds 8 to the score, the state follows the score, and
below 128 nothing reaches the slots, the ring, the profile, the scheduler or the windows; at 128 or more the windows are
empty, the plan has ended with the backstop loaded, the lock is in FREE_RUN and the detach time is set. A change of source
state has its notice, and one outside CLEAN and WATCH drops the lock with its notice (R34, R35, R36, R37, R77, R83, R84). -/
def Obligations.StrayEventsRaiseScore : Prop :=
  ∀ (s : State) (e : Bool) (pixels : List Pixel), s.running → s.sp.state.attached = true → s.sp.cond = .none →
    pixels.length ≤ 65535 → s.sp.score ≤ 127 → ∀ c ∈ [Instr.line e pixels, .frameEnd],
    ∃ t, exec c s = .next t ∧
      t.sp.score = s.sp.score + 8 ∧ t.sp.state = bandOf (s.sp.score + 8) ∧ t.sp.cond = .none ∧
      t.sp.frameCounter = s.sp.frameCounter ∧ t.sp.lineCount = s.sp.lineCount ∧ t.sp.signal = s.sp.signal ∧
      t.pf = s.pf ∧ t.pool.store = s.pool.store ∧ t.timeBase = s.timeBase ∧
      (bandOf (s.sp.score + 8) ≠ s.sp.state → s.noticed t (.sourceState (bandOf (s.sp.score + 8)) (s.sp.score + 8))) ∧
      s.lockDrops t (bandOf (s.sp.score + 8) ≠ s.sp.state ∧ (bandOf (s.sp.score + 8)).healthy = false) ∧
      (s.sp.score + 8 < 128 →
        t.otg = { s.otg with lock := t.otg.lock } ∧ t.pool = s.pool ∧ t.hr = s.hr ∧ t.pc = s.pc ∧ t.cs = s.cs ∧
        t.ps = s.ps ∧ t.panel = s.panel ∧
        t.sp.cleanRun = s.sp.cleanRun ∧ t.sp.prevRef = s.sp.prevRef ∧ t.pu.intervals = s.pu.intervals ∧
        t.pu.fills = s.pu.fills) ∧
      (128 ≤ s.sp.score + 8 →
        t.sp.cleanRun = 0 ∧ t.sp.prevRef = none ∧ t.ps.detachTime = some s.timeBase ∧ t.pu.intervals = [] ∧
        t.pu.fills = [] ∧ t.otg.lock = .freeRun ∧
        (s.poolHolds → s.intervalsTaken t ∧ t.pool = { s.pool with q := t.pool.q } ∧ t.hr = s.hr ∧ t.pc = s.pc ∧
          t.cs = s.cs ∧ t.panel = s.panel ∧ t.ps = { s.ps with detachTime := some s.timeBase, q := t.ps.q } ∧
          t.otg = { s.otg with
            lock := t.otg.lock, planCount := t.otg.planCount, repeatTimer := t.otg.repeatTimer }))

/-- A line of a taken frame is stored at its position, an error line or not, and every pixel of every other line of the
store reads as before; at the eighth line of a strip the slot's counts rise, and nothing more happens when the frame does
not become eligible there (R2, R7, R12, R26, R30, R31; the form of the store is Log 6). -/
def Obligations.LineIsStored : Prop :=
  (∀ (s : State) (k : Slot) (e : Bool) (pixels : List Pixel), s.running → s.sp.state.attached = true →
    s.sp.cond = .taken → s.pool.filling = some k → s.sp.lineCount < s.prof.height → pixels.length ≤ 65535 →
    (s.sp.lineCount = 0 → pixels.length = s.prof.width) →
    let i := s.sp.lineCount
    let err := s.sp.stripErr || e || decide (pixels.length ≠ s.prof.width)
    let line := { s.pool with store := Store.writeLine s.pool.store k i s.prof.width pixels }
    let first := if i = 0 then pixels.length else s.sp.firstPixels
    (i % 8 ≠ 7 →
      exec (.line e pixels) s = .next (settle { s with
        pool := line
        sp := { s.sp with lineCount := i + 1, stripErr := err, firstPixels := first } })) ∧
    (i % 8 = 7 → (s.slot k).fill = .filling →
      ¬ (k ∈ s.pool.cands ∧ (s.slot k).eligible = false ∧ s.prof.race = true ∧ s.sp.state.healthy = true ∧
        ∃ q, s.pool.q = some q ∧ q ≤ (s.slot k).filled + 1) →
      exec (.line e pixels) s = .next (settle { s with
        pool := line.setSlot k { s.slot k with
          filled := (s.slot k).filled + 1
          bad := if err then (s.slot k).bad + 1 else (s.slot k).bad }
        sp := { s.sp with lineCount := i + 1, stripErr := false, firstPixels := first } }))) ∧
  ∀ (st : List StoreRow) (k k' : Slot) (line line' width col : Nat) (pixels : List Pixel), Store.wf st = true →
    line < 2160 → line' < 2160 →
    Store.pixel (Store.writeLine st k line width pixels) k' line' col =
      if k' = k ∧ line' = line ∧ col < min width pixels.length then pixels.getD col ⟨0, 0, 0⟩
      else Store.pixel st k' line' col

/-- The strip that brings a racing candidate's count to Q makes it eligible, whatever the generator does: the line is stored,
the counts rise, the mark is set, and the pacing unit takes its phase measurement. In BLANK_OPEN under ADAPTIVE a NEW
refresh starts at once and puts the frame on screen, the older ready frame leaving; in SCAN with the watch open under SPLICE
the splice check runs, which closes the watch past the splice limit and otherwise splices to the newest candidate that fits;
in every other case nothing more happens (R7, R12, R14, R15, R31, R60, R64, R70, R72, R74, R80, R92, R93, R105, R106;
with Ti undefined the next fixed interval stays, Log 32). -/
def Obligations.RacingFrameStartsRefresh : Prop :=
  ∀ (s : State) (k : Slot) (e : Bool) (pixels : List Pixel) (q : Nat), s.running → s.sp.state.healthy = true →
    s.sp.cond = .taken → s.pool.filling = some k → s.sp.lineCount < s.prof.height → s.sp.lineCount % 8 = 7 →
    pixels.length ≤ 65535 → s.poolHolds → (s.slot k).eligible = false → s.prof.race = true → s.pool.q = some q →
    q ≤ (s.slot k).filled + 1 → k ∈ s.pool.cands →
    let u := (s.raceStrip k e pixels).measured
    (s.otg.timing = .blankOpen → s.otg.mode = some .adaptive → s.ps.blankActive = false →
      ∃ t, exec (.line e pixels) s = .next t ∧ u.refreshMade t false ∧
        t.ps.lastKind = some .new ∧ t.pool.onScreen = some k ∧ t.pool.filling = some k ∧ t.pool.ready = none ∧
        t.pool.cands = [] ∧ t.pool.held = s.pool.held ∧ (t.slot k).eligible = true ∧
        (t.slot k).filled = (s.slot k).filled + 1 ∧
        ∀ j, j ≠ k → t.slot j = if s.pool.ready = some j then SlotRec.free else s.slot j) ∧
    (s.otg.timing ∈ [Timing.idle, .blankMin, .blank] ∨
        s.otg.timing = .blankOpen ∧ (s.otg.mode ≠ some .adaptive ∨ s.ps.blankActive = true) →
      exec (.line e pixels) s = .next (settle u)) ∧
    (s.otg.timing = .scan →
      (¬ (s.ps.watchOpen = true ∧ s.prof.tear = .splice) → exec (.line e pixels) s = .next (settle u)) ∧
      (s.ps.watchOpen = true → s.prof.tear = .splice →
        (s.prof.spliceLimit < s.otg.nextStrip →
          exec (.line e pixels) s = .next (settle { u with ps := { s.ps with watchOpen := false } })) ∧
        (s.otg.nextStrip ≤ s.prof.spliceLimit →
          (u.spliceCandidate s.otg.nextStrip = none → exec (.line e pixels) s = .next (settle u)) ∧
          ∀ n, u.spliceCandidate s.otg.nextStrip = some n →
            ∃ t, exec (.line e pixels) s = .next t ∧ u.splicedTo n t ∧ t.otg = u.otg ∧
              t.hr = u.splicedRing s.otg.nextStrip n)))

/-- A taken frame is foreign at a line 0 of another width, at a line beyond the height, and at a Frame End with too few
lines: its fate is FOREIGN where it was PENDING, it is aborted, the slot staying ABORTED without truncation while it is on
screen and being free otherwise, both windows are emptied, the reference is marked foreign, FOREIGN_FRAME is raised with the
pixel count of line 0 and the line count, and the score is unchanged; at a line the condition is FOREIGN, at the Frame End
the frame closes and its record takes the slot's bad strips and a clear truncated flag,
and in both cases the plan ends with the backstop loaded and the lock drops to FREE_RUN; the other records of the ring, the
profile, the colour stage, the output and the scheduler, apart from its copy of Q, stay
(R10, R26, R30, R32, R33, R47, R77, R83, R84, R155, R158, R169). The bad strips that a foreign frame's later close reports are
those its slot had at the line (Log 16), and the line count kept after the Frame End is Log 34. -/
def Obligations.ForeignFramesAreAborted : Prop :=
  ∀ (s : State) (k : Slot) (e : Bool) (pixels : List Pixel), s.running → s.sp.state.attached = true →
    s.sp.cond = .taken → s.pool.filling = some k → s.poolHolds → pixels.length ≤ 65535 →
    let fated : State := { s with hr := s.hr.map fun r : FrameRec =>
      if r.frameNo = s.sp.frameCounter ∧ r.fate = .pending then { r with fate := .foreign } else r }
    let aborts := fun t : State =>
      t.pool.filling = none ∧ t.pool.store = s.pool.store ∧
      (s.pool.onScreen = some k → t.slot k = { s.slot k with fill := .aborted, truncated := false }) ∧
      (s.pool.onScreen ≠ some k → t.slot k = SlotRec.free ∧ t.pool.isFree k = true) ∧
      t.pool.ready = s.pool.ready ∧ t.pool.held = s.pool.held ∧ t.pool.onScreen = s.pool.onScreen ∧
      (∀ j, t.slot j = s.slotAborted false j) ∧
      t.pool.cands = s.pool.cands.filter (· ≠ k) ∧ t.pu.intervals = [] ∧ t.pu.fills = [] ∧ t.pu.ti = none ∧
      t.pu.fi = none ∧ t.pu.q = none ∧ s.intervalsTaken t ∧ s.lockDrops t True ∧
      t.otg = { s.otg with
        lock := t.otg.lock, planCount := t.otg.planCount, repeatTimer := t.otg.repeatTimer } ∧
      t.sp.prevRef = s.sp.prevRef.map (fun r => { r with foreign := true }) ∧
      t.sp.score = s.sp.score ∧ t.sp.state = s.sp.state ∧ t.sp.frameCounter = s.sp.frameCounter ∧
      t.sp.cleanRun = s.sp.cleanRun ∧ t.sp.signal = s.sp.signal ∧
      t.ps = { s.ps with q := t.ps.q } ∧ (s.pacingHolds → t.pool.q = none ∧ t.ps.q = none) ∧
      t.pc = s.pc ∧ t.cs = s.cs ∧ t.panel = s.panel ∧ t.pf = s.pf ∧ t.timeBase = s.timeBase
    (s.prof.height ≤ s.sp.lineCount ∨ s.sp.lineCount = 0 ∧ pixels.length ≠ s.prof.width →
      ∃ t, exec (.line e pixels) s = .next t ∧ aborts t ∧ t.sp.cond = .foreign ∧
        t.sp.lineCount = (if s.sp.lineCount < s.prof.height + 1 then s.sp.lineCount + 1 else s.sp.lineCount) ∧
        t.hr = fated.abortRing ∧ t.sp.closeBad = (s.slot k).bad ∧
        s.noticed t (.foreignFrame (if s.prof.height ≤ s.sp.lineCount then s.sp.firstPixels else pixels.length)
          t.sp.lineCount)) ∧
    (s.sp.lineCount ≠ s.prof.height →
      ∃ t, exec .frameEnd s = .next t ∧ aborts t ∧ t.sp.cond = .none ∧ t.sp.lineCount = s.sp.lineCount ∧
        t.hr = s.closeRing (s.slot k).bad false fated.abortRing ∧
        s.noticed t (.foreignFrame s.sp.firstPixels s.sp.lineCount))

/-- A Frame End with a line count equal to the height completes the frame: it is dropped in GUARDED with bad strips, freed
ERROR_DROPPED, and otherwise COMPLETE and ready, an older ready frame freed REPLACED, or on screen; a clean frame lowers the
score by one and hands over its fill sample, a damaged one adds 8. A change of source state has its notice, and one outside
CLEAN and WATCH drops the lock with its notice. A frame off the screen that was not eligible becomes so: in BLANK_OPEN under
ADAPTIVE a NEW refresh of it starts at once, in SCAN with the watch open under SPLICE it is spliced to, or the watch closes
past the splice limit, and where no refresh starts the pacing unit takes its phase measurement. The ring takes the fates, the
presentation and the close. Where no refresh starts, every slot record and marker is as the completion or the splice leaves
it, and the profile, the colour stage, the output and, below 128, the interval window and a damaged frame's fill window stay
(R8, R9, R12, R14, R18, R19, R33, R35, R36, R37, R47, R54, R60, R64, R74, R77, R80, R83, R84, R92, R105, R106,
R155, R156, R158; with Ti undefined the next fixed interval stays, Log 32; the counts and the mark kept after the Frame
End are Log 34). -/
def Obligations.FrameEndCompletes : Prop :=
  ∀ (s : State) (k : Slot) (first : Time), s.running → s.sp.state.attached = true → s.sp.cond = .taken →
    s.sp.lineCount = s.prof.height → s.pool.filling = some k → (s.slot k).firstLine = some first → s.poolHolds →
    s.sp.score ≤ 127 →
    let bad := (s.slot k).bad
    let score := if bad = 0 then s.sp.score - 1 else s.sp.score + 8
    ∃ t, exec .frameEnd s = .next t ∧ t.sp.cond = .none ∧ t.pool.filling = none ∧ t.sp.score = score ∧
      t.sp.state = bandOf score ∧ t.sp.frameCounter = s.sp.frameCounter ∧ t.pf = s.pf ∧
      t.sp = { s.sp with
        cond := .none, stripErr := false, score := score, state := bandOf score
        cleanRun := if score < 128 then s.sp.cleanRun else 0
        prevRef := if score < 128 then s.sp.prevRef else none } ∧
      t.pool.store = s.pool.store ∧ t.timeBase = s.timeBase ∧
      (∀ r ∈ t.hr, r.frameNo = s.sp.frameCounter →
        r.completion = some s.timeBase ∧ r.bad = bad ∧ r.truncated = false) ∧
      t.hr = s.completedRing k ∧
      (bandOf score ≠ s.sp.state → s.noticed t (.sourceState (bandOf score) score)) ∧
      (s.sp.state = .guarded → bad ≠ 0 → t.slot k = SlotRec.free ∧ t.pool.isFree k = true ∧
        t.pool.ready = s.pool.ready) ∧
      (¬ (s.sp.state = .guarded ∧ bad ≠ 0) → s.pool.onScreen ≠ some k →
        ∀ r, s.pool.ready = some r → t.slot r = SlotRec.free) ∧
      (128 ≤ score → t.sp.cleanRun = 0 ∧ t.sp.prevRef = none ∧ t.ps.detachTime = some s.timeBase ∧
        t.pu.intervals = [] ∧ t.pu.fills = []) ∧
      (let falls := bandOf score ≠ s.sp.state ∧ (bandOf score).healthy = false
       let takes := ¬ (s.sp.state = .guarded ∧ bad ≠ 0) ∧ s.pool.onScreen ≠ some k ∧ (s.slot k).eligible = false
       let opens := s.otg.timing = .blankOpen ∧ s.otg.mode = some .adaptive ∧ s.ps.blankActive = false
       (¬ takes → s.lockDrops t falls) ∧
       (takes → ¬ opens → s.measured.lockDrops t falls) ∧
       (¬ (takes ∧ opens) →
         (128 ≤ score → s.intervalsTaken t) ∧
         (score < 128 → t.otg.planCount = s.otg.planCount ∧ t.otg.repeatTimer = s.otg.repeatTimer)) ∧
       let done := { s with pool := s.completedPool k }
       let splices := takes ∧ s.otg.timing = .scan ∧ s.ps.watchOpen = true ∧ s.prof.tear = .splice ∧
         s.otg.nextStrip ≤ s.prof.spliceLimit
       (takes → opens → t.pool = { done.shownPool with q := t.pool.q }) ∧
       (splices → t.pool = { done.splicedPool k with q := t.pool.q }) ∧
       (¬ (takes ∧ opens) →
         (¬ splices → t.pool = { done.pool with q := t.pool.q }) ∧
         t.pc = s.pc ∧ t.cs = s.cs ∧ t.panel = s.panel ∧
         t.otg = { s.otg with
           lock := t.otg.lock, planCount := t.otg.planCount, repeatTimer := t.otg.repeatTimer } ∧
         t.ps = { s.ps with
           watchOpen := s.ps.watchOpen && !decide (takes ∧ s.otg.timing = .scan ∧ s.prof.tear = .splice)
           detachTime := if score < 128 then s.ps.detachTime else some s.timeBase
           q := t.ps.q } ∧
         (score < 128 → t.pu.intervals = s.pu.intervals ∧ (bad ≠ 0 → t.pu.fills = s.pu.fills)))) ∧
      (¬ (s.sp.state = .guarded ∧ bad ≠ 0) →
        (t.slot k).fill = .complete ∧ (t.slot k).lastLine = some s.timeBase ∧
        (t.pool.ready = some k ∨ t.pool.onScreen = some k)) ∧
      (bad = 0 →
        t.pu.fills = (if s.pu.fills.length < 4 then s.pu.fills else s.pu.fills.drop 1) ++ [elapsed s.timeBase first]) ∧
      (¬ (s.sp.state = .guarded ∧ bad ≠ 0) → s.pool.onScreen ≠ some k → (s.slot k).eligible = false →
        let opens := s.otg.timing = .blankOpen ∧ s.otg.mode = some .adaptive ∧ s.ps.blankActive = false
        (opens →
          t.otg.timing = .scan ∧ t.otg.tLast = s.timeBase ∧ t.otg.nextStrip = 0 ∧ t.otg.minPassed = false ∧
          t.panel.refreshAt = some s.timeBase ∧ t.ps.lastKind = some .new ∧ t.pool.onScreen = some k ∧
          t.pool.ready = none ∧ t.pool.cands = [] ∧ t.pool.held = s.pool.held ∧ (t.slot k).presented = true ∧
          (t.slot k).shownTop = true ∧ (score < 128 → s.repeatLoaded t false)) ∧
        (¬ opens → t.otg.timing = s.otg.timing ∧ t.otg.tLast = s.otg.tLast ∧ (t.slot k).eligible = true ∧
          ((bandOf score).healthy = true →
            t.otg.lock = s.measured.otg.lock ∧ t.pu.armed = s.measured.pu.armed ∧
            t.pu.nextFixed = s.measured.pu.nextFixed ∧ t.pu.good = s.measured.pu.good ∧
            t.pu.bad = s.measured.pu.bad)) ∧
        (s.otg.timing = .scan → s.ps.watchOpen = true → s.prof.tear = .splice →
          t.ps.watchOpen = false ∧ t.ps.lastKind = s.ps.lastKind ∧
          (s.otg.nextStrip ≤ s.prof.spliceLimit →
            t.pool.onScreen = some k ∧ t.pool.ready = none ∧ (t.slot k).presented = true ∧
            (t.slot k).shownTop = (s.slot k).shownTop) ∧
          (s.prof.spliceLimit < s.otg.nextStrip →
            t.pool.onScreen = s.pool.onScreen ∧ t.pool.ready = some k)))

/-- A Packet longer than 28 bytes, or one that no enabled entry matches, has no effect on the filter; otherwise the
lowest-numbered matching entry captures it, with the changed flag and a notice when its content is new, and with the
stamps alone when it is not (R48, R147, R148, R149). -/
def Obligations.PacketIsCaptured : Prop :=
  ∀ (s : State) (ptype version : Byte) (payload : List Byte), s.running → payload.length ≤ 255 →
    let identity : BitVec 16 := ptype ++ version
    let matched := fun i : Fin 4 =>
      s.pf.entries[i].enabled = true ∧ (identity ^^^ s.pf.entries[i].code) &&& s.pf.entries[i].mask = 0
    let captured := fun (i : Fin 4) (c : Capture) =>
      { s with pf := { s.pf with captures := s.pf.captures.set i.val (some c) i.isLt } }
    (28 < payload.length ∨ (∀ i, ¬ matched i) →
      exec (.packet ptype version payload) s = .next (settle s)) ∧
    (payload.length ≤ 28 → ∀ i, matched i → (∀ j < i, ¬ matched j) →
      (∀ c, s.pf.captures[i] = some c → c.ptype = ptype → c.version = version → c.payload = payload →
        exec (.packet ptype version payload) s = .next (settle (captured i
          { c with arrival := s.timeBase, frameCounter := s.sp.frameCounter }))) ∧
      ((∀ c, s.pf.captures[i] = some c → ¬ (c.ptype = ptype ∧ c.version = version ∧ c.payload = payload)) →
        let t := captured i ⟨ptype, version, payload, s.timeBase, s.sp.frameCounter, true⟩
        exec (.packet ptype version payload) s =
          .next (settle (raise (.packetChanged t.pf.changedSet) t))))

/-! The output timing generator and the scheduler -/

/-- The expiries that start no refresh: Tmin in SCAN sets the min-passed marker and in BLANK_MIN opens the window, a repeat
expiry before the window is kept, a planned repeat is skipped for an arriving frame and the backstop loaded, at its expiry
or, where it was kept, as the window opens, and a fixed expiry in SCAN is kept (R69, R73, R74, R75, R76, R79). -/
def Obligations.QuietExpiries : Prop :=
  ∀ s : State, s.running →
    (tminDue s = true →
      (s.otg.timing = .scan → exec .tminExpiry s = .next (settle { s with otg := { s.otg with
        tminTimer := .stopped, minPassed := true } })) ∧
      (s.otg.timing = .blankMin → s.otg.keptRepeat = false →
        (∀ k ∈ s.pool.cands, (s.slot k).eligible = false) ∨ s.ps.blankActive = true →
        exec .tminExpiry s = .next (settle { s with otg := { s.otg with
          tminTimer := .stopped, timing := .blankOpen } })) ∧
      ∀ k, s.otg.timing = .blankMin → s.otg.keptRepeat = true → ¬ s.opensOnFrame → 0 < s.otg.planCount →
        s.pool.filling = some k → 0 < (s.slot k).filled → (s.slot k).eligible = false →
        exec .tminExpiry s = .next (settle { s with otg := { s.otg with
          tminTimer := .stopped, timing := .blankOpen, keptRepeat := false, planCount := 0
          repeatTimer := .running (plusTicks s.otg.tLast s.prof.winMax) } })) ∧
    (repeatDue s = true →
      (s.otg.timing ∈ [Timing.scan, .blankMin] → exec .repeatTimerExpiry s = .next (settle { s with otg := { s.otg with
        repeatTimer := .stopped, keptRepeat := true } })) ∧
      ∀ k, s.otg.timing = .blankOpen → 0 < s.otg.planCount → s.pool.filling = some k → 0 < (s.slot k).filled →
        (s.slot k).eligible = false →
        exec .repeatTimerExpiry s = .next (settle { s with otg := { s.otg with
          planCount := 0, repeatTimer := .running (plusTicks s.otg.tLast s.prof.winMax) } })) ∧
    (fixedDue s = true → s.otg.timing = .scan →
      exec .fixedTimerExpiry s = .next (settle { s with otg := { s.otg with
        fixedTimer := .stopped, keptFixed := true } }))

/-- The expiries that start a refresh: Tmin in BLANK_MIN with an eligible candidate or a kept repeat expiry, a planned
repeat and the backstop in BLANK_OPEN, the fixed timer in BLANK. Its kind and slot are by the scheduler's tests, every slot
record, marker and list entry is as the role change leaves it, the presentation is reported to the ring, the timers are
loaded by the mode, the lock may move to ACQUIRE and the measurement is armed, and pending tune fields are merged and a
changed Q published (R13, R15, R16, R57, R60, R69 to R76, R79, R81, R92 to R98, R141, R156; with tune fields pending the
order of merge, publication and choice is free, Log 10, and so is that of a frame they make eligible against the arming, Log
11; with Ti undefined the next fixed interval stays, Log 32). -/
def Obligations.ExpiriesStartRefresh : Prop :=
  ∀ (s : State) (c : Instr) (planned : Bool), s.running → s.expiryStarts c planned →
    ∃ t, exec c s = .next t ∧ s.refreshMade t planned ∧
      (c = .fixedTimerExpiry → s.fixedLoaded s.pu.nextFixed t ∨ s.pc.tune ≠ TuneSet.empty ∧ s.startMet t)

/-- A strip read at which no splice is made sends strip k from the source of R100 in the settings of the scan, counts a
substitution against the on-screen frame, closes the splice watch under SPLICE when k has passed the splice limit, and opens
it after strip 0 of a NEW or REPEAT refresh (R71, R100, R101, R103, R104, R105, R113, R157). -/
def Obligations.StripReadSendsStrip : Prop :=
  ∀ s : State, s.running → stripDue s = true →
    ¬ (s.ps.watchOpen = true ∧ s.prof.tear = .splice ∧ s.otg.nextStrip ≤ s.prof.spliceLimit ∧
      (s.spliceCandidate s.otg.nextStrip).isSome = true) →
    let k := s.otg.nextStrip
    let set := if k = 0 then s.prof.settings else s.settings
    let src := s.pool.sourceOf k
    let lines : List (List OutPixel) :=
      match src with
      | .onScreen a | .heldSlot a =>
        (Store.strip s.pool.store a k s.prof.width).map fun l => l.map (colourPixel set s.cs.active)
      | .blank => List.replicate 8 (List.replicate s.prof.width (blankPixel set))
    exec .stripRead s = .next (settle { s with
      otg := { s.otg with nextStrip := k + 1 }
      cs := if k = 0 then { s.cs with scan := some s.prof.settings } else s.cs
      panel := { s.panel with strip := some ⟨k, s.timeBase, src, set.depth, lines⟩ }
      hr :=
        match s.pool.onScreen with
        | some a =>
          if k < (s.slot a).filled then s.hr
          else
            match (s.slot a).frameNo with
            | some n => s.hr.map fun r => if r.frameNo = n then
                { r with substituted := min 65535 (r.substituted + 1) } else r
            | none => s.hr
        | none => s.hr
      ps :=
        if s.ps.watchOpen = true ∧ s.prof.tear = .splice ∧ s.prof.spliceLimit < k then { s.ps with watchOpen := false }
        else if k = 0 ∧ (s.ps.lastKind = some .new ∨ s.ps.lastKind = some .repeated) then
          { s.ps with watchOpen := true }
        else s.ps })

/-- A strip read that finds the splice condition holding hands the screen to the newest candidate that meets it: the frame
that leaves becomes held if it is COMPLETE, the watch closes, no refresh starts, and strip k comes from the new frame or
its substitute. The ring takes the fates of the frame that leaves and of the older candidates, the presentation with its
entry strip and without a latency, and a substitution if the strip is one; the strip goes out in the settings of the scan, and
every other slot record and marker stays (R18, R19, R100, R101, R104, R105, R106, R156, R157, R158). -/
def Obligations.StripReadSplices : Prop :=
  ∀ (s : State) (n : Slot), s.running → stripDue s = true → s.poolHolds → 0 < s.otg.nextStrip →
    s.ps.watchOpen = true → s.prof.tear = .splice → s.otg.nextStrip ≤ s.prof.spliceLimit →
    s.spliceCandidate s.otg.nextStrip = some n →
    ∃ t, exec .stripRead s = .next t ∧ s.splicedTo n t ∧
      t.otg = { s.otg with nextStrip := s.otg.nextStrip + 1 } ∧
      (let ring := s.splicedRing s.otg.nextStrip n
       t.hr = if s.otg.nextStrip < (s.slot n).filled then ring
        else ring.map fun r => if (s.slot n).frameNo = some r.frameNo then
          { r with substituted := min 65535 (r.substituted + 1) } else r) ∧
      (let src := t.pool.sourceOf s.otg.nextStrip
       let lines : List (List OutPixel) :=
        match src with
        | .onScreen a | .heldSlot a =>
          (Store.strip s.pool.store a s.otg.nextStrip s.prof.width).map fun l =>
            l.map (colourPixel s.settings s.cs.active)
        | .blank => List.replicate 8 (List.replicate s.prof.width (blankPixel s.settings))
       t.panel = { s.panel with strip := some ⟨s.otg.nextStrip, s.timeBase, src, s.settings.depth, lines⟩ })

/-- A scan end: the splice watch closes, and the on-screen slot becomes held, returns to the list, or is freed by its fill
state, with its fate. With nothing pending the generator goes to BLANK_MIN or, Tmin having passed, to BLANK_OPEN, and to
BLANK under FIXED; a refresh follows at once in BLANK_OPEN with an eligible candidate or a kept repeat expiry that goes, and
in BLANK with a kept fixed expiry, and a kept planned repeat is skipped for an arriving frame with the backstop loaded. With
something pending the reset point comes first and then the application, each with its reply (R17, R18, R71, R73, R74, R75,
R76, R79, R85, R88, R99, R138, R142, R167). The model's choices: both at one scan end (Log 22); at a refresh the order of
merge, publication and choice (Log 10), the order of a frame they make eligible against the arming (Log 11), and the next
fixed interval kept with Ti undefined (Log 32); at an application the restart whatever the publication of Q marks (Log 12),
the clean run of 0 (Log 15), the bad strips of a foreign frame (Log 16) and the line count and the marks kept for a frame
passed over (Log 33, Log 34); at either point the next strip kept (Log 36) and a window that may keep the sample of this
same moment (R52, R54; Log 37). -/
def Obligations.ScanEndHandlesScreen : Prop :=
  ∀ s : State, s.running → scanEndDue s = true → s.poolHolds →
    let u := s.screenEnded
    let goes := fun x : Timing => { u with otg := { u.otg with timing := x } }
    (s.otg.pendingApp = false → s.otg.pendingReset = false →
      (s.otg.mode = some .adaptive → s.otg.minPassed = false → exec .scanEnd s = .next (settle (goes .blankMin))) ∧
      (s.otg.mode = some .adaptive → s.otg.minPassed = true →
        (¬ u.opensOnFrame → s.otg.keptRepeat = false → exec .scanEnd s = .next (settle (goes .blankOpen))) ∧
        (∀ k, ¬ u.opensOnFrame → s.otg.keptRepeat = true → 0 < s.otg.planCount → s.pool.filling = some k →
          0 < (s.slot k).filled → (s.slot k).eligible = false →
          exec .scanEnd s = .next (settle { u with otg := { u.otg with
            timing := .blankOpen, keptRepeat := false, planCount := 0
            repeatTimer := .running (plusTicks s.otg.tLast s.prof.winMax) } })) ∧
        ∀ planned, u.opensWithRefresh planned → ∃ t, exec .scanEnd s = .next t ∧ u.refreshMade t planned) ∧
      (s.otg.mode = some .fixed → s.otg.keptFixed = false → exec .scanEnd s = .next (settle (goes .blank))) ∧
      (s.otg.mode = some .fixed → s.otg.keptFixed = true →
        ∃ t, exec .scanEnd s = .next t ∧ u.refreshMade t false ∧ t.otg.keptFixed = false ∧
          (u.fixedLoaded s.pu.nextFixed t ∨ s.pc.tune ≠ TuneSet.empty ∧ u.startMet t))) ∧
    (∀ old, s.pc.active = some old →
      (s.otg.pendingReset = true → s.otg.pendingApp = false →
        ∃ t, exec .scanEnd s = .next t ∧ u.resetAs old t ∧
          ∀ tag, s.ml.defReset = .waiting tag → s.ml.doneOrder = [] → s.ml.replies.length < 4 →
            t.ml.replies = s.ml.replies ++ [⟨tag, .ok, 0, []⟩] ∧ t.ml.defReset = .empty) ∧
      ∀ p, s.pc.proposal = some p → s.otg.pendingApp = true →
        (s.otg.pendingReset = false →
          ∃ t, exec .scanEnd s = .next t ∧ u.appliedAs old p t ∧
            ∀ tag, s.ml.defProfile = .waiting tag → s.ml.doneOrder = [] → s.ml.replies.length < 4 →
              t.ml.replies = s.ml.replies ++ [⟨tag, .ok, 0, []⟩] ∧ t.ml.defProfile = .empty) ∧
        (s.otg.pendingReset = true →
          ∃ m t, u.resetAs old m ∧ exec .scanEnd s = .next t ∧ m.appliedAs (old.withTune s.pc.tune) p t ∧
            ∀ a b, s.ml.defReset = .waiting a → s.ml.defProfile = .waiting b → s.ml.doneOrder = [] →
              s.ml.replies.length ≤ 2 →
              t.ml.replies = s.ml.replies ++ [⟨a, .ok, 0, []⟩, ⟨b, .ok, 0, []⟩]))

/-! Arithmetic -/

/-- Q is unknown without a profile and without Fi, and otherwise the race threshold: between 1 and S, the smaller of S and
Mg more than the least base of at least 1 whose multiple of Fi covers Nq = S × Fi - (S - 1) × So (R55). -/
def Obligations.RaceThresholdIsLeast : Prop :=
  ∀ (p : Profile) (fi : Nat), 1 ≤ p.strips →
    (computeQ none (some fi) = none ∧ computeQ (some p) none = none ∧ computeQ none none = none) ∧
    ∃ q, computeQ (some p) (some fi) = some q ∧
      let nq : Int := (p.strips : Int) * fi - ((p.strips : Int) - 1) * p.scanTime
      1 ≤ q ∧ q ≤ p.strips ∧
        ∃ base, q = min p.strips (base + p.raceMargin) ∧ 1 ≤ base ∧ nq ≤ (base : Int) * fi ∧
          ∀ b, 1 ≤ b → nq ≤ (b : Int) * fi → base ≤ b

/-- The repeat plan: active exactly under ADAPTIVE with repeat_plan on and Ti above Tmax; k is the least integer of at
least 2 with floor(Ti / k) ≤ Tmax, Tr = floor(Ti / k) lies in [Tmin, Tmax] and k is at most 41; otherwise k and Tr are 0
(R58). -/
def Obligations.RepeatPlanDividesInterval : Prop :=
  (∀ p ti, (∀ q t, p = some q → ti = some t → ¬ (q.pacing = .adaptive ∧ q.repeatPlan = true ∧ q.winMax < t)) →
    planOf p ti = (false, 0, 0)) ∧
  ∀ (p : Profile) (ti : Nat), p.pacing = .adaptive → p.repeatPlan = true → p.winMax < ti → ti ≤ 16777216 →
    208333 ≤ p.winMin → 2 * p.winMin ≤ p.winMax →
    ∃ k tr, planOf (some p) (some ti) = (true, k, tr) ∧ 2 ≤ k ∧ ti / k ≤ p.winMax ∧
      (∀ j, 2 ≤ j → j < k → p.winMax < ti / j) ∧ k ≤ 41 ∧ tr = ti / k ∧ p.winMin ≤ tr ∧ tr ≤ p.winMax

/-- The phase error is the phase against Tf - G, folded by Tf at most once and then within half an interval; the correction
is floor((d + 4) / 8) held to Cmax of the lock state, 0 from -4 to 3; the hold to the bounds of
the next fixed interval leaves a value between them as it is, and they lie in the window and within Tf / 64 of Tf (R61, R62,
R63). -/
def Obligations.LockArithmetic : Prop :=
  (∀ (p : Profile) (phase : Nat),
    let tf : Int := p.fixedInterval
    let d0 : Int := (phase : Int) - (tf - p.lockGuard)
    let half : Int := (p.fixedInterval / 2 : Nat)
    (half < d0 → phaseError p phase = d0 - tf) ∧ (d0 ≤ -half → ¬ half < d0 → phaseError p phase = d0 + tf) ∧
      (-half < d0 → d0 ≤ half → phaseError p phase = d0) ∧
      (p.lockGuard ≤ p.fixedInterval / 4 → (phase : Int) ≤ tf + tf / 4 → 2 ≤ tf →
        -half - 1 ≤ phaseError p phase ∧ phaseError p phase ≤ half + 1)) ∧
  (∀ (p : Profile) (l : Lock) (d : Int),
    let c := correction p l d
    let cmax : Int := (match l with
      | .acquire => p.fixedInterval / 128
      | .track => p.fixedInterval / 2048
      | .freeRun => 0)
    c ≤ cmax ∧ -cmax ≤ c ∧ (-4 ≤ d → d ≤ 3 → c = 0) ∧
      (-cmax ≤ (d + 4) / 8 → (d + 4) / 8 ≤ cmax → 8 * c ≤ d + 4 ∧ d + 4 < 8 * c + 8) ∧
      (cmax < (d + 4) / 8 → c = cmax) ∧ ((d + 4) / 8 < -cmax → c = -cmax)) ∧
  ∀ (p : Profile) (x : Int), p.winMin ≤ p.fixedInterval → p.fixedInterval ≤ p.winMax →
    p.winMin ≤ clampFixed p x ∧ clampFixed p x ≤ p.winMax ∧
    p.fixedInterval - p.fixedInterval / 64 ≤ clampFixed p x ∧
    clampFixed p x ≤ p.fixedInterval + p.fixedInterval / 64 ∧
    (max (p.winMin : Int) (p.fixedInterval - p.fixedInterval / 64) ≤ x →
      x ≤ min (p.winMax : Int) (p.fixedInterval + p.fixedInterval / 64) → (clampFixed p x : Int) = x)

/-- The colour path of one channel: between two entries the table's value is their rounded weighted mean and never leaves
their range, and without the table it is four times the component; depth 10 rounds to a quarter and depth 8 to a sixteenth,
clamped at the top; the mask keeps its bits, at depth 8 its low eight; under the identity table each output at depth 10
equals its input. Each channel of a pixel goes this way with its own component, its own component of each entry and its own
mask, and a channel of the blank colour takes its own 12-bit value past the table to the depth and the mask
(R114, R115, R116, R117, R118, R119). -/
def Obligations.ColourPathRounds : Prop :=
  (∀ (bank : List Colour) (comp : Colour → BitVec 12) (v : Nat),
    let lo := bankEntry bank comp (v / 4)
    let hi := bankEntry bank comp (v / 4 + 1)
    let mean4 := lo * (4 - v % 4) + hi * (v % 4) + 2
    4 * lutMap bank comp v ≤ mean4 ∧ mean4 < 4 * lutMap bank comp v + 4 ∧
      min lo hi ≤ lutMap bank comp v ∧ lutMap bank comp v ≤ max lo hi ∧ lutMap bank comp v ≤ 4095 ∧
      (v % 4 = 0 → lutMap bank comp v = lo)) ∧
  (∀ x, x ≤ 4095 → reduceDepth .d10 x ≤ 1023 ∧ reduceDepth .d8 x ≤ 255 ∧
    (x < 4094 → 4 * reduceDepth .d10 x ≤ x + 2 ∧ x < 4 * reduceDepth .d10 x + 2) ∧
    (4094 ≤ x → reduceDepth .d10 x = 1023) ∧
    (x < 4088 → 16 * reduceDepth .d8 x ≤ x + 8 ∧ x < 16 * reduceDepth .d8 x + 8) ∧
    (4088 ≤ x → reduceDepth .d8 x = 255)) ∧
  (∀ (m : BitVec 10) (x : Nat) (i : Nat), x ≤ 1023 →
    ((maskComponent .d10 m x).getLsbD i = (x.testBit i && m.getLsbD i)) ∧
    (x ≤ 255 → (maskComponent .d8 m x).getLsbD i = (x.testBit i && m.getLsbD i && decide (i < 8)))) ∧
  (∀ v : BitVec 10,
    lutMap State.reset.cs.active Three.c0 v.toNat = (if v.toNat = 1023 then 4091 else 4 * v.toNat) ∧
    (∀ bank, out12 false bank Three.c0 v.toNat = 4 * v.toNat) ∧
    ∀ lut, finishComponent .d10 1023 (out12 lut State.reset.cs.active Three.c0 v.toNat) = v) ∧
  ∀ (set : ScanSettings) (bank : List Colour) (p : Pixel),
    let finished := fun (m : BitVec 10) (x : Nat) => maskComponent set.depth m (reduceDepth set.depth x)
    let shown := fun (comp : Colour → BitVec 12) (v : BitVec 10) =>
      if set.lut = true then lutMap bank comp v.toNat else 4 * v.toNat
    colourPixel set bank p =
      ⟨finished set.mask.c0 (shown (fun e => e.c0) p.c0), finished set.mask.c1 (shown (fun e => e.c1) p.c1),
        finished set.mask.c2 (shown (fun e => e.c2) p.c2)⟩ ∧
    blankPixel set =
      ⟨finished set.mask.c0 set.blank.c0.toNat, finished set.mask.c1 set.blank.c1.toNat,
        finished set.mask.c2 set.blank.c2.toNat⟩

end
end

