-- ==== Sys2Proof/Laws/State.lean ====
section
/-! SUPPORT. One lemma per update of the state: what each field holds after it. -/

namespace Sys2Proof.Machine

/-- What `setTimeBase` leaves. -/
@[simp] theorem State.setTimeBase_fields (s : State) (x : Time) :
    (s.setTimeBase x).timeBase = x ∧ (s.setTimeBase x).resetAsserted = s.resetAsserted ∧
    (s.setTimeBase x).pool = s.pool ∧ (s.setTimeBase x).sp = s.sp ∧ (s.setTimeBase x).pu = s.pu ∧
    (s.setTimeBase x).otg = s.otg ∧ (s.setTimeBase x).ps = s.ps ∧ (s.setTimeBase x).cs = s.cs ∧
    (s.setTimeBase x).pc = s.pc ∧ (s.setTimeBase x).pf = s.pf ∧ (s.setTimeBase x).hr = s.hr ∧
    (s.setTimeBase x).ml = s.ml ∧ (s.setTimeBase x).panel = s.panel ∧ (s.setTimeBase x).choices = s.choices ∧
    (s.setTimeBase x).pending = s.pending :=
  ⟨rfl, rfl, rfl, rfl, rfl, rfl, rfl, rfl, rfl, rfl, rfl, rfl, rfl, rfl, rfl⟩

/-- What `setPool` leaves. -/
@[simp] theorem State.setPool_fields (s : State) (x : SlotPool) :
    (s.setPool x).timeBase = s.timeBase ∧ (s.setPool x).resetAsserted = s.resetAsserted ∧
    (s.setPool x).pool = x ∧ (s.setPool x).sp = s.sp ∧ (s.setPool x).pu = s.pu ∧ (s.setPool x).otg = s.otg ∧
    (s.setPool x).ps = s.ps ∧ (s.setPool x).cs = s.cs ∧ (s.setPool x).pc = s.pc ∧ (s.setPool x).pf = s.pf ∧
    (s.setPool x).hr = s.hr ∧ (s.setPool x).ml = s.ml ∧ (s.setPool x).panel = s.panel ∧
    (s.setPool x).choices = s.choices ∧ (s.setPool x).pending = s.pending :=
  ⟨rfl, rfl, rfl, rfl, rfl, rfl, rfl, rfl, rfl, rfl, rfl, rfl, rfl, rfl, rfl⟩

/-- What `setSp` leaves. -/
@[simp] theorem State.setSp_fields (s : State) (x : SourcePort) :
    (s.setSp x).timeBase = s.timeBase ∧ (s.setSp x).resetAsserted = s.resetAsserted ∧
    (s.setSp x).pool = s.pool ∧ (s.setSp x).sp = x ∧ (s.setSp x).pu = s.pu ∧ (s.setSp x).otg = s.otg ∧
    (s.setSp x).ps = s.ps ∧ (s.setSp x).cs = s.cs ∧ (s.setSp x).pc = s.pc ∧ (s.setSp x).pf = s.pf ∧
    (s.setSp x).hr = s.hr ∧ (s.setSp x).ml = s.ml ∧ (s.setSp x).panel = s.panel ∧
    (s.setSp x).choices = s.choices ∧ (s.setSp x).pending = s.pending :=
  ⟨rfl, rfl, rfl, rfl, rfl, rfl, rfl, rfl, rfl, rfl, rfl, rfl, rfl, rfl, rfl⟩

/-- What `setPu` leaves. -/
@[simp] theorem State.setPu_fields (s : State) (x : PacingUnit) :
    (s.setPu x).timeBase = s.timeBase ∧ (s.setPu x).resetAsserted = s.resetAsserted ∧
    (s.setPu x).pool = s.pool ∧ (s.setPu x).sp = s.sp ∧ (s.setPu x).pu = x ∧ (s.setPu x).otg = s.otg ∧
    (s.setPu x).ps = s.ps ∧ (s.setPu x).cs = s.cs ∧ (s.setPu x).pc = s.pc ∧ (s.setPu x).pf = s.pf ∧
    (s.setPu x).hr = s.hr ∧ (s.setPu x).ml = s.ml ∧ (s.setPu x).panel = s.panel ∧
    (s.setPu x).choices = s.choices ∧ (s.setPu x).pending = s.pending :=
  ⟨rfl, rfl, rfl, rfl, rfl, rfl, rfl, rfl, rfl, rfl, rfl, rfl, rfl, rfl, rfl⟩

/-- What `setOtg` leaves. -/
@[simp] theorem State.setOtg_fields (s : State) (x : OutputTiming) :
    (s.setOtg x).timeBase = s.timeBase ∧ (s.setOtg x).resetAsserted = s.resetAsserted ∧
    (s.setOtg x).pool = s.pool ∧ (s.setOtg x).sp = s.sp ∧ (s.setOtg x).pu = s.pu ∧ (s.setOtg x).otg = x ∧
    (s.setOtg x).ps = s.ps ∧ (s.setOtg x).cs = s.cs ∧ (s.setOtg x).pc = s.pc ∧ (s.setOtg x).pf = s.pf ∧
    (s.setOtg x).hr = s.hr ∧ (s.setOtg x).ml = s.ml ∧ (s.setOtg x).panel = s.panel ∧
    (s.setOtg x).choices = s.choices ∧ (s.setOtg x).pending = s.pending :=
  ⟨rfl, rfl, rfl, rfl, rfl, rfl, rfl, rfl, rfl, rfl, rfl, rfl, rfl, rfl, rfl⟩

/-- What `setPs` leaves. -/
@[simp] theorem State.setPs_fields (s : State) (x : Scheduler) :
    (s.setPs x).timeBase = s.timeBase ∧ (s.setPs x).resetAsserted = s.resetAsserted ∧
    (s.setPs x).pool = s.pool ∧ (s.setPs x).sp = s.sp ∧ (s.setPs x).pu = s.pu ∧ (s.setPs x).otg = s.otg ∧
    (s.setPs x).ps = x ∧ (s.setPs x).cs = s.cs ∧ (s.setPs x).pc = s.pc ∧ (s.setPs x).pf = s.pf ∧
    (s.setPs x).hr = s.hr ∧ (s.setPs x).ml = s.ml ∧ (s.setPs x).panel = s.panel ∧
    (s.setPs x).choices = s.choices ∧ (s.setPs x).pending = s.pending :=
  ⟨rfl, rfl, rfl, rfl, rfl, rfl, rfl, rfl, rfl, rfl, rfl, rfl, rfl, rfl, rfl⟩

/-- What `setCs` leaves. -/
@[simp] theorem State.setCs_fields (s : State) (x : ColourStage) :
    (s.setCs x).timeBase = s.timeBase ∧ (s.setCs x).resetAsserted = s.resetAsserted ∧
    (s.setCs x).pool = s.pool ∧ (s.setCs x).sp = s.sp ∧ (s.setCs x).pu = s.pu ∧ (s.setCs x).otg = s.otg ∧
    (s.setCs x).ps = s.ps ∧ (s.setCs x).cs = x ∧ (s.setCs x).pc = s.pc ∧ (s.setCs x).pf = s.pf ∧
    (s.setCs x).hr = s.hr ∧ (s.setCs x).ml = s.ml ∧ (s.setCs x).panel = s.panel ∧
    (s.setCs x).choices = s.choices ∧ (s.setCs x).pending = s.pending :=
  ⟨rfl, rfl, rfl, rfl, rfl, rfl, rfl, rfl, rfl, rfl, rfl, rfl, rfl, rfl, rfl⟩

/-- What `setPc` leaves. -/
@[simp] theorem State.setPc_fields (s : State) (x : ProfileCtl) :
    (s.setPc x).timeBase = s.timeBase ∧ (s.setPc x).resetAsserted = s.resetAsserted ∧
    (s.setPc x).pool = s.pool ∧ (s.setPc x).sp = s.sp ∧ (s.setPc x).pu = s.pu ∧ (s.setPc x).otg = s.otg ∧
    (s.setPc x).ps = s.ps ∧ (s.setPc x).cs = s.cs ∧ (s.setPc x).pc = x ∧ (s.setPc x).pf = s.pf ∧
    (s.setPc x).hr = s.hr ∧ (s.setPc x).ml = s.ml ∧ (s.setPc x).panel = s.panel ∧
    (s.setPc x).choices = s.choices ∧ (s.setPc x).pending = s.pending :=
  ⟨rfl, rfl, rfl, rfl, rfl, rfl, rfl, rfl, rfl, rfl, rfl, rfl, rfl, rfl, rfl⟩

/-- What `setPf` leaves. -/
@[simp] theorem State.setPf_fields (s : State) (x : PacketFilter) :
    (s.setPf x).timeBase = s.timeBase ∧ (s.setPf x).resetAsserted = s.resetAsserted ∧
    (s.setPf x).pool = s.pool ∧ (s.setPf x).sp = s.sp ∧ (s.setPf x).pu = s.pu ∧ (s.setPf x).otg = s.otg ∧
    (s.setPf x).ps = s.ps ∧ (s.setPf x).cs = s.cs ∧ (s.setPf x).pc = s.pc ∧ (s.setPf x).pf = x ∧
    (s.setPf x).hr = s.hr ∧ (s.setPf x).ml = s.ml ∧ (s.setPf x).panel = s.panel ∧
    (s.setPf x).choices = s.choices ∧ (s.setPf x).pending = s.pending :=
  ⟨rfl, rfl, rfl, rfl, rfl, rfl, rfl, rfl, rfl, rfl, rfl, rfl, rfl, rfl, rfl⟩

/-- What `setHr` leaves. -/
@[simp] theorem State.setHr_fields (s : State) (x : List FrameRec) :
    (s.setHr x).timeBase = s.timeBase ∧ (s.setHr x).resetAsserted = s.resetAsserted ∧
    (s.setHr x).pool = s.pool ∧ (s.setHr x).sp = s.sp ∧ (s.setHr x).pu = s.pu ∧ (s.setHr x).otg = s.otg ∧
    (s.setHr x).ps = s.ps ∧ (s.setHr x).cs = s.cs ∧ (s.setHr x).pc = s.pc ∧ (s.setHr x).pf = s.pf ∧
    (s.setHr x).hr = x ∧ (s.setHr x).ml = s.ml ∧ (s.setHr x).panel = s.panel ∧
    (s.setHr x).choices = s.choices ∧ (s.setHr x).pending = s.pending :=
  ⟨rfl, rfl, rfl, rfl, rfl, rfl, rfl, rfl, rfl, rfl, rfl, rfl, rfl, rfl, rfl⟩

/-- What `setMl` leaves. -/
@[simp] theorem State.setMl_fields (s : State) (x : MessageLink) :
    (s.setMl x).timeBase = s.timeBase ∧ (s.setMl x).resetAsserted = s.resetAsserted ∧
    (s.setMl x).pool = s.pool ∧ (s.setMl x).sp = s.sp ∧ (s.setMl x).pu = s.pu ∧ (s.setMl x).otg = s.otg ∧
    (s.setMl x).ps = s.ps ∧ (s.setMl x).cs = s.cs ∧ (s.setMl x).pc = s.pc ∧ (s.setMl x).pf = s.pf ∧
    (s.setMl x).hr = s.hr ∧ (s.setMl x).ml = x ∧ (s.setMl x).panel = s.panel ∧
    (s.setMl x).choices = s.choices ∧ (s.setMl x).pending = s.pending :=
  ⟨rfl, rfl, rfl, rfl, rfl, rfl, rfl, rfl, rfl, rfl, rfl, rfl, rfl, rfl, rfl⟩

/-- What `setPanel` leaves. -/
@[simp] theorem State.setPanel_fields (s : State) (x : PanelPort) :
    (s.setPanel x).timeBase = s.timeBase ∧ (s.setPanel x).resetAsserted = s.resetAsserted ∧
    (s.setPanel x).pool = s.pool ∧ (s.setPanel x).sp = s.sp ∧ (s.setPanel x).pu = s.pu ∧
    (s.setPanel x).otg = s.otg ∧ (s.setPanel x).ps = s.ps ∧ (s.setPanel x).cs = s.cs ∧
    (s.setPanel x).pc = s.pc ∧ (s.setPanel x).pf = s.pf ∧ (s.setPanel x).hr = s.hr ∧ (s.setPanel x).ml = s.ml ∧
    (s.setPanel x).panel = x ∧ (s.setPanel x).choices = s.choices ∧ (s.setPanel x).pending = s.pending :=
  ⟨rfl, rfl, rfl, rfl, rfl, rfl, rfl, rfl, rfl, rfl, rfl, rfl, rfl, rfl, rfl⟩

/-- What `setChoices` leaves. -/
@[simp] theorem State.setChoices_fields (s : State) (x : Nat) :
    (s.setChoices x).timeBase = s.timeBase ∧ (s.setChoices x).resetAsserted = s.resetAsserted ∧
    (s.setChoices x).pool = s.pool ∧ (s.setChoices x).sp = s.sp ∧ (s.setChoices x).pu = s.pu ∧
    (s.setChoices x).otg = s.otg ∧ (s.setChoices x).ps = s.ps ∧ (s.setChoices x).cs = s.cs ∧
    (s.setChoices x).pc = s.pc ∧ (s.setChoices x).pf = s.pf ∧ (s.setChoices x).hr = s.hr ∧
    (s.setChoices x).ml = s.ml ∧ (s.setChoices x).panel = s.panel ∧ (s.setChoices x).choices = x ∧
    (s.setChoices x).pending = s.pending :=
  ⟨rfl, rfl, rfl, rfl, rfl, rfl, rfl, rfl, rfl, rfl, rfl, rfl, rfl, rfl, rfl⟩

/-- What `setPending` leaves. -/
@[simp] theorem State.setPending_fields (s : State) (x : List Instr) :
    (s.setPending x).timeBase = s.timeBase ∧ (s.setPending x).resetAsserted = s.resetAsserted ∧
    (s.setPending x).pool = s.pool ∧ (s.setPending x).sp = s.sp ∧ (s.setPending x).pu = s.pu ∧
    (s.setPending x).otg = s.otg ∧ (s.setPending x).ps = s.ps ∧ (s.setPending x).cs = s.cs ∧
    (s.setPending x).pc = s.pc ∧ (s.setPending x).pf = s.pf ∧ (s.setPending x).hr = s.hr ∧
    (s.setPending x).ml = s.ml ∧ (s.setPending x).panel = s.panel ∧ (s.setPending x).choices = s.choices ∧
    (s.setPending x).pending = x :=
  ⟨rfl, rfl, rfl, rfl, rfl, rfl, rfl, rfl, rfl, rfl, rfl, rfl, rfl, rfl, rfl⟩

/-- The present moment is the time base. -/
@[simp] theorem State.now_eq (s : State) : s.now = s.timeBase := rfl

/-- Writing a slot's record changes the pool alone. -/
@[simp] theorem State.setSlot_eq (s : State) (k : Slot) (r : SlotRec) : s.setSlot k r = s.setPool (s.pool.setSlot k r) :=
  rfl

/-- Writing a slot's record leaves the markers, the list, the copy of Q and the store. -/
@[simp] theorem SlotPool.setSlot_fields (p : SlotPool) (k : Slot) (r : SlotRec) :
    (p.setSlot k r).filling = p.filling ∧ (p.setSlot k r).ready = p.ready ∧ (p.setSlot k r).held = p.held ∧
    (p.setSlot k r).onScreen = p.onScreen ∧ (p.setSlot k r).cands = p.cands ∧ (p.setSlot k r).q = p.q ∧
    (p.setSlot k r).store = p.store :=
  ⟨rfl, rfl, rfl, rfl, rfl, rfl, rfl⟩

/-- The record just written is the record read. -/
@[simp] theorem SlotPool.slot_setSlot_self (p : SlotPool) (k : Slot) (r : SlotRec) : (p.setSlot k r).slot k = r := by
  simp [SlotPool.slot, SlotPool.setSlot]

/-- Writing one record leaves the others. -/
theorem SlotPool.slot_setSlot_ne (p : SlotPool) {k j : Slot} (r : SlotRec) (h : j ≠ k) :
    (p.setSlot k r).slot j = p.slot j := by
  have hv : k.val ≠ j.val := fun e => h (Fin.ext e.symm)
  simp [SlotPool.slot, SlotPool.setSlot, hv]

end Sys2Proof.Machine
end

