-- ==== Sys2Proof/Laws/Frames.lean ====
section
/-! SUPPORT. For each shared operation, once, what it leaves unchanged: history, link, slot pool, pacing and colour. -/

namespace Sys2Proof.Machine

/-- A report leaves the numbers of the ring's records. -/
theorem map_report_frameNo (n : FrameNo) (f : FrameRec → FrameRec) (hf : ∀ r, (f r).frameNo = r.frameNo)
    (l : List FrameRec) :
    (l.map fun r => if r.frameNo = n then f r else r).map FrameRec.frameNo = l.map FrameRec.frameNo := by
  rw [List.map_map]
  apply List.map_congr_left
  intro r _
  simp only [Function.comp]
  split
  · exact hf r
  · rfl

/-- A report changes the ring alone. -/
@[simp] theorem onRecord_frame (n : FrameNo) (f : FrameRec → FrameRec) (s : State) :
    (onRecord n f s).timeBase = s.timeBase ∧ (onRecord n f s).resetAsserted = s.resetAsserted ∧
    (onRecord n f s).pool = s.pool ∧ (onRecord n f s).sp = s.sp ∧ (onRecord n f s).pu = s.pu ∧
    (onRecord n f s).otg = s.otg ∧ (onRecord n f s).ps = s.ps ∧ (onRecord n f s).cs = s.cs ∧
    (onRecord n f s).pc = s.pc ∧ (onRecord n f s).pf = s.pf ∧ (onRecord n f s).ml = s.ml ∧
    (onRecord n f s).panel = s.panel ∧ (onRecord n f s).choices = s.choices ∧
    (onRecord n f s).pending = s.pending := by
  simp [onRecord]

/-- A report leaves the numbers of the ring's records. -/
theorem onRecord_frameNo (n : FrameNo) (f : FrameRec → FrameRec) (hf : ∀ r, (f r).frameNo = r.frameNo) (s : State) :
    (onRecord n f s).hr.map FrameRec.frameNo = s.hr.map FrameRec.frameNo := by
  simp only [onRecord, State.setHr_fields]
  exact map_report_frameNo n f hf s.hr

/-- A fate report leaves the number of a record. -/
@[simp] theorem FrameRec.withFate_frameNo (fate : Fate) (r : FrameRec) : (r.withFate fate).frameNo = r.frameNo := by
  simp only [FrameRec.withFate]
  split <;> rfl

/-- What `reportFate` leaves unchanged. -/
@[simp] theorem reportFate_frame (n : FrameNo) (fate : Fate) (s : State) :
    (reportFate n fate s).timeBase = s.timeBase ∧ (reportFate n fate s).resetAsserted = s.resetAsserted ∧
    (reportFate n fate s).pool = s.pool ∧ (reportFate n fate s).sp = s.sp ∧ (reportFate n fate s).pu = s.pu ∧
    (reportFate n fate s).otg = s.otg ∧ (reportFate n fate s).ps = s.ps ∧ (reportFate n fate s).cs = s.cs ∧
    (reportFate n fate s).pc = s.pc ∧ (reportFate n fate s).pf = s.pf ∧ (reportFate n fate s).ml = s.ml ∧
    (reportFate n fate s).panel = s.panel ∧ (reportFate n fate s).choices = s.choices ∧
    (reportFate n fate s).pending = s.pending ∧
    (reportFate n fate s).hr.map FrameRec.frameNo = s.hr.map FrameRec.frameNo := by
  have h := onRecord_frameNo n (FrameRec.withFate fate) (fun r => by simp) s
  simp only [reportFate] at h ⊢
  simp [h]

/-- What `reportCompletion` leaves unchanged. -/
@[simp] theorem reportCompletion_frame (n : FrameNo) (t : Time) (s : State) :
    (reportCompletion n t s).timeBase = s.timeBase ∧ (reportCompletion n t s).resetAsserted = s.resetAsserted ∧
    (reportCompletion n t s).pool = s.pool ∧ (reportCompletion n t s).sp = s.sp ∧
    (reportCompletion n t s).pu = s.pu ∧ (reportCompletion n t s).otg = s.otg ∧
    (reportCompletion n t s).ps = s.ps ∧ (reportCompletion n t s).cs = s.cs ∧
    (reportCompletion n t s).pc = s.pc ∧ (reportCompletion n t s).pf = s.pf ∧
    (reportCompletion n t s).ml = s.ml ∧ (reportCompletion n t s).panel = s.panel ∧
    (reportCompletion n t s).choices = s.choices ∧ (reportCompletion n t s).pending = s.pending ∧
    (reportCompletion n t s).hr.map FrameRec.frameNo = s.hr.map FrameRec.frameNo := by
  have h := onRecord_frameNo n (fun r => { r with completion := some t }) (fun _ => rfl) s
  simp only [reportCompletion] at h ⊢
  simp [h]

/-- What `reportClose` leaves unchanged. -/
@[simp] theorem reportClose_frame (n : FrameNo) (bad : Nat) (truncated : Bool) (s : State) :
    (reportClose n bad truncated s).timeBase = s.timeBase ∧
    (reportClose n bad truncated s).resetAsserted = s.resetAsserted ∧
    (reportClose n bad truncated s).pool = s.pool ∧ (reportClose n bad truncated s).sp = s.sp ∧
    (reportClose n bad truncated s).pu = s.pu ∧ (reportClose n bad truncated s).otg = s.otg ∧
    (reportClose n bad truncated s).ps = s.ps ∧ (reportClose n bad truncated s).cs = s.cs ∧
    (reportClose n bad truncated s).pc = s.pc ∧ (reportClose n bad truncated s).pf = s.pf ∧
    (reportClose n bad truncated s).ml = s.ml ∧ (reportClose n bad truncated s).panel = s.panel ∧
    (reportClose n bad truncated s).choices = s.choices ∧ (reportClose n bad truncated s).pending = s.pending ∧
    (reportClose n bad truncated s).hr.map FrameRec.frameNo = s.hr.map FrameRec.frameNo := by
  have h := onRecord_frameNo n (fun r => { r with bad := bad, truncated := truncated }) (fun _ => rfl) s
  simp only [reportClose] at h ⊢
  simp [h]

/-- What `createRecord` leaves unchanged. -/
@[simp] theorem createRecord_frame (n : FrameNo) (k : Slot) (t : Time) (s : State) :
    (createRecord n k t s).timeBase = s.timeBase ∧ (createRecord n k t s).resetAsserted = s.resetAsserted ∧
    (createRecord n k t s).pool = s.pool ∧ (createRecord n k t s).sp = s.sp ∧ (createRecord n k t s).pu = s.pu ∧
    (createRecord n k t s).otg = s.otg ∧ (createRecord n k t s).ps = s.ps ∧ (createRecord n k t s).cs = s.cs ∧
    (createRecord n k t s).pc = s.pc ∧ (createRecord n k t s).pf = s.pf ∧ (createRecord n k t s).ml = s.ml ∧
    (createRecord n k t s).panel = s.panel ∧ (createRecord n k t s).choices = s.choices ∧
    (createRecord n k t s).pending = s.pending := by
  simp only [createRecord]
  all_goals simp

/-- What `raise` leaves unchanged. -/
@[simp] theorem raise_frame (n : Notice) (s : State) :
    (raise n s).timeBase = s.timeBase ∧ (raise n s).resetAsserted = s.resetAsserted ∧ (raise n s).pool = s.pool ∧
    (raise n s).sp = s.sp ∧ (raise n s).pu = s.pu ∧ (raise n s).otg = s.otg ∧ (raise n s).ps = s.ps ∧
    (raise n s).cs = s.cs ∧ (raise n s).pc = s.pc ∧ (raise n s).pf = s.pf ∧ (raise n s).hr = s.hr ∧
    (raise n s).panel = s.panel ∧ (raise n s).choices = s.choices ∧ (raise n s).pending = s.pending ∧
    (raise n s).ml.asm = s.ml.asm ∧ (raise n s).ml.partialMsg = s.ml.partialMsg ∧
    (raise n s).ml.lastByte = s.ml.lastByte ∧ (raise n s).ml.slots = s.ml.slots ∧
    (raise n s).ml.overrun = s.ml.overrun ∧ (raise n s).ml.enables = s.ml.enables ∧
    (raise n s).ml.replies = s.ml.replies ∧ (raise n s).ml.tx = s.ml.tx ∧
    (raise n s).ml.defProfile = s.ml.defProfile ∧ (raise n s).ml.defLut = s.ml.defLut ∧
    (raise n s).ml.defReset = s.ml.defReset ∧ (raise n s).ml.doneOrder = s.ml.doneOrder := by
  simp only [raise]
  repeat' split
  all_goals simp

/-- What `pushReply` leaves unchanged. -/
@[simp] theorem pushReply_frame (r : Reply) (s : State) :
    (pushReply r s).timeBase = s.timeBase ∧ (pushReply r s).resetAsserted = s.resetAsserted ∧
    (pushReply r s).pool = s.pool ∧ (pushReply r s).sp = s.sp ∧ (pushReply r s).pu = s.pu ∧
    (pushReply r s).otg = s.otg ∧ (pushReply r s).ps = s.ps ∧ (pushReply r s).cs = s.cs ∧
    (pushReply r s).pc = s.pc ∧ (pushReply r s).pf = s.pf ∧ (pushReply r s).hr = s.hr ∧
    (pushReply r s).panel = s.panel ∧ (pushReply r s).choices = s.choices ∧ (pushReply r s).pending = s.pending ∧
    (pushReply r s).ml.asm = s.ml.asm ∧ (pushReply r s).ml.partialMsg = s.ml.partialMsg ∧
    (pushReply r s).ml.lastByte = s.ml.lastByte ∧ (pushReply r s).ml.slots = s.ml.slots ∧
    (pushReply r s).ml.overrun = s.ml.overrun ∧ (pushReply r s).ml.enables = s.ml.enables ∧
    (pushReply r s).ml.tx = s.ml.tx ∧ (pushReply r s).ml.notices = s.ml.notices ∧
    (pushReply r s).ml.defProfile = s.ml.defProfile ∧ (pushReply r s).ml.defLut = s.ml.defLut ∧
    (pushReply r s).ml.defReset = s.ml.defReset ∧ (pushReply r s).ml.doneOrder = s.ml.doneOrder := by
  simp only [pushReply]
  all_goals simp

/-- Writing a deferred-reply record leaves the rest of the link. -/
@[simp] theorem MessageLink.setDeferred_fields (m : MessageLink) (k : DeferredKind) (d : Deferred) :
    (m.setDeferred k d).asm = m.asm ∧ (m.setDeferred k d).partialMsg = m.partialMsg ∧
    (m.setDeferred k d).lastByte = m.lastByte ∧ (m.setDeferred k d).slots = m.slots ∧
    (m.setDeferred k d).overrun = m.overrun ∧ (m.setDeferred k d).replies = m.replies ∧
    (m.setDeferred k d).doneOrder = m.doneOrder ∧ (m.setDeferred k d).tx = m.tx ∧
    (m.setDeferred k d).enables = m.enables ∧ (m.setDeferred k d).notices = m.notices := by
  cases k <;> simp [MessageLink.setDeferred]

/-- The deferred-reply record just written is the one read. -/
@[simp] theorem MessageLink.deferred_setDeferred (m : MessageLink) (k : DeferredKind) (d : Deferred) :
    (m.setDeferred k d).deferred k = d := by
  cases k <;> rfl

/-- What `deferReply` leaves unchanged. -/
@[simp] theorem deferReply_frame (k : DeferredKind) (tag : Byte) (s : State) :
    (deferReply k tag s).timeBase = s.timeBase ∧ (deferReply k tag s).resetAsserted = s.resetAsserted ∧
    (deferReply k tag s).pool = s.pool ∧ (deferReply k tag s).sp = s.sp ∧ (deferReply k tag s).pu = s.pu ∧
    (deferReply k tag s).otg = s.otg ∧ (deferReply k tag s).ps = s.ps ∧ (deferReply k tag s).cs = s.cs ∧
    (deferReply k tag s).pc = s.pc ∧ (deferReply k tag s).pf = s.pf ∧ (deferReply k tag s).hr = s.hr ∧
    (deferReply k tag s).panel = s.panel ∧ (deferReply k tag s).choices = s.choices ∧
    (deferReply k tag s).pending = s.pending ∧ (deferReply k tag s).ml.asm = s.ml.asm ∧
    (deferReply k tag s).ml.partialMsg = s.ml.partialMsg ∧ (deferReply k tag s).ml.lastByte = s.ml.lastByte ∧
    (deferReply k tag s).ml.slots = s.ml.slots ∧ (deferReply k tag s).ml.overrun = s.ml.overrun ∧
    (deferReply k tag s).ml.enables = s.ml.enables ∧ (deferReply k tag s).ml.replies = s.ml.replies ∧
    (deferReply k tag s).ml.tx = s.ml.tx ∧ (deferReply k tag s).ml.notices = s.ml.notices ∧
    (deferReply k tag s).ml.doneOrder = s.ml.doneOrder := by
  simp only [deferReply]
  all_goals simp

/-- What `completeDeferred` leaves unchanged. -/
@[simp] theorem completeDeferred_frame (k : DeferredKind) (st : Status) (s : State) :
    (completeDeferred k st s).timeBase = s.timeBase ∧ (completeDeferred k st s).resetAsserted = s.resetAsserted ∧
    (completeDeferred k st s).pool = s.pool ∧ (completeDeferred k st s).sp = s.sp ∧
    (completeDeferred k st s).pu = s.pu ∧ (completeDeferred k st s).otg = s.otg ∧
    (completeDeferred k st s).ps = s.ps ∧ (completeDeferred k st s).cs = s.cs ∧
    (completeDeferred k st s).pc = s.pc ∧ (completeDeferred k st s).pf = s.pf ∧
    (completeDeferred k st s).hr = s.hr ∧ (completeDeferred k st s).panel = s.panel ∧
    (completeDeferred k st s).choices = s.choices ∧ (completeDeferred k st s).pending = s.pending ∧
    (completeDeferred k st s).ml.asm = s.ml.asm ∧ (completeDeferred k st s).ml.partialMsg = s.ml.partialMsg ∧
    (completeDeferred k st s).ml.lastByte = s.ml.lastByte ∧ (completeDeferred k st s).ml.slots = s.ml.slots ∧
    (completeDeferred k st s).ml.overrun = s.ml.overrun ∧ (completeDeferred k st s).ml.enables = s.ml.enables ∧
    (completeDeferred k st s).ml.replies = s.ml.replies ∧ (completeDeferred k st s).ml.tx = s.ml.tx ∧
    (completeDeferred k st s).ml.notices = s.ml.notices := by
  simp only [completeDeferred]
  repeat' split
  all_goals simp

/-- What `claimDeferred` leaves unchanged. -/
@[simp] theorem claimDeferred_frame (s : State) :
    (claimDeferred s).timeBase = s.timeBase ∧ (claimDeferred s).resetAsserted = s.resetAsserted ∧
    (claimDeferred s).pool = s.pool ∧ (claimDeferred s).sp = s.sp ∧ (claimDeferred s).pu = s.pu ∧
    (claimDeferred s).otg = s.otg ∧ (claimDeferred s).ps = s.ps ∧ (claimDeferred s).cs = s.cs ∧
    (claimDeferred s).pc = s.pc ∧ (claimDeferred s).pf = s.pf ∧ (claimDeferred s).hr = s.hr ∧
    (claimDeferred s).panel = s.panel ∧ (claimDeferred s).choices = s.choices ∧
    (claimDeferred s).pending = s.pending ∧ (claimDeferred s).ml.asm = s.ml.asm ∧
    (claimDeferred s).ml.partialMsg = s.ml.partialMsg ∧ (claimDeferred s).ml.lastByte = s.ml.lastByte ∧
    (claimDeferred s).ml.slots = s.ml.slots ∧ (claimDeferred s).ml.overrun = s.ml.overrun ∧
    (claimDeferred s).ml.enables = s.ml.enables ∧ (claimDeferred s).ml.tx = s.ml.tx ∧
    (claimDeferred s).ml.notices = s.ml.notices := by
  simp only [claimDeferred]
  repeat' split
  all_goals simp

/-- What `drainDeferred` leaves unchanged. -/
@[simp] theorem drainDeferred_frame (s : State) :
    (drainDeferred s).timeBase = s.timeBase ∧ (drainDeferred s).resetAsserted = s.resetAsserted ∧
    (drainDeferred s).pool = s.pool ∧ (drainDeferred s).sp = s.sp ∧ (drainDeferred s).pu = s.pu ∧
    (drainDeferred s).otg = s.otg ∧ (drainDeferred s).ps = s.ps ∧ (drainDeferred s).cs = s.cs ∧
    (drainDeferred s).pc = s.pc ∧ (drainDeferred s).pf = s.pf ∧ (drainDeferred s).hr = s.hr ∧
    (drainDeferred s).panel = s.panel ∧ (drainDeferred s).choices = s.choices ∧
    (drainDeferred s).pending = s.pending ∧ (drainDeferred s).ml.asm = s.ml.asm ∧
    (drainDeferred s).ml.partialMsg = s.ml.partialMsg ∧ (drainDeferred s).ml.lastByte = s.ml.lastByte ∧
    (drainDeferred s).ml.slots = s.ml.slots ∧ (drainDeferred s).ml.overrun = s.ml.overrun ∧
    (drainDeferred s).ml.enables = s.ml.enables ∧ (drainDeferred s).ml.tx = s.ml.tx ∧
    (drainDeferred s).ml.notices = s.ml.notices := by
  simp [drainDeferred]

/-- What `chooseMessage` leaves unchanged. -/
@[simp] theorem chooseMessage_frame (s : State) :
    (chooseMessage s).timeBase = s.timeBase ∧ (chooseMessage s).resetAsserted = s.resetAsserted ∧
    (chooseMessage s).pool = s.pool ∧ (chooseMessage s).sp = s.sp ∧ (chooseMessage s).pu = s.pu ∧
    (chooseMessage s).otg = s.otg ∧ (chooseMessage s).ps = s.ps ∧ (chooseMessage s).cs = s.cs ∧
    (chooseMessage s).pc = s.pc ∧ (chooseMessage s).pf = s.pf ∧ (chooseMessage s).hr = s.hr ∧
    (chooseMessage s).panel = s.panel ∧ (chooseMessage s).choices = s.choices ∧
    (chooseMessage s).pending = s.pending ∧ (chooseMessage s).ml.asm = s.ml.asm ∧
    (chooseMessage s).ml.partialMsg = s.ml.partialMsg ∧ (chooseMessage s).ml.lastByte = s.ml.lastByte ∧
    (chooseMessage s).ml.slots = s.ml.slots ∧ (chooseMessage s).ml.overrun = s.ml.overrun ∧
    (chooseMessage s).ml.enables = s.ml.enables ∧ (chooseMessage s).ml.replies = s.ml.replies ∧
    (chooseMessage s).ml.defProfile = s.ml.defProfile ∧ (chooseMessage s).ml.defLut = s.ml.defLut ∧
    (chooseMessage s).ml.defReset = s.ml.defReset ∧ (chooseMessage s).ml.doneOrder = s.ml.doneOrder := by
  simp only [chooseMessage]
  repeat' split
  all_goals simp

/-- What `settle` leaves unchanged. -/
@[simp] theorem settle_frame (s : State) :
    (settle s).timeBase = s.timeBase ∧ (settle s).resetAsserted = s.resetAsserted ∧ (settle s).pool = s.pool ∧
    (settle s).sp = s.sp ∧ (settle s).pu = s.pu ∧ (settle s).otg = s.otg ∧ (settle s).ps = s.ps ∧
    (settle s).cs = s.cs ∧ (settle s).pc = s.pc ∧ (settle s).pf = s.pf ∧ (settle s).hr = s.hr ∧
    (settle s).panel = s.panel ∧ (settle s).choices = s.choices ∧ (settle s).pending = s.pending ∧
    (settle s).ml.asm = s.ml.asm ∧ (settle s).ml.partialMsg = s.ml.partialMsg ∧
    (settle s).ml.lastByte = s.ml.lastByte ∧ (settle s).ml.slots = s.ml.slots ∧
    (settle s).ml.overrun = s.ml.overrun ∧ (settle s).ml.enables = s.ml.enables := by
  simp [settle]

/-- What `takeRequest` leaves unchanged. -/
@[simp] theorem takeRequest_frame (s : State) :
    (takeRequest s).timeBase = s.timeBase ∧ (takeRequest s).resetAsserted = s.resetAsserted ∧
    (takeRequest s).pool = s.pool ∧ (takeRequest s).sp = s.sp ∧ (takeRequest s).pu = s.pu ∧
    (takeRequest s).otg = s.otg ∧ (takeRequest s).ps = s.ps ∧ (takeRequest s).cs = s.cs ∧
    (takeRequest s).pc = s.pc ∧ (takeRequest s).pf = s.pf ∧ (takeRequest s).hr = s.hr ∧
    (takeRequest s).panel = s.panel ∧ (takeRequest s).choices = s.choices ∧ (takeRequest s).pending = s.pending ∧
    (takeRequest s).ml.asm = s.ml.asm ∧ (takeRequest s).ml.partialMsg = s.ml.partialMsg ∧
    (takeRequest s).ml.lastByte = s.ml.lastByte ∧ (takeRequest s).ml.overrun = s.ml.overrun ∧
    (takeRequest s).ml.enables = s.ml.enables ∧ (takeRequest s).ml.replies = s.ml.replies ∧
    (takeRequest s).ml.tx = s.ml.tx ∧ (takeRequest s).ml.notices = s.ml.notices ∧
    (takeRequest s).ml.defProfile = s.ml.defProfile ∧ (takeRequest s).ml.defLut = s.ml.defLut ∧
    (takeRequest s).ml.defReset = s.ml.defReset ∧ (takeRequest s).ml.doneOrder = s.ml.doneOrder := by
  simp only [takeRequest]
  all_goals simp

/-- What `handOver` leaves unchanged. -/
@[simp] theorem handOver_frame (r : Request) (s : State) :
    (handOver r s).timeBase = s.timeBase ∧ (handOver r s).resetAsserted = s.resetAsserted ∧
    (handOver r s).pool = s.pool ∧ (handOver r s).sp = s.sp ∧ (handOver r s).pu = s.pu ∧
    (handOver r s).otg = s.otg ∧ (handOver r s).ps = s.ps ∧ (handOver r s).cs = s.cs ∧ (handOver r s).pc = s.pc ∧
    (handOver r s).pf = s.pf ∧ (handOver r s).hr = s.hr ∧ (handOver r s).panel = s.panel ∧
    (handOver r s).choices = s.choices ∧ (handOver r s).pending = s.pending ∧ (handOver r s).ml.asm = s.ml.asm ∧
    (handOver r s).ml.partialMsg = s.ml.partialMsg ∧ (handOver r s).ml.lastByte = s.ml.lastByte ∧
    (handOver r s).ml.enables = s.ml.enables ∧ (handOver r s).ml.replies = s.ml.replies ∧
    (handOver r s).ml.tx = s.ml.tx ∧ (handOver r s).ml.notices = s.ml.notices ∧
    (handOver r s).ml.defProfile = s.ml.defProfile ∧ (handOver r s).ml.defLut = s.ml.defLut ∧
    (handOver r s).ml.defReset = s.ml.defReset ∧ (handOver r s).ml.doneOrder = s.ml.doneOrder := by
  simp only [handOver]
  repeat' split
  all_goals simp

/-- What `answer` leaves unchanged. -/
@[simp] theorem answer_frame (r : Request) (st : Status) (s : State) :
    (answer r st s).timeBase = s.timeBase ∧ (answer r st s).resetAsserted = s.resetAsserted ∧
    (answer r st s).pool = s.pool ∧ (answer r st s).sp = s.sp ∧ (answer r st s).pu = s.pu ∧
    (answer r st s).otg = s.otg ∧ (answer r st s).ps = s.ps ∧ (answer r st s).cs = s.cs ∧
    (answer r st s).pc = s.pc ∧ (answer r st s).pf = s.pf ∧ (answer r st s).hr = s.hr ∧
    (answer r st s).panel = s.panel ∧ (answer r st s).choices = s.choices ∧ (answer r st s).pending = s.pending ∧
    (answer r st s).ml.asm = s.ml.asm ∧ (answer r st s).ml.partialMsg = s.ml.partialMsg ∧
    (answer r st s).ml.lastByte = s.ml.lastByte ∧ (answer r st s).ml.slots = s.ml.slots ∧
    (answer r st s).ml.overrun = s.ml.overrun ∧ (answer r st s).ml.enables = s.ml.enables := by
  simp [answer]

/-- What `answerWith` leaves unchanged. -/
@[simp] theorem answerWith_frame (r : Request) (body : List Byte) (s : State) :
    (answerWith r body s).timeBase = s.timeBase ∧ (answerWith r body s).resetAsserted = s.resetAsserted ∧
    (answerWith r body s).pool = s.pool ∧ (answerWith r body s).sp = s.sp ∧ (answerWith r body s).pu = s.pu ∧
    (answerWith r body s).otg = s.otg ∧ (answerWith r body s).ps = s.ps ∧ (answerWith r body s).cs = s.cs ∧
    (answerWith r body s).pc = s.pc ∧ (answerWith r body s).pf = s.pf ∧ (answerWith r body s).hr = s.hr ∧
    (answerWith r body s).panel = s.panel ∧ (answerWith r body s).choices = s.choices ∧
    (answerWith r body s).pending = s.pending ∧ (answerWith r body s).ml.asm = s.ml.asm ∧
    (answerWith r body s).ml.partialMsg = s.ml.partialMsg ∧ (answerWith r body s).ml.lastByte = s.ml.lastByte ∧
    (answerWith r body s).ml.slots = s.ml.slots ∧ (answerWith r body s).ml.overrun = s.ml.overrun ∧
    (answerWith r body s).ml.enables = s.ml.enables := by
  simp [answerWith]

/-- What `answerField` leaves unchanged. -/
@[simp] theorem answerField_frame (r : Request) (st : Status) (field : Nat) (s : State) :
    (answerField r st field s).timeBase = s.timeBase ∧
    (answerField r st field s).resetAsserted = s.resetAsserted ∧ (answerField r st field s).pool = s.pool ∧
    (answerField r st field s).sp = s.sp ∧ (answerField r st field s).pu = s.pu ∧
    (answerField r st field s).otg = s.otg ∧ (answerField r st field s).ps = s.ps ∧
    (answerField r st field s).cs = s.cs ∧ (answerField r st field s).pc = s.pc ∧
    (answerField r st field s).pf = s.pf ∧ (answerField r st field s).hr = s.hr ∧
    (answerField r st field s).panel = s.panel ∧ (answerField r st field s).choices = s.choices ∧
    (answerField r st field s).pending = s.pending ∧ (answerField r st field s).ml.asm = s.ml.asm ∧
    (answerField r st field s).ml.partialMsg = s.ml.partialMsg ∧
    (answerField r st field s).ml.lastByte = s.ml.lastByte ∧ (answerField r st field s).ml.slots = s.ml.slots ∧
    (answerField r st field s).ml.overrun = s.ml.overrun ∧
    (answerField r st field s).ml.enables = s.ml.enables := by
  simp [answerField]

/-- What `reportSlotFate` leaves unchanged. -/
@[simp] theorem reportSlotFate_frame (r : SlotRec) (fate : Fate) (s : State) :
    (reportSlotFate r fate s).timeBase = s.timeBase ∧ (reportSlotFate r fate s).resetAsserted = s.resetAsserted ∧
    (reportSlotFate r fate s).pool = s.pool ∧ (reportSlotFate r fate s).sp = s.sp ∧
    (reportSlotFate r fate s).pu = s.pu ∧ (reportSlotFate r fate s).otg = s.otg ∧
    (reportSlotFate r fate s).ps = s.ps ∧ (reportSlotFate r fate s).cs = s.cs ∧
    (reportSlotFate r fate s).pc = s.pc ∧ (reportSlotFate r fate s).pf = s.pf ∧
    (reportSlotFate r fate s).ml = s.ml ∧ (reportSlotFate r fate s).panel = s.panel ∧
    (reportSlotFate r fate s).choices = s.choices ∧ (reportSlotFate r fate s).pending = s.pending ∧
    (reportSlotFate r fate s).hr.map FrameRec.frameNo = s.hr.map FrameRec.frameNo := by
  simp only [reportSlotFate]
  repeat' split
  all_goals simp

/-- Freeing a slot leaves the store and the copy of Q. -/
@[simp] theorem SlotPool.release_fields (k : Slot) (p : SlotPool) :
    (p.release k).store = p.store ∧ (p.release k).q = p.q := ⟨rfl, rfl⟩

/-- What `freeSlot` leaves unchanged. -/
@[simp] theorem freeSlot_frame (k : Slot) (fate : Fate) (s : State) :
    (freeSlot k fate s).timeBase = s.timeBase ∧ (freeSlot k fate s).resetAsserted = s.resetAsserted ∧
    (freeSlot k fate s).sp = s.sp ∧ (freeSlot k fate s).pu = s.pu ∧ (freeSlot k fate s).otg = s.otg ∧
    (freeSlot k fate s).ps = s.ps ∧ (freeSlot k fate s).cs = s.cs ∧ (freeSlot k fate s).pc = s.pc ∧
    (freeSlot k fate s).pf = s.pf ∧ (freeSlot k fate s).ml = s.ml ∧ (freeSlot k fate s).panel = s.panel ∧
    (freeSlot k fate s).choices = s.choices ∧ (freeSlot k fate s).pending = s.pending ∧
    (freeSlot k fate s).pool.store = s.pool.store ∧ (freeSlot k fate s).pool.q = s.pool.q ∧
    (freeSlot k fate s).hr.map FrameRec.frameNo = s.hr.map FrameRec.frameNo := by
  simp only [freeSlot]
  all_goals simp

/-- What `freeSlots` leaves unchanged. -/
@[simp] theorem freeSlots_frame (ks : List Slot) (fate : Fate) (s : State) :
    (freeSlots ks fate s).timeBase = s.timeBase ∧ (freeSlots ks fate s).resetAsserted = s.resetAsserted ∧
    (freeSlots ks fate s).sp = s.sp ∧ (freeSlots ks fate s).pu = s.pu ∧ (freeSlots ks fate s).otg = s.otg ∧
    (freeSlots ks fate s).ps = s.ps ∧ (freeSlots ks fate s).cs = s.cs ∧ (freeSlots ks fate s).pc = s.pc ∧
    (freeSlots ks fate s).pf = s.pf ∧ (freeSlots ks fate s).ml = s.ml ∧ (freeSlots ks fate s).panel = s.panel ∧
    (freeSlots ks fate s).choices = s.choices ∧ (freeSlots ks fate s).pending = s.pending ∧
    (freeSlots ks fate s).pool.store = s.pool.store ∧ (freeSlots ks fate s).pool.q = s.pool.q ∧
    (freeSlots ks fate s).hr.map FrameRec.frameNo = s.hr.map FrameRec.frameNo := by
  induction ks generalizing s with
  | nil => simp [freeSlots]
  | cons k ks ih =>
    have h := ih (freeSlot k fate s)
    simp only [freeSlots, List.foldl_cons] at h ⊢
    simpa using h

/-- What `abortFilling` leaves unchanged. -/
@[simp] theorem abortFilling_frame (truncated : Bool) (s : State) :
    (abortFilling truncated s).timeBase = s.timeBase ∧
    (abortFilling truncated s).resetAsserted = s.resetAsserted ∧ (abortFilling truncated s).sp = s.sp ∧
    (abortFilling truncated s).pu = s.pu ∧ (abortFilling truncated s).otg = s.otg ∧
    (abortFilling truncated s).ps = s.ps ∧ (abortFilling truncated s).cs = s.cs ∧
    (abortFilling truncated s).pc = s.pc ∧ (abortFilling truncated s).pf = s.pf ∧
    (abortFilling truncated s).ml = s.ml ∧ (abortFilling truncated s).panel = s.panel ∧
    (abortFilling truncated s).choices = s.choices ∧ (abortFilling truncated s).pending = s.pending ∧
    (abortFilling truncated s).pool.store = s.pool.store ∧ (abortFilling truncated s).pool.q = s.pool.q ∧
    (abortFilling truncated s).hr.map FrameRec.frameNo = s.hr.map FrameRec.frameNo := by
  simp only [abortFilling]
  repeat' split
  all_goals simp

/-- What `takeSlot` leaves unchanged. -/
@[simp] theorem takeSlot_frame (k : Slot) (n : FrameNo) (t : Time) (s : State) :
    (takeSlot k n t s).timeBase = s.timeBase ∧ (takeSlot k n t s).resetAsserted = s.resetAsserted ∧
    (takeSlot k n t s).sp = s.sp ∧ (takeSlot k n t s).pu = s.pu ∧ (takeSlot k n t s).otg = s.otg ∧
    (takeSlot k n t s).ps = s.ps ∧ (takeSlot k n t s).cs = s.cs ∧ (takeSlot k n t s).pc = s.pc ∧
    (takeSlot k n t s).pf = s.pf ∧ (takeSlot k n t s).hr = s.hr ∧ (takeSlot k n t s).ml = s.ml ∧
    (takeSlot k n t s).panel = s.panel ∧ (takeSlot k n t s).choices = s.choices ∧
    (takeSlot k n t s).pending = s.pending ∧ (takeSlot k n t s).pool.store = s.pool.store ∧
    (takeSlot k n t s).pool.q = s.pool.q ∧ (takeSlot k n t s).pool.ready = s.pool.ready ∧
    (takeSlot k n t s).pool.held = s.pool.held ∧ (takeSlot k n t s).pool.onScreen = s.pool.onScreen := by
  simp only [takeSlot]
  all_goals simp

/-- What `markEligible` leaves unchanged. -/
@[simp] theorem markEligible_frame (k : Slot) (s : State) :
    (markEligible k s).timeBase = s.timeBase ∧ (markEligible k s).resetAsserted = s.resetAsserted ∧
    (markEligible k s).sp = s.sp ∧ (markEligible k s).pu = s.pu ∧ (markEligible k s).otg = s.otg ∧
    (markEligible k s).ps = s.ps ∧ (markEligible k s).cs = s.cs ∧ (markEligible k s).pc = s.pc ∧
    (markEligible k s).pf = s.pf ∧ (markEligible k s).hr = s.hr ∧ (markEligible k s).ml = s.ml ∧
    (markEligible k s).panel = s.panel ∧ (markEligible k s).choices = s.choices ∧
    (markEligible k s).pending = s.pending ∧ (markEligible k s).pool.store = s.pool.store ∧
    (markEligible k s).pool.q = s.pool.q ∧ (markEligible k s).pool.filling = s.pool.filling ∧
    (markEligible k s).pool.ready = s.pool.ready ∧ (markEligible k s).pool.held = s.pool.held ∧
    (markEligible k s).pool.onScreen = s.pool.onScreen ∧ (markEligible k s).pool.cands = s.pool.cands := by
  simp only [markEligible]
  all_goals simp

/-- What `countStrip` leaves unchanged. -/
@[simp] theorem countStrip_frame (bad : Bool) (s : State) :
    (countStrip bad s).timeBase = s.timeBase ∧ (countStrip bad s).resetAsserted = s.resetAsserted ∧
    (countStrip bad s).sp = s.sp ∧ (countStrip bad s).pu = s.pu ∧ (countStrip bad s).otg = s.otg ∧
    (countStrip bad s).ps = s.ps ∧ (countStrip bad s).cs = s.cs ∧ (countStrip bad s).pc = s.pc ∧
    (countStrip bad s).pf = s.pf ∧ (countStrip bad s).hr = s.hr ∧ (countStrip bad s).ml = s.ml ∧
    (countStrip bad s).panel = s.panel ∧ (countStrip bad s).choices = s.choices ∧
    (countStrip bad s).pending = s.pending ∧ (countStrip bad s).pool.store = s.pool.store ∧
    (countStrip bad s).pool.q = s.pool.q ∧ (countStrip bad s).pool.filling = s.pool.filling ∧
    (countStrip bad s).pool.ready = s.pool.ready ∧ (countStrip bad s).pool.held = s.pool.held ∧
    (countStrip bad s).pool.onScreen = s.pool.onScreen ∧ (countStrip bad s).pool.cands = s.pool.cands := by
  simp only [countStrip]
  repeat' split
  all_goals simp

/-- What `becomeReady` leaves unchanged. -/
@[simp] theorem becomeReady_frame (k : Slot) (s : State) :
    (becomeReady k s).timeBase = s.timeBase ∧ (becomeReady k s).resetAsserted = s.resetAsserted ∧
    (becomeReady k s).sp = s.sp ∧ (becomeReady k s).pu = s.pu ∧ (becomeReady k s).otg = s.otg ∧
    (becomeReady k s).ps = s.ps ∧ (becomeReady k s).cs = s.cs ∧ (becomeReady k s).pc = s.pc ∧
    (becomeReady k s).pf = s.pf ∧ (becomeReady k s).ml = s.ml ∧ (becomeReady k s).panel = s.panel ∧
    (becomeReady k s).choices = s.choices ∧ (becomeReady k s).pending = s.pending ∧
    (becomeReady k s).pool.store = s.pool.store ∧ (becomeReady k s).pool.q = s.pool.q ∧
    (becomeReady k s).hr.map FrameRec.frameNo = s.hr.map FrameRec.frameNo := by
  simp only [becomeReady]
  repeat' split
  all_goals simp

/-- What `chooseSlot` leaves unchanged. -/
@[simp] theorem chooseSlot_frame (k : Slot) (s : State) :
    (chooseSlot k s).timeBase = s.timeBase ∧ (chooseSlot k s).resetAsserted = s.resetAsserted ∧
    (chooseSlot k s).sp = s.sp ∧ (chooseSlot k s).pu = s.pu ∧ (chooseSlot k s).otg = s.otg ∧
    (chooseSlot k s).ps = s.ps ∧ (chooseSlot k s).cs = s.cs ∧ (chooseSlot k s).pc = s.pc ∧
    (chooseSlot k s).pf = s.pf ∧ (chooseSlot k s).ml = s.ml ∧ (chooseSlot k s).panel = s.panel ∧
    (chooseSlot k s).choices = s.choices ∧ (chooseSlot k s).pending = s.pending ∧
    (chooseSlot k s).pool.store = s.pool.store ∧ (chooseSlot k s).pool.q = s.pool.q ∧
    (chooseSlot k s).hr.map FrameRec.frameNo = s.hr.map FrameRec.frameNo := by
  simp only [chooseSlot]
  all_goals simp

/-- What `repeatHeld` leaves unchanged. -/
@[simp] theorem repeatHeld_frame (k : Slot) (s : State) :
    (repeatHeld k s).timeBase = s.timeBase ∧ (repeatHeld k s).resetAsserted = s.resetAsserted ∧
    (repeatHeld k s).sp = s.sp ∧ (repeatHeld k s).pu = s.pu ∧ (repeatHeld k s).otg = s.otg ∧
    (repeatHeld k s).ps = s.ps ∧ (repeatHeld k s).cs = s.cs ∧ (repeatHeld k s).pc = s.pc ∧
    (repeatHeld k s).pf = s.pf ∧ (repeatHeld k s).hr = s.hr ∧ (repeatHeld k s).ml = s.ml ∧
    (repeatHeld k s).panel = s.panel ∧ (repeatHeld k s).choices = s.choices ∧
    (repeatHeld k s).pending = s.pending ∧ (repeatHeld k s).pool.store = s.pool.store ∧
    (repeatHeld k s).pool.q = s.pool.q ∧ (repeatHeld k s).pool.filling = s.pool.filling ∧
    (repeatHeld k s).pool.ready = s.pool.ready ∧ (repeatHeld k s).pool.held = s.pool.held ∧
    (repeatHeld k s).pool.cands = s.pool.cands := by
  simp only [repeatHeld]
  all_goals simp

/-- What `makeHeld` leaves unchanged. -/
@[simp] theorem makeHeld_frame (k : Slot) (s : State) :
    (makeHeld k s).timeBase = s.timeBase ∧ (makeHeld k s).resetAsserted = s.resetAsserted ∧
    (makeHeld k s).sp = s.sp ∧ (makeHeld k s).pu = s.pu ∧ (makeHeld k s).otg = s.otg ∧ (makeHeld k s).ps = s.ps ∧
    (makeHeld k s).cs = s.cs ∧ (makeHeld k s).pc = s.pc ∧ (makeHeld k s).pf = s.pf ∧ (makeHeld k s).ml = s.ml ∧
    (makeHeld k s).panel = s.panel ∧ (makeHeld k s).choices = s.choices ∧ (makeHeld k s).pending = s.pending ∧
    (makeHeld k s).pool.store = s.pool.store ∧ (makeHeld k s).pool.q = s.pool.q ∧
    (makeHeld k s).hr.map FrameRec.frameNo = s.hr.map FrameRec.frameNo := by
  simp only [makeHeld]
  repeat' split
  all_goals simp

/-- What `scanEndPool` leaves unchanged. -/
@[simp] theorem scanEndPool_frame (s : State) :
    (scanEndPool s).timeBase = s.timeBase ∧ (scanEndPool s).resetAsserted = s.resetAsserted ∧
    (scanEndPool s).sp = s.sp ∧ (scanEndPool s).pu = s.pu ∧ (scanEndPool s).otg = s.otg ∧
    (scanEndPool s).ps = s.ps ∧ (scanEndPool s).cs = s.cs ∧ (scanEndPool s).pc = s.pc ∧
    (scanEndPool s).pf = s.pf ∧ (scanEndPool s).ml = s.ml ∧ (scanEndPool s).panel = s.panel ∧
    (scanEndPool s).choices = s.choices ∧ (scanEndPool s).pending = s.pending ∧
    (scanEndPool s).pool.store = s.pool.store ∧ (scanEndPool s).pool.q = s.pool.q ∧
    (scanEndPool s).hr.map FrameRec.frameNo = s.hr.map FrameRec.frameNo := by
  simp only [scanEndPool]
  repeat' split
  all_goals simp

/-- What `leaveScreen` leaves unchanged. -/
@[simp] theorem leaveScreen_frame (s : State) :
    (leaveScreen s).timeBase = s.timeBase ∧ (leaveScreen s).resetAsserted = s.resetAsserted ∧
    (leaveScreen s).sp = s.sp ∧ (leaveScreen s).pu = s.pu ∧ (leaveScreen s).otg = s.otg ∧
    (leaveScreen s).ps = s.ps ∧ (leaveScreen s).cs = s.cs ∧ (leaveScreen s).pc = s.pc ∧
    (leaveScreen s).pf = s.pf ∧ (leaveScreen s).ml = s.ml ∧ (leaveScreen s).panel = s.panel ∧
    (leaveScreen s).choices = s.choices ∧ (leaveScreen s).pending = s.pending ∧
    (leaveScreen s).pool.store = s.pool.store ∧ (leaveScreen s).pool.q = s.pool.q ∧
    (leaveScreen s).hr.map FrameRec.frameNo = s.hr.map FrameRec.frameNo := by
  simp only [leaveScreen]
  repeat' split
  all_goals simp

/-- What `spliceSlot` leaves unchanged. -/
@[simp] theorem spliceSlot_frame (n : Slot) (s : State) :
    (spliceSlot n s).timeBase = s.timeBase ∧ (spliceSlot n s).resetAsserted = s.resetAsserted ∧
    (spliceSlot n s).sp = s.sp ∧ (spliceSlot n s).pu = s.pu ∧ (spliceSlot n s).otg = s.otg ∧
    (spliceSlot n s).ps = s.ps ∧ (spliceSlot n s).cs = s.cs ∧ (spliceSlot n s).pc = s.pc ∧
    (spliceSlot n s).pf = s.pf ∧ (spliceSlot n s).ml = s.ml ∧ (spliceSlot n s).panel = s.panel ∧
    (spliceSlot n s).choices = s.choices ∧ (spliceSlot n s).pending = s.pending ∧
    (spliceSlot n s).pool.store = s.pool.store ∧ (spliceSlot n s).pool.q = s.pool.q ∧
    (spliceSlot n s).hr.map FrameRec.frameNo = s.hr.map FrameRec.frameNo := by
  simp only [spliceSlot]
  all_goals simp

/-- What `flushPool` leaves unchanged. -/
@[simp] theorem flushPool_frame (s : State) :
    (flushPool s).timeBase = s.timeBase ∧ (flushPool s).resetAsserted = s.resetAsserted ∧
    (flushPool s).sp = s.sp ∧ (flushPool s).pu = s.pu ∧ (flushPool s).otg = s.otg ∧ (flushPool s).ps = s.ps ∧
    (flushPool s).cs = s.cs ∧ (flushPool s).pc = s.pc ∧ (flushPool s).pf = s.pf ∧ (flushPool s).ml = s.ml ∧
    (flushPool s).panel = s.panel ∧ (flushPool s).choices = s.choices ∧ (flushPool s).pending = s.pending ∧
    (flushPool s).pool.store = s.pool.store ∧
    (flushPool s).hr.map FrameRec.frameNo = s.hr.map FrameRec.frameNo := by
  simp [flushPool]

/-- What `resetPool` leaves unchanged. -/
@[simp] theorem resetPool_frame (s : State) :
    (resetPool s).timeBase = s.timeBase ∧ (resetPool s).resetAsserted = s.resetAsserted ∧
    (resetPool s).sp = s.sp ∧ (resetPool s).pu = s.pu ∧ (resetPool s).otg = s.otg ∧ (resetPool s).ps = s.ps ∧
    (resetPool s).cs = s.cs ∧ (resetPool s).pc = s.pc ∧ (resetPool s).pf = s.pf ∧ (resetPool s).hr = s.hr ∧
    (resetPool s).ml = s.ml ∧ (resetPool s).panel = s.panel ∧ (resetPool s).choices = s.choices ∧
    (resetPool s).pending = s.pending ∧ (resetPool s).pool.store = s.pool.store := by
  simp [resetPool, SlotPool.powerOn]

/-- What `setLock` leaves unchanged. -/
@[simp] theorem setLock_frame (l : Lock) (s : State) :
    (setLock l s).timeBase = s.timeBase ∧ (setLock l s).resetAsserted = s.resetAsserted ∧
    (setLock l s).pool = s.pool ∧ (setLock l s).sp = s.sp ∧ (setLock l s).ps = s.ps ∧ (setLock l s).cs = s.cs ∧
    (setLock l s).pc = s.pc ∧ (setLock l s).pf = s.pf ∧ (setLock l s).hr = s.hr ∧ (setLock l s).panel = s.panel ∧
    (setLock l s).choices = s.choices ∧ (setLock l s).pending = s.pending ∧ (setLock l s).otg.mode = s.otg.mode ∧
    (setLock l s).otg.timing = s.otg.timing ∧ (setLock l s).otg.tLast = s.otg.tLast ∧
    (setLock l s).otg.tminTimer = s.otg.tminTimer ∧ (setLock l s).otg.minPassed = s.otg.minPassed ∧
    (setLock l s).otg.keptRepeat = s.otg.keptRepeat ∧ (setLock l s).otg.fixedTimer = s.otg.fixedTimer ∧
    (setLock l s).otg.keptFixed = s.otg.keptFixed ∧ (setLock l s).otg.nextStrip = s.otg.nextStrip ∧
    (setLock l s).otg.pendingApp = s.otg.pendingApp ∧ (setLock l s).otg.pendingReset = s.otg.pendingReset ∧
    (setLock l s).otg.repeatTimer = s.otg.repeatTimer ∧ (setLock l s).otg.planCount = s.otg.planCount ∧
    (setLock l s).pu.intervals = s.pu.intervals ∧ (setLock l s).pu.fills = s.pu.fills ∧
    (setLock l s).pu.ti = s.pu.ti ∧ (setLock l s).pu.fi = s.pu.fi ∧ (setLock l s).pu.q = s.pu.q ∧
    (setLock l s).pu.lastQ = s.pu.lastQ ∧ (setLock l s).pu.planActive = s.pu.planActive ∧
    (setLock l s).pu.k = s.pu.k ∧ (setLock l s).pu.tr = s.pu.tr ∧ (setLock l s).pu.admitted = s.pu.admitted ∧
    (setLock l s).pu.armed = s.pu.armed ∧ (setLock l s).ml.asm = s.ml.asm ∧
    (setLock l s).ml.partialMsg = s.ml.partialMsg ∧ (setLock l s).ml.lastByte = s.ml.lastByte ∧
    (setLock l s).ml.slots = s.ml.slots ∧ (setLock l s).ml.overrun = s.ml.overrun ∧
    (setLock l s).ml.enables = s.ml.enables ∧ (setLock l s).ml.replies = s.ml.replies ∧
    (setLock l s).ml.tx = s.ml.tx ∧ (setLock l s).ml.defProfile = s.ml.defProfile ∧
    (setLock l s).ml.defLut = s.ml.defLut ∧ (setLock l s).ml.defReset = s.ml.defReset ∧
    (setLock l s).ml.doneOrder = s.ml.doneOrder := by
  simp only [setLock]
  repeat' split
  all_goals simp

/-- What `dropLock` leaves unchanged. -/
@[simp] theorem dropLock_frame (s : State) :
    (dropLock s).timeBase = s.timeBase ∧ (dropLock s).resetAsserted = s.resetAsserted ∧
    (dropLock s).pool = s.pool ∧ (dropLock s).sp = s.sp ∧ (dropLock s).ps = s.ps ∧ (dropLock s).cs = s.cs ∧
    (dropLock s).pc = s.pc ∧ (dropLock s).pf = s.pf ∧ (dropLock s).hr = s.hr ∧ (dropLock s).panel = s.panel ∧
    (dropLock s).choices = s.choices ∧ (dropLock s).pending = s.pending ∧ (dropLock s).otg.mode = s.otg.mode ∧
    (dropLock s).otg.timing = s.otg.timing ∧ (dropLock s).otg.tLast = s.otg.tLast ∧
    (dropLock s).otg.tminTimer = s.otg.tminTimer ∧ (dropLock s).otg.minPassed = s.otg.minPassed ∧
    (dropLock s).otg.keptRepeat = s.otg.keptRepeat ∧ (dropLock s).otg.fixedTimer = s.otg.fixedTimer ∧
    (dropLock s).otg.keptFixed = s.otg.keptFixed ∧ (dropLock s).otg.nextStrip = s.otg.nextStrip ∧
    (dropLock s).otg.pendingApp = s.otg.pendingApp ∧ (dropLock s).otg.pendingReset = s.otg.pendingReset ∧
    (dropLock s).otg.repeatTimer = s.otg.repeatTimer ∧ (dropLock s).otg.planCount = s.otg.planCount ∧
    (dropLock s).pu.intervals = s.pu.intervals ∧ (dropLock s).pu.fills = s.pu.fills ∧
    (dropLock s).pu.ti = s.pu.ti ∧ (dropLock s).pu.fi = s.pu.fi ∧ (dropLock s).pu.q = s.pu.q ∧
    (dropLock s).pu.lastQ = s.pu.lastQ ∧ (dropLock s).pu.planActive = s.pu.planActive ∧
    (dropLock s).pu.k = s.pu.k ∧ (dropLock s).pu.tr = s.pu.tr ∧ (dropLock s).pu.admitted = s.pu.admitted ∧
    (dropLock s).pu.armed = s.pu.armed ∧ (dropLock s).ml.asm = s.ml.asm ∧
    (dropLock s).ml.partialMsg = s.ml.partialMsg ∧ (dropLock s).ml.lastByte = s.ml.lastByte ∧
    (dropLock s).ml.slots = s.ml.slots ∧ (dropLock s).ml.overrun = s.ml.overrun ∧
    (dropLock s).ml.enables = s.ml.enables ∧ (dropLock s).ml.replies = s.ml.replies ∧
    (dropLock s).ml.tx = s.ml.tx ∧ (dropLock s).ml.defProfile = s.ml.defProfile ∧
    (dropLock s).ml.defLut = s.ml.defLut ∧ (dropLock s).ml.defReset = s.ml.defReset ∧
    (dropLock s).ml.doneOrder = s.ml.doneOrder := by
  simp [dropLock]

/-- What `loadBackstop` leaves unchanged. -/
@[simp] theorem loadBackstop_frame (s : State) :
    (loadBackstop s).timeBase = s.timeBase ∧ (loadBackstop s).resetAsserted = s.resetAsserted ∧
    (loadBackstop s).pool = s.pool ∧ (loadBackstop s).sp = s.sp ∧ (loadBackstop s).pu = s.pu ∧
    (loadBackstop s).ps = s.ps ∧ (loadBackstop s).cs = s.cs ∧ (loadBackstop s).pc = s.pc ∧
    (loadBackstop s).pf = s.pf ∧ (loadBackstop s).hr = s.hr ∧ (loadBackstop s).ml = s.ml ∧
    (loadBackstop s).panel = s.panel ∧ (loadBackstop s).choices = s.choices ∧
    (loadBackstop s).pending = s.pending ∧ (loadBackstop s).otg.mode = s.otg.mode ∧
    (loadBackstop s).otg.timing = s.otg.timing ∧ (loadBackstop s).otg.tLast = s.otg.tLast ∧
    (loadBackstop s).otg.tminTimer = s.otg.tminTimer ∧ (loadBackstop s).otg.minPassed = s.otg.minPassed ∧
    (loadBackstop s).otg.keptRepeat = s.otg.keptRepeat ∧ (loadBackstop s).otg.fixedTimer = s.otg.fixedTimer ∧
    (loadBackstop s).otg.keptFixed = s.otg.keptFixed ∧ (loadBackstop s).otg.nextStrip = s.otg.nextStrip ∧
    (loadBackstop s).otg.pendingApp = s.otg.pendingApp ∧ (loadBackstop s).otg.pendingReset = s.otg.pendingReset ∧
    (loadBackstop s).otg.lock = s.otg.lock := by
  simp [loadBackstop]

/-- What `takePlan` leaves unchanged. -/
@[simp] theorem takePlan_frame (s : State) :
    (takePlan s).timeBase = s.timeBase ∧ (takePlan s).resetAsserted = s.resetAsserted ∧
    (takePlan s).pool = s.pool ∧ (takePlan s).sp = s.sp ∧ (takePlan s).pu = s.pu ∧ (takePlan s).ps = s.ps ∧
    (takePlan s).cs = s.cs ∧ (takePlan s).pc = s.pc ∧ (takePlan s).pf = s.pf ∧ (takePlan s).hr = s.hr ∧
    (takePlan s).ml = s.ml ∧ (takePlan s).panel = s.panel ∧ (takePlan s).choices = s.choices ∧
    (takePlan s).pending = s.pending ∧ (takePlan s).otg.mode = s.otg.mode ∧
    (takePlan s).otg.timing = s.otg.timing ∧ (takePlan s).otg.tLast = s.otg.tLast ∧
    (takePlan s).otg.tminTimer = s.otg.tminTimer ∧ (takePlan s).otg.minPassed = s.otg.minPassed ∧
    (takePlan s).otg.keptRepeat = s.otg.keptRepeat ∧ (takePlan s).otg.fixedTimer = s.otg.fixedTimer ∧
    (takePlan s).otg.keptFixed = s.otg.keptFixed ∧ (takePlan s).otg.nextStrip = s.otg.nextStrip ∧
    (takePlan s).otg.pendingApp = s.otg.pendingApp ∧ (takePlan s).otg.pendingReset = s.otg.pendingReset ∧
    (takePlan s).otg.lock = s.otg.lock := by
  simp only [takePlan]
  repeat' split
  all_goals simp

/-- What `setPlan` leaves unchanged. -/
@[simp] theorem setPlan_frame (s : State) :
    (setPlan s).timeBase = s.timeBase ∧ (setPlan s).resetAsserted = s.resetAsserted ∧ (setPlan s).pool = s.pool ∧
    (setPlan s).sp = s.sp ∧ (setPlan s).otg = s.otg ∧ (setPlan s).ps = s.ps ∧ (setPlan s).cs = s.cs ∧
    (setPlan s).pc = s.pc ∧ (setPlan s).pf = s.pf ∧ (setPlan s).hr = s.hr ∧ (setPlan s).ml = s.ml ∧
    (setPlan s).panel = s.panel ∧ (setPlan s).choices = s.choices ∧ (setPlan s).pending = s.pending ∧
    (setPlan s).pu.intervals = s.pu.intervals ∧ (setPlan s).pu.fills = s.pu.fills ∧ (setPlan s).pu.ti = s.pu.ti ∧
    (setPlan s).pu.fi = s.pu.fi ∧ (setPlan s).pu.q = s.pu.q ∧ (setPlan s).pu.lastQ = s.pu.lastQ ∧
    (setPlan s).pu.nextFixed = s.pu.nextFixed ∧ (setPlan s).pu.armed = s.pu.armed ∧
    (setPlan s).pu.good = s.pu.good ∧ (setPlan s).pu.bad = s.pu.bad ∧
    (setPlan s).pu.admitted = s.pu.admitted := by
  simp [setPlan]

/-- What `setAdmission` leaves unchanged. -/
@[simp] theorem setAdmission_frame (s : State) :
    (setAdmission s).timeBase = s.timeBase ∧ (setAdmission s).resetAsserted = s.resetAsserted ∧
    (setAdmission s).pool = s.pool ∧ (setAdmission s).sp = s.sp ∧ (setAdmission s).otg = s.otg ∧
    (setAdmission s).ps = s.ps ∧ (setAdmission s).cs = s.cs ∧ (setAdmission s).pc = s.pc ∧
    (setAdmission s).pf = s.pf ∧ (setAdmission s).hr = s.hr ∧ (setAdmission s).ml = s.ml ∧
    (setAdmission s).panel = s.panel ∧ (setAdmission s).choices = s.choices ∧
    (setAdmission s).pending = s.pending ∧ (setAdmission s).pu.intervals = s.pu.intervals ∧
    (setAdmission s).pu.fills = s.pu.fills ∧ (setAdmission s).pu.ti = s.pu.ti ∧
    (setAdmission s).pu.fi = s.pu.fi ∧ (setAdmission s).pu.q = s.pu.q ∧ (setAdmission s).pu.lastQ = s.pu.lastQ ∧
    (setAdmission s).pu.planActive = s.pu.planActive ∧ (setAdmission s).pu.k = s.pu.k ∧
    (setAdmission s).pu.tr = s.pu.tr ∧ (setAdmission s).pu.nextFixed = s.pu.nextFixed ∧
    (setAdmission s).pu.armed = s.pu.armed ∧ (setAdmission s).pu.good = s.pu.good ∧
    (setAdmission s).pu.bad = s.pu.bad := by
  simp [setAdmission]

/-- What `takeAdmission` leaves unchanged. -/
@[simp] theorem takeAdmission_frame (s : State) :
    (takeAdmission s).timeBase = s.timeBase ∧ (takeAdmission s).resetAsserted = s.resetAsserted ∧
    (takeAdmission s).pool = s.pool ∧ (takeAdmission s).sp = s.sp ∧ (takeAdmission s).ps = s.ps ∧
    (takeAdmission s).cs = s.cs ∧ (takeAdmission s).pc = s.pc ∧ (takeAdmission s).pf = s.pf ∧
    (takeAdmission s).hr = s.hr ∧ (takeAdmission s).panel = s.panel ∧ (takeAdmission s).choices = s.choices ∧
    (takeAdmission s).pending = s.pending ∧ (takeAdmission s).otg.mode = s.otg.mode ∧
    (takeAdmission s).otg.timing = s.otg.timing ∧ (takeAdmission s).otg.tLast = s.otg.tLast ∧
    (takeAdmission s).otg.tminTimer = s.otg.tminTimer ∧ (takeAdmission s).otg.minPassed = s.otg.minPassed ∧
    (takeAdmission s).otg.keptRepeat = s.otg.keptRepeat ∧ (takeAdmission s).otg.fixedTimer = s.otg.fixedTimer ∧
    (takeAdmission s).otg.keptFixed = s.otg.keptFixed ∧ (takeAdmission s).otg.nextStrip = s.otg.nextStrip ∧
    (takeAdmission s).otg.pendingApp = s.otg.pendingApp ∧
    (takeAdmission s).otg.pendingReset = s.otg.pendingReset ∧
    (takeAdmission s).otg.repeatTimer = s.otg.repeatTimer ∧ (takeAdmission s).otg.planCount = s.otg.planCount ∧
    (takeAdmission s).pu.intervals = s.pu.intervals ∧ (takeAdmission s).pu.fills = s.pu.fills ∧
    (takeAdmission s).pu.ti = s.pu.ti ∧ (takeAdmission s).pu.fi = s.pu.fi ∧ (takeAdmission s).pu.q = s.pu.q ∧
    (takeAdmission s).pu.lastQ = s.pu.lastQ ∧ (takeAdmission s).pu.planActive = s.pu.planActive ∧
    (takeAdmission s).pu.k = s.pu.k ∧ (takeAdmission s).pu.tr = s.pu.tr ∧
    (takeAdmission s).pu.admitted = s.pu.admitted ∧ (takeAdmission s).pu.armed = s.pu.armed ∧
    (takeAdmission s).ml.asm = s.ml.asm ∧ (takeAdmission s).ml.partialMsg = s.ml.partialMsg ∧
    (takeAdmission s).ml.lastByte = s.ml.lastByte ∧ (takeAdmission s).ml.slots = s.ml.slots ∧
    (takeAdmission s).ml.overrun = s.ml.overrun ∧ (takeAdmission s).ml.enables = s.ml.enables ∧
    (takeAdmission s).ml.replies = s.ml.replies ∧ (takeAdmission s).ml.tx = s.ml.tx ∧
    (takeAdmission s).ml.defProfile = s.ml.defProfile ∧ (takeAdmission s).ml.defLut = s.ml.defLut ∧
    (takeAdmission s).ml.defReset = s.ml.defReset ∧ (takeAdmission s).ml.doneOrder = s.ml.doneOrder := by
  simp only [takeAdmission]
  repeat' split
  all_goals simp

/-- What `intervalsChanged` leaves unchanged. -/
@[simp] theorem intervalsChanged_frame (w : List Nat) (s : State) :
    (intervalsChanged w s).timeBase = s.timeBase ∧ (intervalsChanged w s).resetAsserted = s.resetAsserted ∧
    (intervalsChanged w s).pool = s.pool ∧ (intervalsChanged w s).sp = s.sp ∧ (intervalsChanged w s).ps = s.ps ∧
    (intervalsChanged w s).cs = s.cs ∧ (intervalsChanged w s).pc = s.pc ∧ (intervalsChanged w s).pf = s.pf ∧
    (intervalsChanged w s).hr = s.hr ∧ (intervalsChanged w s).panel = s.panel ∧
    (intervalsChanged w s).choices = s.choices ∧ (intervalsChanged w s).pending = s.pending ∧
    (intervalsChanged w s).otg.mode = s.otg.mode ∧ (intervalsChanged w s).otg.timing = s.otg.timing ∧
    (intervalsChanged w s).otg.tLast = s.otg.tLast ∧ (intervalsChanged w s).otg.tminTimer = s.otg.tminTimer ∧
    (intervalsChanged w s).otg.minPassed = s.otg.minPassed ∧
    (intervalsChanged w s).otg.keptRepeat = s.otg.keptRepeat ∧
    (intervalsChanged w s).otg.fixedTimer = s.otg.fixedTimer ∧
    (intervalsChanged w s).otg.keptFixed = s.otg.keptFixed ∧
    (intervalsChanged w s).otg.nextStrip = s.otg.nextStrip ∧
    (intervalsChanged w s).otg.pendingApp = s.otg.pendingApp ∧
    (intervalsChanged w s).otg.pendingReset = s.otg.pendingReset ∧ (intervalsChanged w s).pu.fills = s.pu.fills ∧
    (intervalsChanged w s).pu.fi = s.pu.fi ∧ (intervalsChanged w s).pu.q = s.pu.q ∧
    (intervalsChanged w s).pu.lastQ = s.pu.lastQ ∧ (intervalsChanged w s).pu.armed = s.pu.armed ∧
    (intervalsChanged w s).ml.asm = s.ml.asm ∧ (intervalsChanged w s).ml.partialMsg = s.ml.partialMsg ∧
    (intervalsChanged w s).ml.lastByte = s.ml.lastByte ∧ (intervalsChanged w s).ml.slots = s.ml.slots ∧
    (intervalsChanged w s).ml.overrun = s.ml.overrun ∧ (intervalsChanged w s).ml.enables = s.ml.enables ∧
    (intervalsChanged w s).ml.replies = s.ml.replies ∧ (intervalsChanged w s).ml.tx = s.ml.tx ∧
    (intervalsChanged w s).ml.defProfile = s.ml.defProfile ∧ (intervalsChanged w s).ml.defLut = s.ml.defLut ∧
    (intervalsChanged w s).ml.defReset = s.ml.defReset ∧
    (intervalsChanged w s).ml.doneOrder = s.ml.doneOrder := by
  simp [intervalsChanged]

/-- What `addInterval` leaves unchanged. -/
@[simp] theorem addInterval_frame (x : Nat) (s : State) :
    (addInterval x s).timeBase = s.timeBase ∧ (addInterval x s).resetAsserted = s.resetAsserted ∧
    (addInterval x s).pool = s.pool ∧ (addInterval x s).sp = s.sp ∧ (addInterval x s).ps = s.ps ∧
    (addInterval x s).cs = s.cs ∧ (addInterval x s).pc = s.pc ∧ (addInterval x s).pf = s.pf ∧
    (addInterval x s).hr = s.hr ∧ (addInterval x s).panel = s.panel ∧ (addInterval x s).choices = s.choices ∧
    (addInterval x s).pending = s.pending ∧ (addInterval x s).otg.mode = s.otg.mode ∧
    (addInterval x s).otg.timing = s.otg.timing ∧ (addInterval x s).otg.tLast = s.otg.tLast ∧
    (addInterval x s).otg.tminTimer = s.otg.tminTimer ∧ (addInterval x s).otg.minPassed = s.otg.minPassed ∧
    (addInterval x s).otg.keptRepeat = s.otg.keptRepeat ∧ (addInterval x s).otg.fixedTimer = s.otg.fixedTimer ∧
    (addInterval x s).otg.keptFixed = s.otg.keptFixed ∧ (addInterval x s).otg.nextStrip = s.otg.nextStrip ∧
    (addInterval x s).otg.pendingApp = s.otg.pendingApp ∧
    (addInterval x s).otg.pendingReset = s.otg.pendingReset ∧ (addInterval x s).pu.fills = s.pu.fills ∧
    (addInterval x s).pu.fi = s.pu.fi ∧ (addInterval x s).pu.q = s.pu.q ∧
    (addInterval x s).pu.lastQ = s.pu.lastQ ∧ (addInterval x s).pu.armed = s.pu.armed ∧
    (addInterval x s).ml.asm = s.ml.asm ∧ (addInterval x s).ml.partialMsg = s.ml.partialMsg ∧
    (addInterval x s).ml.lastByte = s.ml.lastByte ∧ (addInterval x s).ml.slots = s.ml.slots ∧
    (addInterval x s).ml.overrun = s.ml.overrun ∧ (addInterval x s).ml.enables = s.ml.enables ∧
    (addInterval x s).ml.replies = s.ml.replies ∧ (addInterval x s).ml.tx = s.ml.tx ∧
    (addInterval x s).ml.defProfile = s.ml.defProfile ∧ (addInterval x s).ml.defLut = s.ml.defLut ∧
    (addInterval x s).ml.defReset = s.ml.defReset ∧ (addInterval x s).ml.doneOrder = s.ml.doneOrder := by
  simp [addInterval]

/-- What `clearIntervals` leaves unchanged. -/
@[simp] theorem clearIntervals_frame (s : State) :
    (clearIntervals s).timeBase = s.timeBase ∧ (clearIntervals s).resetAsserted = s.resetAsserted ∧
    (clearIntervals s).pool = s.pool ∧ (clearIntervals s).sp = s.sp ∧ (clearIntervals s).ps = s.ps ∧
    (clearIntervals s).cs = s.cs ∧ (clearIntervals s).pc = s.pc ∧ (clearIntervals s).pf = s.pf ∧
    (clearIntervals s).hr = s.hr ∧ (clearIntervals s).panel = s.panel ∧ (clearIntervals s).choices = s.choices ∧
    (clearIntervals s).pending = s.pending ∧ (clearIntervals s).otg.mode = s.otg.mode ∧
    (clearIntervals s).otg.timing = s.otg.timing ∧ (clearIntervals s).otg.tLast = s.otg.tLast ∧
    (clearIntervals s).otg.tminTimer = s.otg.tminTimer ∧ (clearIntervals s).otg.minPassed = s.otg.minPassed ∧
    (clearIntervals s).otg.keptRepeat = s.otg.keptRepeat ∧ (clearIntervals s).otg.fixedTimer = s.otg.fixedTimer ∧
    (clearIntervals s).otg.keptFixed = s.otg.keptFixed ∧ (clearIntervals s).otg.nextStrip = s.otg.nextStrip ∧
    (clearIntervals s).otg.pendingApp = s.otg.pendingApp ∧
    (clearIntervals s).otg.pendingReset = s.otg.pendingReset ∧ (clearIntervals s).pu.fills = s.pu.fills ∧
    (clearIntervals s).pu.fi = s.pu.fi ∧ (clearIntervals s).pu.q = s.pu.q ∧
    (clearIntervals s).pu.lastQ = s.pu.lastQ ∧ (clearIntervals s).pu.armed = s.pu.armed ∧
    (clearIntervals s).ml.asm = s.ml.asm ∧ (clearIntervals s).ml.partialMsg = s.ml.partialMsg ∧
    (clearIntervals s).ml.lastByte = s.ml.lastByte ∧ (clearIntervals s).ml.slots = s.ml.slots ∧
    (clearIntervals s).ml.overrun = s.ml.overrun ∧ (clearIntervals s).ml.enables = s.ml.enables ∧
    (clearIntervals s).ml.replies = s.ml.replies ∧ (clearIntervals s).ml.tx = s.ml.tx ∧
    (clearIntervals s).ml.defProfile = s.ml.defProfile ∧ (clearIntervals s).ml.defLut = s.ml.defLut ∧
    (clearIntervals s).ml.defReset = s.ml.defReset ∧ (clearIntervals s).ml.doneOrder = s.ml.doneOrder := by
  simp [clearIntervals]

/-- Counting a measurement leaves the rest of the unit. -/
@[simp] theorem countMeasurement_fields (p : Profile) (d : Int) (l : Lock) (u : PacingUnit) :
    (countMeasurement p d l u).intervals = u.intervals ∧ (countMeasurement p d l u).fills = u.fills ∧
    (countMeasurement p d l u).ti = u.ti ∧ (countMeasurement p d l u).fi = u.fi ∧
    (countMeasurement p d l u).q = u.q ∧ (countMeasurement p d l u).lastQ = u.lastQ ∧
    (countMeasurement p d l u).planActive = u.planActive ∧ (countMeasurement p d l u).k = u.k ∧
    (countMeasurement p d l u).tr = u.tr ∧ (countMeasurement p d l u).nextFixed = u.nextFixed ∧
    (countMeasurement p d l u).armed = u.armed ∧ (countMeasurement p d l u).admitted = u.admitted := by
  cases l <;> simp [countMeasurement]

/-- What `takeReport` leaves unchanged. -/
@[simp] theorem takeReport_frame (s : State) :
    (takeReport s).timeBase = s.timeBase ∧ (takeReport s).resetAsserted = s.resetAsserted ∧
    (takeReport s).pool = s.pool ∧ (takeReport s).sp = s.sp ∧ (takeReport s).ps = s.ps ∧
    (takeReport s).cs = s.cs ∧ (takeReport s).pc = s.pc ∧ (takeReport s).pf = s.pf ∧ (takeReport s).hr = s.hr ∧
    (takeReport s).panel = s.panel ∧ (takeReport s).choices = s.choices ∧ (takeReport s).pending = s.pending ∧
    (takeReport s).otg.mode = s.otg.mode ∧ (takeReport s).otg.timing = s.otg.timing ∧
    (takeReport s).otg.tLast = s.otg.tLast ∧ (takeReport s).otg.tminTimer = s.otg.tminTimer ∧
    (takeReport s).otg.minPassed = s.otg.minPassed ∧ (takeReport s).otg.keptRepeat = s.otg.keptRepeat ∧
    (takeReport s).otg.fixedTimer = s.otg.fixedTimer ∧ (takeReport s).otg.keptFixed = s.otg.keptFixed ∧
    (takeReport s).otg.nextStrip = s.otg.nextStrip ∧ (takeReport s).otg.pendingApp = s.otg.pendingApp ∧
    (takeReport s).otg.pendingReset = s.otg.pendingReset ∧ (takeReport s).otg.repeatTimer = s.otg.repeatTimer ∧
    (takeReport s).otg.planCount = s.otg.planCount ∧ (takeReport s).pu.intervals = s.pu.intervals ∧
    (takeReport s).pu.fills = s.pu.fills ∧ (takeReport s).pu.ti = s.pu.ti ∧ (takeReport s).pu.fi = s.pu.fi ∧
    (takeReport s).pu.q = s.pu.q ∧ (takeReport s).pu.lastQ = s.pu.lastQ ∧
    (takeReport s).pu.planActive = s.pu.planActive ∧ (takeReport s).pu.k = s.pu.k ∧
    (takeReport s).pu.tr = s.pu.tr ∧ (takeReport s).pu.admitted = s.pu.admitted ∧
    (takeReport s).pu.armed = s.pu.armed ∧ (takeReport s).ml.asm = s.ml.asm ∧
    (takeReport s).ml.partialMsg = s.ml.partialMsg ∧ (takeReport s).ml.lastByte = s.ml.lastByte ∧
    (takeReport s).ml.slots = s.ml.slots ∧ (takeReport s).ml.overrun = s.ml.overrun ∧
    (takeReport s).ml.enables = s.ml.enables ∧ (takeReport s).ml.replies = s.ml.replies ∧
    (takeReport s).ml.tx = s.ml.tx ∧ (takeReport s).ml.defProfile = s.ml.defProfile ∧
    (takeReport s).ml.defLut = s.ml.defLut ∧ (takeReport s).ml.defReset = s.ml.defReset ∧
    (takeReport s).ml.doneOrder = s.ml.doneOrder := by
  simp only [takeReport]
  repeat' split
  all_goals simp

/-- What `measureFrom` leaves unchanged. -/
@[simp] theorem measureFrom_frame (x : Time) (s : State) :
    (measureFrom x s).timeBase = s.timeBase ∧ (measureFrom x s).resetAsserted = s.resetAsserted ∧
    (measureFrom x s).pool = s.pool ∧ (measureFrom x s).sp = s.sp ∧ (measureFrom x s).ps = s.ps ∧
    (measureFrom x s).cs = s.cs ∧ (measureFrom x s).pc = s.pc ∧ (measureFrom x s).pf = s.pf ∧
    (measureFrom x s).hr = s.hr ∧ (measureFrom x s).panel = s.panel ∧ (measureFrom x s).choices = s.choices ∧
    (measureFrom x s).pending = s.pending ∧ (measureFrom x s).otg.mode = s.otg.mode ∧
    (measureFrom x s).otg.timing = s.otg.timing ∧ (measureFrom x s).otg.tLast = s.otg.tLast ∧
    (measureFrom x s).otg.tminTimer = s.otg.tminTimer ∧ (measureFrom x s).otg.minPassed = s.otg.minPassed ∧
    (measureFrom x s).otg.keptRepeat = s.otg.keptRepeat ∧ (measureFrom x s).otg.fixedTimer = s.otg.fixedTimer ∧
    (measureFrom x s).otg.keptFixed = s.otg.keptFixed ∧ (measureFrom x s).otg.nextStrip = s.otg.nextStrip ∧
    (measureFrom x s).otg.pendingApp = s.otg.pendingApp ∧ (measureFrom x s).otg.pendingReset = s.otg.pendingReset ∧
    (measureFrom x s).otg.repeatTimer = s.otg.repeatTimer ∧ (measureFrom x s).otg.planCount = s.otg.planCount ∧
    (measureFrom x s).pu.intervals = s.pu.intervals ∧ (measureFrom x s).pu.fills = s.pu.fills ∧
    (measureFrom x s).pu.ti = s.pu.ti ∧ (measureFrom x s).pu.fi = s.pu.fi ∧ (measureFrom x s).pu.q = s.pu.q ∧
    (measureFrom x s).pu.lastQ = s.pu.lastQ ∧ (measureFrom x s).pu.planActive = s.pu.planActive ∧
    (measureFrom x s).pu.k = s.pu.k ∧ (measureFrom x s).pu.tr = s.pu.tr ∧
    (measureFrom x s).pu.admitted = s.pu.admitted ∧ (measureFrom x s).ml.asm = s.ml.asm ∧
    (measureFrom x s).ml.partialMsg = s.ml.partialMsg ∧ (measureFrom x s).ml.lastByte = s.ml.lastByte ∧
    (measureFrom x s).ml.slots = s.ml.slots ∧ (measureFrom x s).ml.overrun = s.ml.overrun ∧
    (measureFrom x s).ml.enables = s.ml.enables ∧ (measureFrom x s).ml.replies = s.ml.replies ∧
    (measureFrom x s).ml.tx = s.ml.tx ∧ (measureFrom x s).ml.defProfile = s.ml.defProfile ∧
    (measureFrom x s).ml.defLut = s.ml.defLut ∧ (measureFrom x s).ml.defReset = s.ml.defReset ∧
    (measureFrom x s).ml.doneOrder = s.ml.doneOrder := by
  simp only [measureFrom]
  repeat' split
  all_goals simp

/-- What `phaseMeasure` leaves unchanged. -/
@[simp] theorem phaseMeasure_frame (s : State) :
    (phaseMeasure s).timeBase = s.timeBase ∧ (phaseMeasure s).resetAsserted = s.resetAsserted ∧
    (phaseMeasure s).pool = s.pool ∧ (phaseMeasure s).sp = s.sp ∧ (phaseMeasure s).ps = s.ps ∧
    (phaseMeasure s).cs = s.cs ∧ (phaseMeasure s).pc = s.pc ∧ (phaseMeasure s).pf = s.pf ∧
    (phaseMeasure s).hr = s.hr ∧ (phaseMeasure s).panel = s.panel ∧ (phaseMeasure s).choices = s.choices ∧
    (phaseMeasure s).pending = s.pending ∧ (phaseMeasure s).otg.mode = s.otg.mode ∧
    (phaseMeasure s).otg.timing = s.otg.timing ∧ (phaseMeasure s).otg.tLast = s.otg.tLast ∧
    (phaseMeasure s).otg.tminTimer = s.otg.tminTimer ∧ (phaseMeasure s).otg.minPassed = s.otg.minPassed ∧
    (phaseMeasure s).otg.keptRepeat = s.otg.keptRepeat ∧ (phaseMeasure s).otg.fixedTimer = s.otg.fixedTimer ∧
    (phaseMeasure s).otg.keptFixed = s.otg.keptFixed ∧ (phaseMeasure s).otg.nextStrip = s.otg.nextStrip ∧
    (phaseMeasure s).otg.pendingApp = s.otg.pendingApp ∧ (phaseMeasure s).otg.pendingReset = s.otg.pendingReset ∧
    (phaseMeasure s).otg.repeatTimer = s.otg.repeatTimer ∧ (phaseMeasure s).otg.planCount = s.otg.planCount ∧
    (phaseMeasure s).pu.intervals = s.pu.intervals ∧ (phaseMeasure s).pu.fills = s.pu.fills ∧
    (phaseMeasure s).pu.ti = s.pu.ti ∧ (phaseMeasure s).pu.fi = s.pu.fi ∧ (phaseMeasure s).pu.q = s.pu.q ∧
    (phaseMeasure s).pu.lastQ = s.pu.lastQ ∧ (phaseMeasure s).pu.planActive = s.pu.planActive ∧
    (phaseMeasure s).pu.k = s.pu.k ∧ (phaseMeasure s).pu.tr = s.pu.tr ∧
    (phaseMeasure s).pu.admitted = s.pu.admitted ∧ (phaseMeasure s).ml.asm = s.ml.asm ∧
    (phaseMeasure s).ml.partialMsg = s.ml.partialMsg ∧ (phaseMeasure s).ml.lastByte = s.ml.lastByte ∧
    (phaseMeasure s).ml.slots = s.ml.slots ∧ (phaseMeasure s).ml.overrun = s.ml.overrun ∧
    (phaseMeasure s).ml.enables = s.ml.enables ∧ (phaseMeasure s).ml.replies = s.ml.replies ∧
    (phaseMeasure s).ml.tx = s.ml.tx ∧ (phaseMeasure s).ml.defProfile = s.ml.defProfile ∧
    (phaseMeasure s).ml.defLut = s.ml.defLut ∧ (phaseMeasure s).ml.defReset = s.ml.defReset ∧
    (phaseMeasure s).ml.doneOrder = s.ml.doneOrder := by
  simp [phaseMeasure]

/-- What `armMeasurement` leaves unchanged. -/
@[simp] theorem armMeasurement_frame (s : State) :
    (armMeasurement s).timeBase = s.timeBase ∧ (armMeasurement s).resetAsserted = s.resetAsserted ∧
    (armMeasurement s).pool = s.pool ∧ (armMeasurement s).sp = s.sp ∧ (armMeasurement s).otg = s.otg ∧
    (armMeasurement s).ps = s.ps ∧ (armMeasurement s).cs = s.cs ∧ (armMeasurement s).pc = s.pc ∧
    (armMeasurement s).pf = s.pf ∧ (armMeasurement s).hr = s.hr ∧ (armMeasurement s).ml = s.ml ∧
    (armMeasurement s).panel = s.panel ∧ (armMeasurement s).choices = s.choices ∧
    (armMeasurement s).pending = s.pending ∧ (armMeasurement s).pu.intervals = s.pu.intervals ∧
    (armMeasurement s).pu.fills = s.pu.fills ∧ (armMeasurement s).pu.ti = s.pu.ti ∧
    (armMeasurement s).pu.fi = s.pu.fi ∧ (armMeasurement s).pu.q = s.pu.q ∧
    (armMeasurement s).pu.lastQ = s.pu.lastQ ∧ (armMeasurement s).pu.planActive = s.pu.planActive ∧
    (armMeasurement s).pu.k = s.pu.k ∧ (armMeasurement s).pu.tr = s.pu.tr ∧
    (armMeasurement s).pu.admitted = s.pu.admitted ∧ (armMeasurement s).pu.good = s.pu.good ∧
    (armMeasurement s).pu.bad = s.pu.bad := by
  simp only [armMeasurement]
  repeat' split
  all_goals simp

/-- Judging the candidates keeps whatever each event and each mark keep. -/
theorem judgeAll_keeps {β : Type} (g : State → β) (event : State → State) (hev : ∀ s, g (event s) = g s)
    (hm : ∀ k s, g (markEligible k s) = g s) (s : State) : g (judgeAll event s) = g s := by
  suffices h : ∀ (l : List Slot) (s : State),
      g (l.foldl (fun s k => if s.judges k then event (markEligible k s) else s) s) = g s from h s.pool.cands s
  intro l
  induction l with
  | nil => intro s; rfl
  | cons k l ih =>
    intro s
    rw [List.foldl_cons, ih]
    split
    · rw [hev, hm]
    · rfl

/-- A publication of Q keeps whatever each event and the three copies of Q keep. -/
theorem publishQ_keeps {β : Type} (g : State → β) (event : State → State) (hev : ∀ s, g (event s) = g s)
    (hm : ∀ k s, g (markEligible k s) = g s) (s : State)
    (hq : ∀ s', s' = ((s.setPu { s.pu with lastQ := s.pu.q }).setPool { s.pool with q := s.pu.q }).setPs
      { s.ps with q := s.pu.q } → g s' = g s) : g (publishQ event s) = g s := by
  rw [publishQ, judgeAll_keeps g event hev hm]
  exact hq _ rfl

/-- What `emptyWindows` leaves unchanged. -/
@[simp] theorem emptyWindows_frame (i f : Bool) (s : State) :
    (emptyWindows i f s).timeBase = s.timeBase ∧ (emptyWindows i f s).resetAsserted = s.resetAsserted ∧
    (emptyWindows i f s).pool = s.pool ∧ (emptyWindows i f s).sp = s.sp ∧ (emptyWindows i f s).otg = s.otg ∧
    (emptyWindows i f s).ps = s.ps ∧ (emptyWindows i f s).cs = s.cs ∧ (emptyWindows i f s).pc = s.pc ∧
    (emptyWindows i f s).pf = s.pf ∧ (emptyWindows i f s).hr = s.hr ∧ (emptyWindows i f s).ml = s.ml ∧
    (emptyWindows i f s).panel = s.panel ∧ (emptyWindows i f s).pending = s.pending ∧
    (emptyWindows i f s).choices = s.choices + 2 := by
  simp [emptyWindows]

/-- What `resetPacing` leaves unchanged. -/
@[simp] theorem resetPacing_frame (s : State) :
    (resetPacing s).timeBase = s.timeBase ∧ (resetPacing s).resetAsserted = s.resetAsserted ∧
    (resetPacing s).pool = s.pool ∧ (resetPacing s).sp = s.sp ∧ (resetPacing s).otg = s.otg ∧
    (resetPacing s).ps = s.ps ∧ (resetPacing s).cs = s.cs ∧ (resetPacing s).pc = s.pc ∧
    (resetPacing s).pf = s.pf ∧ (resetPacing s).hr = s.hr ∧ (resetPacing s).ml = s.ml ∧
    (resetPacing s).panel = s.panel ∧ (resetPacing s).pending = s.pending := by
  simp [resetPacing]

/-- What `copySettings` leaves unchanged. -/
@[simp] theorem copySettings_frame (s : State) :
    (copySettings s).timeBase = s.timeBase ∧ (copySettings s).resetAsserted = s.resetAsserted ∧
    (copySettings s).pool = s.pool ∧ (copySettings s).sp = s.sp ∧ (copySettings s).pu = s.pu ∧
    (copySettings s).otg = s.otg ∧ (copySettings s).ps = s.ps ∧ (copySettings s).pc = s.pc ∧
    (copySettings s).pf = s.pf ∧ (copySettings s).hr = s.hr ∧ (copySettings s).ml = s.ml ∧
    (copySettings s).panel = s.panel ∧ (copySettings s).choices = s.choices ∧
    (copySettings s).pending = s.pending ∧ (copySettings s).cs.active = s.cs.active ∧
    (copySettings s).cs.shadow = s.cs.shadow ∧ (copySettings s).cs.shadowPending = s.cs.shadowPending := by
  simp [copySettings]

/-- What `bankExchange` leaves unchanged. -/
@[simp] theorem bankExchange_frame (s : State) :
    (bankExchange s).timeBase = s.timeBase ∧ (bankExchange s).resetAsserted = s.resetAsserted ∧
    (bankExchange s).pool = s.pool ∧ (bankExchange s).sp = s.sp ∧ (bankExchange s).pu = s.pu ∧
    (bankExchange s).otg = s.otg ∧ (bankExchange s).ps = s.ps ∧ (bankExchange s).pc = s.pc ∧
    (bankExchange s).pf = s.pf ∧ (bankExchange s).hr = s.hr ∧ (bankExchange s).panel = s.panel ∧
    (bankExchange s).choices = s.choices ∧ (bankExchange s).pending = s.pending ∧
    (bankExchange s).cs.scan = s.cs.scan ∧ (bankExchange s).ml.asm = s.ml.asm ∧
    (bankExchange s).ml.partialMsg = s.ml.partialMsg ∧ (bankExchange s).ml.lastByte = s.ml.lastByte ∧
    (bankExchange s).ml.slots = s.ml.slots ∧ (bankExchange s).ml.overrun = s.ml.overrun ∧
    (bankExchange s).ml.enables = s.ml.enables ∧ (bankExchange s).ml.replies = s.ml.replies ∧
    (bankExchange s).ml.tx = s.ml.tx ∧ (bankExchange s).ml.notices = s.ml.notices := by
  simp only [bankExchange, ColourStage.exchanged]
  split
  all_goals simp

/-- What `cancelCommit` leaves unchanged. -/
@[simp] theorem cancelCommit_frame (s : State) :
    (cancelCommit s).timeBase = s.timeBase ∧ (cancelCommit s).resetAsserted = s.resetAsserted ∧
    (cancelCommit s).pool = s.pool ∧ (cancelCommit s).sp = s.sp ∧ (cancelCommit s).pu = s.pu ∧
    (cancelCommit s).otg = s.otg ∧ (cancelCommit s).ps = s.ps ∧ (cancelCommit s).pc = s.pc ∧
    (cancelCommit s).pf = s.pf ∧ (cancelCommit s).hr = s.hr ∧ (cancelCommit s).panel = s.panel ∧
    (cancelCommit s).choices = s.choices ∧ (cancelCommit s).pending = s.pending ∧
    (cancelCommit s).cs.active = s.cs.active ∧ (cancelCommit s).cs.shadow = s.cs.shadow ∧
    (cancelCommit s).cs.scan = s.cs.scan ∧ (cancelCommit s).ml.asm = s.ml.asm ∧
    (cancelCommit s).ml.partialMsg = s.ml.partialMsg ∧ (cancelCommit s).ml.lastByte = s.ml.lastByte ∧
    (cancelCommit s).ml.slots = s.ml.slots ∧ (cancelCommit s).ml.overrun = s.ml.overrun ∧
    (cancelCommit s).ml.enables = s.ml.enables ∧ (cancelCommit s).ml.replies = s.ml.replies ∧
    (cancelCommit s).ml.tx = s.ml.tx ∧ (cancelCommit s).ml.notices = s.ml.notices := by
  simp only [cancelCommit]
  repeat' split
  all_goals simp

/-- What `sendStrip` leaves unchanged. -/
@[simp] theorem sendStrip_frame (k : Nat) (src : StripSource) (s : State) :
    (sendStrip k src s).timeBase = s.timeBase ∧ (sendStrip k src s).resetAsserted = s.resetAsserted ∧
    (sendStrip k src s).pool = s.pool ∧ (sendStrip k src s).sp = s.sp ∧ (sendStrip k src s).pu = s.pu ∧
    (sendStrip k src s).otg = s.otg ∧ (sendStrip k src s).ps = s.ps ∧ (sendStrip k src s).cs = s.cs ∧
    (sendStrip k src s).pc = s.pc ∧ (sendStrip k src s).pf = s.pf ∧ (sendStrip k src s).hr = s.hr ∧
    (sendStrip k src s).ml = s.ml ∧ (sendStrip k src s).choices = s.choices ∧
    (sendStrip k src s).pending = s.pending ∧ (sendStrip k src s).panel.refreshAt = s.panel.refreshAt := by
  simp [sendStrip]

end Sys2Proof.Machine
end

