-- ==== Sys2Proof/Laws/RefreshFrames.lean ====
section
/-! SUPPORT. For each operation of a refresh, once, what it leaves unchanged. -/

namespace Sys2Proof.Machine

/-- Presentations and substitutions leave the numbers of the ring's records. -/
@[simp] theorem presented_frameNo (n : FrameNo) (t : Time) (a b : Bool) (s : State) :
    (onRecord n (FrameRec.presentedAt t a b) s).hr.map FrameRec.frameNo = s.hr.map FrameRec.frameNo :=
  onRecord_frameNo n (FrameRec.presentedAt t a b) (fun _ => rfl) s

/-- A presentation by a splice leaves the numbers of the ring's records. -/
@[simp] theorem spliced_frameNo (n : FrameNo) (t : Time) (j : Nat) (a : Bool) (s : State) :
    (onRecord n (FrameRec.splicedAt t j a) s).hr.map FrameRec.frameNo = s.hr.map FrameRec.frameNo :=
  onRecord_frameNo n (FrameRec.splicedAt t j a) (fun _ => rfl) s

/-- A substitution leaves the numbers of the ring's records. -/
@[simp] theorem substituted_frameNo (n : FrameNo) (s : State) :
    (onRecord n FrameRec.substitutedOne s).hr.map FrameRec.frameNo = s.hr.map FrameRec.frameNo :=
  onRecord_frameNo n FrameRec.substitutedOne (fun _ => rfl) s

/-- What `setKind` leaves unchanged. -/
@[simp] theorem setKind_frame (k : RefreshKind) (s : State) :
    (setKind k s).timeBase = s.timeBase ∧ (setKind k s).resetAsserted = s.resetAsserted ∧
    (setKind k s).pool = s.pool ∧ (setKind k s).sp = s.sp ∧ (setKind k s).pu = s.pu ∧ (setKind k s).otg = s.otg ∧
    (setKind k s).cs = s.cs ∧ (setKind k s).pc = s.pc ∧ (setKind k s).pf = s.pf ∧ (setKind k s).hr = s.hr ∧
    (setKind k s).ml = s.ml ∧ (setKind k s).panel = s.panel ∧ (setKind k s).choices = s.choices ∧
    (setKind k s).pending = s.pending ∧ (setKind k s).ps.detachTime = s.ps.detachTime ∧
    (setKind k s).ps.blankActive = s.ps.blankActive ∧ (setKind k s).ps.watchOpen = s.ps.watchOpen ∧
    (setKind k s).ps.q = s.ps.q := by
  simp [setKind]

/-- What `reportRefresh` leaves unchanged. -/
@[simp] theorem reportRefresh_frame (r : SlotRec) (s : State) :
    (reportRefresh r s).timeBase = s.timeBase ∧ (reportRefresh r s).resetAsserted = s.resetAsserted ∧
    (reportRefresh r s).pool = s.pool ∧ (reportRefresh r s).sp = s.sp ∧ (reportRefresh r s).pu = s.pu ∧
    (reportRefresh r s).otg = s.otg ∧ (reportRefresh r s).ps = s.ps ∧ (reportRefresh r s).cs = s.cs ∧
    (reportRefresh r s).pc = s.pc ∧ (reportRefresh r s).pf = s.pf ∧ (reportRefresh r s).ml = s.ml ∧
    (reportRefresh r s).panel = s.panel ∧ (reportRefresh r s).choices = s.choices ∧
    (reportRefresh r s).pending = s.pending ∧
    (reportRefresh r s).hr.map FrameRec.frameNo = s.hr.map FrameRec.frameNo := by
  simp only [reportRefresh]
  split
  all_goals simp

/-- What `blankUnderHold` leaves unchanged. -/
@[simp] theorem blankUnderHold_frame (s : State) :
    (blankUnderHold s).timeBase = s.timeBase ∧ (blankUnderHold s).resetAsserted = s.resetAsserted ∧
    (blankUnderHold s).pool = s.pool ∧ (blankUnderHold s).sp = s.sp ∧ (blankUnderHold s).pu = s.pu ∧
    (blankUnderHold s).otg = s.otg ∧ (blankUnderHold s).cs = s.cs ∧ (blankUnderHold s).pc = s.pc ∧
    (blankUnderHold s).pf = s.pf ∧ (blankUnderHold s).hr = s.hr ∧ (blankUnderHold s).panel = s.panel ∧
    (blankUnderHold s).choices = s.choices ∧ (blankUnderHold s).pending = s.pending ∧
    (blankUnderHold s).ps.detachTime = s.ps.detachTime ∧ (blankUnderHold s).ps.watchOpen = s.ps.watchOpen ∧
    (blankUnderHold s).ps.q = s.ps.q ∧ (blankUnderHold s).ml.asm = s.ml.asm ∧
    (blankUnderHold s).ml.partialMsg = s.ml.partialMsg ∧ (blankUnderHold s).ml.lastByte = s.ml.lastByte ∧
    (blankUnderHold s).ml.slots = s.ml.slots ∧ (blankUnderHold s).ml.overrun = s.ml.overrun ∧
    (blankUnderHold s).ml.enables = s.ml.enables := by
  simp only [blankUnderHold]
  repeat' split
  all_goals simp

/-- What `chooseRefresh` leaves unchanged. -/
@[simp] theorem chooseRefresh_frame (s : State) :
    (chooseRefresh s).timeBase = s.timeBase ∧ (chooseRefresh s).resetAsserted = s.resetAsserted ∧
    (chooseRefresh s).sp = s.sp ∧ (chooseRefresh s).pu = s.pu ∧ (chooseRefresh s).otg = s.otg ∧
    (chooseRefresh s).cs = s.cs ∧ (chooseRefresh s).pc = s.pc ∧ (chooseRefresh s).pf = s.pf ∧
    (chooseRefresh s).panel = s.panel ∧ (chooseRefresh s).choices = s.choices ∧
    (chooseRefresh s).pending = s.pending ∧ (chooseRefresh s).pool.store = s.pool.store ∧
    (chooseRefresh s).pool.q = s.pool.q ∧ (chooseRefresh s).hr.map FrameRec.frameNo = s.hr.map FrameRec.frameNo ∧
    (chooseRefresh s).ps.detachTime = s.ps.detachTime ∧ (chooseRefresh s).ps.watchOpen = s.ps.watchOpen ∧
    (chooseRefresh s).ps.q = s.ps.q ∧ (chooseRefresh s).ml.asm = s.ml.asm ∧
    (chooseRefresh s).ml.partialMsg = s.ml.partialMsg ∧ (chooseRefresh s).ml.lastByte = s.ml.lastByte ∧
    (chooseRefresh s).ml.slots = s.ml.slots ∧ (chooseRefresh s).ml.overrun = s.ml.overrun ∧
    (chooseRefresh s).ml.enables = s.ml.enables := by
  simp only [chooseRefresh]
  repeat' split
  all_goals simp

/-- What `mergeTune` leaves unchanged. -/
@[simp] theorem mergeTune_frame (s : State) :
    (mergeTune s).timeBase = s.timeBase ∧ (mergeTune s).resetAsserted = s.resetAsserted ∧
    (mergeTune s).pool = s.pool ∧ (mergeTune s).sp = s.sp ∧ (mergeTune s).pu = s.pu ∧ (mergeTune s).otg = s.otg ∧
    (mergeTune s).ps = s.ps ∧ (mergeTune s).cs = s.cs ∧ (mergeTune s).pf = s.pf ∧ (mergeTune s).hr = s.hr ∧
    (mergeTune s).ml = s.ml ∧ (mergeTune s).panel = s.panel ∧ (mergeTune s).choices = s.choices ∧
    (mergeTune s).pending = s.pending ∧ (mergeTune s).pc.limits = s.pc.limits ∧
    (mergeTune s).pc.propState = s.pc.propState ∧ (mergeTune s).pc.proposal = s.pc.proposal ∧
    (mergeTune s).pc.faulted = s.pc.faulted := by
  simp [mergeTune]

/-- What `closeWatch` leaves unchanged. -/
@[simp] theorem closeWatch_frame (s : State) :
    (closeWatch s).timeBase = s.timeBase ∧ (closeWatch s).resetAsserted = s.resetAsserted ∧
    (closeWatch s).pool = s.pool ∧ (closeWatch s).sp = s.sp ∧ (closeWatch s).pu = s.pu ∧
    (closeWatch s).otg = s.otg ∧ (closeWatch s).cs = s.cs ∧ (closeWatch s).pc = s.pc ∧ (closeWatch s).pf = s.pf ∧
    (closeWatch s).hr = s.hr ∧ (closeWatch s).ml = s.ml ∧ (closeWatch s).panel = s.panel ∧
    (closeWatch s).choices = s.choices ∧ (closeWatch s).pending = s.pending ∧
    (closeWatch s).ps.detachTime = s.ps.detachTime ∧ (closeWatch s).ps.blankActive = s.ps.blankActive ∧
    (closeWatch s).ps.lastKind = s.ps.lastKind ∧ (closeWatch s).ps.q = s.ps.q := by
  simp [closeWatch]

/-- What `makeSplice` leaves unchanged. -/
@[simp] theorem makeSplice_frame (j : Nat) (n : Slot) (s : State) :
    (makeSplice j n s).timeBase = s.timeBase ∧ (makeSplice j n s).resetAsserted = s.resetAsserted ∧
    (makeSplice j n s).sp = s.sp ∧ (makeSplice j n s).pu = s.pu ∧ (makeSplice j n s).otg = s.otg ∧
    (makeSplice j n s).cs = s.cs ∧ (makeSplice j n s).pc = s.pc ∧ (makeSplice j n s).pf = s.pf ∧
    (makeSplice j n s).ml = s.ml ∧ (makeSplice j n s).panel = s.panel ∧ (makeSplice j n s).choices = s.choices ∧
    (makeSplice j n s).pending = s.pending ∧ (makeSplice j n s).pool.store = s.pool.store ∧
    (makeSplice j n s).pool.q = s.pool.q ∧
    (makeSplice j n s).hr.map FrameRec.frameNo = s.hr.map FrameRec.frameNo ∧
    (makeSplice j n s).ps.detachTime = s.ps.detachTime ∧ (makeSplice j n s).ps.blankActive = s.ps.blankActive ∧
    (makeSplice j n s).ps.lastKind = s.ps.lastKind ∧ (makeSplice j n s).ps.q = s.ps.q := by
  simp only [makeSplice]
  split
  all_goals simp

/-- What `spliceCheck` leaves unchanged. -/
@[simp] theorem spliceCheck_frame (j : Nat) (s : State) :
    (spliceCheck j s).timeBase = s.timeBase ∧ (spliceCheck j s).resetAsserted = s.resetAsserted ∧
    (spliceCheck j s).sp = s.sp ∧ (spliceCheck j s).pu = s.pu ∧ (spliceCheck j s).otg = s.otg ∧
    (spliceCheck j s).cs = s.cs ∧ (spliceCheck j s).pc = s.pc ∧ (spliceCheck j s).pf = s.pf ∧
    (spliceCheck j s).ml = s.ml ∧ (spliceCheck j s).panel = s.panel ∧ (spliceCheck j s).choices = s.choices ∧
    (spliceCheck j s).pending = s.pending ∧ (spliceCheck j s).pool.store = s.pool.store ∧
    (spliceCheck j s).pool.q = s.pool.q ∧ (spliceCheck j s).hr.map FrameRec.frameNo = s.hr.map FrameRec.frameNo ∧
    (spliceCheck j s).ps.detachTime = s.ps.detachTime ∧ (spliceCheck j s).ps.blankActive = s.ps.blankActive ∧
    (spliceCheck j s).ps.lastKind = s.ps.lastKind ∧ (spliceCheck j s).ps.q = s.ps.q := by
  simp only [spliceCheck]
  repeat' split
  all_goals simp

/-- What `checkInScan` leaves unchanged. -/
@[simp] theorem checkInScan_frame (s : State) :
    (checkInScan s).timeBase = s.timeBase ∧ (checkInScan s).resetAsserted = s.resetAsserted ∧
    (checkInScan s).sp = s.sp ∧ (checkInScan s).cs = s.cs ∧ (checkInScan s).pc = s.pc ∧
    (checkInScan s).pf = s.pf ∧ (checkInScan s).panel = s.panel ∧ (checkInScan s).choices = s.choices ∧
    (checkInScan s).pending = s.pending ∧ (checkInScan s).pool.store = s.pool.store ∧
    (checkInScan s).pool.q = s.pool.q ∧
    (checkInScan s).hr.map FrameRec.frameNo = s.hr.map FrameRec.frameNo ∧
    (checkInScan s).ps.detachTime = s.ps.detachTime ∧ (checkInScan s).ps.blankActive = s.ps.blankActive ∧
    (checkInScan s).ps.lastKind = s.ps.lastKind ∧ (checkInScan s).ps.q = s.ps.q ∧
    (checkInScan s).otg.mode = s.otg.mode ∧ (checkInScan s).otg.timing = s.otg.timing ∧
    (checkInScan s).otg.tLast = s.otg.tLast ∧ (checkInScan s).otg.tminTimer = s.otg.tminTimer ∧
    (checkInScan s).otg.minPassed = s.otg.minPassed ∧ (checkInScan s).otg.keptRepeat = s.otg.keptRepeat ∧
    (checkInScan s).otg.fixedTimer = s.otg.fixedTimer ∧ (checkInScan s).otg.keptFixed = s.otg.keptFixed ∧
    (checkInScan s).otg.nextStrip = s.otg.nextStrip ∧ (checkInScan s).otg.pendingApp = s.otg.pendingApp ∧
    (checkInScan s).otg.pendingReset = s.otg.pendingReset ∧
    (checkInScan s).otg.repeatTimer = s.otg.repeatTimer ∧ (checkInScan s).otg.planCount = s.otg.planCount ∧
    (checkInScan s).pu.intervals = s.pu.intervals ∧ (checkInScan s).pu.fills = s.pu.fills ∧
    (checkInScan s).pu.ti = s.pu.ti ∧ (checkInScan s).pu.fi = s.pu.fi ∧ (checkInScan s).pu.q = s.pu.q ∧
    (checkInScan s).pu.lastQ = s.pu.lastQ ∧ (checkInScan s).pu.planActive = s.pu.planActive ∧
    (checkInScan s).pu.k = s.pu.k ∧ (checkInScan s).pu.tr = s.pu.tr ∧
    (checkInScan s).pu.admitted = s.pu.admitted ∧ (checkInScan s).ml.asm = s.ml.asm ∧
    (checkInScan s).ml.partialMsg = s.ml.partialMsg ∧ (checkInScan s).ml.lastByte = s.ml.lastByte ∧
    (checkInScan s).ml.slots = s.ml.slots ∧ (checkInScan s).ml.overrun = s.ml.overrun ∧
    (checkInScan s).ml.enables = s.ml.enables := by
  simp [checkInScan]

/-- What `eligibleInScan` leaves unchanged. -/
@[simp] theorem eligibleInScan_frame (s : State) :
    (eligibleInScan s).timeBase = s.timeBase ∧ (eligibleInScan s).resetAsserted = s.resetAsserted ∧
    (eligibleInScan s).sp = s.sp ∧ (eligibleInScan s).cs = s.cs ∧ (eligibleInScan s).pc = s.pc ∧
    (eligibleInScan s).pf = s.pf ∧ (eligibleInScan s).panel = s.panel ∧ (eligibleInScan s).choices = s.choices ∧
    (eligibleInScan s).pending = s.pending ∧ (eligibleInScan s).pool.store = s.pool.store ∧
    (eligibleInScan s).pool.q = s.pool.q ∧
    (eligibleInScan s).hr.map FrameRec.frameNo = s.hr.map FrameRec.frameNo ∧
    (eligibleInScan s).ps.detachTime = s.ps.detachTime ∧ (eligibleInScan s).ps.blankActive = s.ps.blankActive ∧
    (eligibleInScan s).ps.lastKind = s.ps.lastKind ∧ (eligibleInScan s).ps.q = s.ps.q ∧
    (eligibleInScan s).otg.mode = s.otg.mode ∧ (eligibleInScan s).otg.timing = s.otg.timing ∧
    (eligibleInScan s).otg.tLast = s.otg.tLast ∧ (eligibleInScan s).otg.tminTimer = s.otg.tminTimer ∧
    (eligibleInScan s).otg.minPassed = s.otg.minPassed ∧ (eligibleInScan s).otg.keptRepeat = s.otg.keptRepeat ∧
    (eligibleInScan s).otg.fixedTimer = s.otg.fixedTimer ∧ (eligibleInScan s).otg.keptFixed = s.otg.keptFixed ∧
    (eligibleInScan s).otg.nextStrip = s.otg.nextStrip ∧ (eligibleInScan s).otg.pendingApp = s.otg.pendingApp ∧
    (eligibleInScan s).otg.pendingReset = s.otg.pendingReset ∧
    (eligibleInScan s).otg.repeatTimer = s.otg.repeatTimer ∧ (eligibleInScan s).otg.planCount = s.otg.planCount ∧
    (eligibleInScan s).pu.intervals = s.pu.intervals ∧ (eligibleInScan s).pu.fills = s.pu.fills ∧
    (eligibleInScan s).pu.ti = s.pu.ti ∧ (eligibleInScan s).pu.fi = s.pu.fi ∧ (eligibleInScan s).pu.q = s.pu.q ∧
    (eligibleInScan s).pu.lastQ = s.pu.lastQ ∧ (eligibleInScan s).pu.planActive = s.pu.planActive ∧
    (eligibleInScan s).pu.k = s.pu.k ∧ (eligibleInScan s).pu.tr = s.pu.tr ∧
    (eligibleInScan s).pu.admitted = s.pu.admitted ∧ (eligibleInScan s).ml.asm = s.ml.asm ∧
    (eligibleInScan s).ml.partialMsg = s.ml.partialMsg ∧ (eligibleInScan s).ml.lastByte = s.ml.lastByte ∧
    (eligibleInScan s).ml.slots = s.ml.slots ∧ (eligibleInScan s).ml.overrun = s.ml.overrun ∧
    (eligibleInScan s).ml.enables = s.ml.enables := by
  simp [eligibleInScan]

/-- Judging with `checkInScan` leaves what the event leaves. -/
@[simp] theorem judgeAll_checkInScan_frame (s : State) :
    (judgeAll checkInScan s).timeBase = s.timeBase ∧
    (judgeAll checkInScan s).resetAsserted = s.resetAsserted ∧ (judgeAll checkInScan s).sp = s.sp ∧
    (judgeAll checkInScan s).cs = s.cs ∧ (judgeAll checkInScan s).pc = s.pc ∧
    (judgeAll checkInScan s).pf = s.pf ∧ (judgeAll checkInScan s).panel = s.panel ∧
    (judgeAll checkInScan s).choices = s.choices ∧ (judgeAll checkInScan s).pending = s.pending ∧
    (judgeAll checkInScan s).pool.store = s.pool.store ∧ (judgeAll checkInScan s).pool.q = s.pool.q ∧
    (judgeAll checkInScan s).hr.map FrameRec.frameNo = s.hr.map FrameRec.frameNo ∧
    (judgeAll checkInScan s).ps.detachTime = s.ps.detachTime ∧
    (judgeAll checkInScan s).ps.blankActive = s.ps.blankActive ∧
    (judgeAll checkInScan s).ps.lastKind = s.ps.lastKind ∧ (judgeAll checkInScan s).ps.q = s.ps.q ∧
    (judgeAll checkInScan s).otg.mode = s.otg.mode ∧ (judgeAll checkInScan s).otg.timing = s.otg.timing ∧
    (judgeAll checkInScan s).otg.tLast = s.otg.tLast ∧
    (judgeAll checkInScan s).otg.tminTimer = s.otg.tminTimer ∧
    (judgeAll checkInScan s).otg.minPassed = s.otg.minPassed ∧
    (judgeAll checkInScan s).otg.keptRepeat = s.otg.keptRepeat ∧
    (judgeAll checkInScan s).otg.fixedTimer = s.otg.fixedTimer ∧
    (judgeAll checkInScan s).otg.keptFixed = s.otg.keptFixed ∧
    (judgeAll checkInScan s).otg.nextStrip = s.otg.nextStrip ∧
    (judgeAll checkInScan s).otg.pendingApp = s.otg.pendingApp ∧
    (judgeAll checkInScan s).otg.pendingReset = s.otg.pendingReset ∧
    (judgeAll checkInScan s).otg.repeatTimer = s.otg.repeatTimer ∧
    (judgeAll checkInScan s).otg.planCount = s.otg.planCount ∧
    (judgeAll checkInScan s).pu.intervals = s.pu.intervals ∧
    (judgeAll checkInScan s).pu.fills = s.pu.fills ∧ (judgeAll checkInScan s).pu.ti = s.pu.ti ∧
    (judgeAll checkInScan s).pu.fi = s.pu.fi ∧ (judgeAll checkInScan s).pu.q = s.pu.q ∧
    (judgeAll checkInScan s).pu.lastQ = s.pu.lastQ ∧
    (judgeAll checkInScan s).pu.planActive = s.pu.planActive ∧ (judgeAll checkInScan s).pu.k = s.pu.k ∧
    (judgeAll checkInScan s).pu.tr = s.pu.tr ∧ (judgeAll checkInScan s).pu.admitted = s.pu.admitted ∧
    (judgeAll checkInScan s).ml.asm = s.ml.asm ∧ (judgeAll checkInScan s).ml.partialMsg = s.ml.partialMsg ∧
    (judgeAll checkInScan s).ml.lastByte = s.ml.lastByte ∧ (judgeAll checkInScan s).ml.slots = s.ml.slots ∧
    (judgeAll checkInScan s).ml.overrun = s.ml.overrun ∧
    (judgeAll checkInScan s).ml.enables = s.ml.enables :=
  ⟨judgeAll_keeps (fun s => s.timeBase) _ (fun s => by simp) (fun k s => by simp) s,
   judgeAll_keeps (fun s => s.resetAsserted) _ (fun s => by simp) (fun k s => by simp) s,
   judgeAll_keeps (fun s => s.sp) _ (fun s => by simp) (fun k s => by simp) s,
   judgeAll_keeps (fun s => s.cs) _ (fun s => by simp) (fun k s => by simp) s,
   judgeAll_keeps (fun s => s.pc) _ (fun s => by simp) (fun k s => by simp) s,
   judgeAll_keeps (fun s => s.pf) _ (fun s => by simp) (fun k s => by simp) s,
   judgeAll_keeps (fun s => s.panel) _ (fun s => by simp) (fun k s => by simp) s,
   judgeAll_keeps (fun s => s.choices) _ (fun s => by simp) (fun k s => by simp) s,
   judgeAll_keeps (fun s => s.pending) _ (fun s => by simp) (fun k s => by simp) s,
   judgeAll_keeps (fun s => s.pool.store) _ (fun s => by simp) (fun k s => by simp) s,
   judgeAll_keeps (fun s => s.pool.q) _ (fun s => by simp) (fun k s => by simp) s,
   judgeAll_keeps (fun s => s.hr.map FrameRec.frameNo) _ (fun s => by simp) (fun k s => by simp) s,
   judgeAll_keeps (fun s => s.ps.detachTime) _ (fun s => by simp) (fun k s => by simp) s,
   judgeAll_keeps (fun s => s.ps.blankActive) _ (fun s => by simp) (fun k s => by simp) s,
   judgeAll_keeps (fun s => s.ps.lastKind) _ (fun s => by simp) (fun k s => by simp) s,
   judgeAll_keeps (fun s => s.ps.q) _ (fun s => by simp) (fun k s => by simp) s,
   judgeAll_keeps (fun s => s.otg.mode) _ (fun s => by simp) (fun k s => by simp) s,
   judgeAll_keeps (fun s => s.otg.timing) _ (fun s => by simp) (fun k s => by simp) s,
   judgeAll_keeps (fun s => s.otg.tLast) _ (fun s => by simp) (fun k s => by simp) s,
   judgeAll_keeps (fun s => s.otg.tminTimer) _ (fun s => by simp) (fun k s => by simp) s,
   judgeAll_keeps (fun s => s.otg.minPassed) _ (fun s => by simp) (fun k s => by simp) s,
   judgeAll_keeps (fun s => s.otg.keptRepeat) _ (fun s => by simp) (fun k s => by simp) s,
   judgeAll_keeps (fun s => s.otg.fixedTimer) _ (fun s => by simp) (fun k s => by simp) s,
   judgeAll_keeps (fun s => s.otg.keptFixed) _ (fun s => by simp) (fun k s => by simp) s,
   judgeAll_keeps (fun s => s.otg.nextStrip) _ (fun s => by simp) (fun k s => by simp) s,
   judgeAll_keeps (fun s => s.otg.pendingApp) _ (fun s => by simp) (fun k s => by simp) s,
   judgeAll_keeps (fun s => s.otg.pendingReset) _ (fun s => by simp) (fun k s => by simp) s,
   judgeAll_keeps (fun s => s.otg.repeatTimer) _ (fun s => by simp) (fun k s => by simp) s,
   judgeAll_keeps (fun s => s.otg.planCount) _ (fun s => by simp) (fun k s => by simp) s,
   judgeAll_keeps (fun s => s.pu.intervals) _ (fun s => by simp) (fun k s => by simp) s,
   judgeAll_keeps (fun s => s.pu.fills) _ (fun s => by simp) (fun k s => by simp) s,
   judgeAll_keeps (fun s => s.pu.ti) _ (fun s => by simp) (fun k s => by simp) s,
   judgeAll_keeps (fun s => s.pu.fi) _ (fun s => by simp) (fun k s => by simp) s,
   judgeAll_keeps (fun s => s.pu.q) _ (fun s => by simp) (fun k s => by simp) s,
   judgeAll_keeps (fun s => s.pu.lastQ) _ (fun s => by simp) (fun k s => by simp) s,
   judgeAll_keeps (fun s => s.pu.planActive) _ (fun s => by simp) (fun k s => by simp) s,
   judgeAll_keeps (fun s => s.pu.k) _ (fun s => by simp) (fun k s => by simp) s,
   judgeAll_keeps (fun s => s.pu.tr) _ (fun s => by simp) (fun k s => by simp) s,
   judgeAll_keeps (fun s => s.pu.admitted) _ (fun s => by simp) (fun k s => by simp) s,
   judgeAll_keeps (fun s => s.ml.asm) _ (fun s => by simp) (fun k s => by simp) s,
   judgeAll_keeps (fun s => s.ml.partialMsg) _ (fun s => by simp) (fun k s => by simp) s,
   judgeAll_keeps (fun s => s.ml.lastByte) _ (fun s => by simp) (fun k s => by simp) s,
   judgeAll_keeps (fun s => s.ml.slots) _ (fun s => by simp) (fun k s => by simp) s,
   judgeAll_keeps (fun s => s.ml.overrun) _ (fun s => by simp) (fun k s => by simp) s,
   judgeAll_keeps (fun s => s.ml.enables) _ (fun s => by simp) (fun k s => by simp) s⟩

/-- What `publishQ` with `checkInScan` leaves unchanged. -/
@[simp] theorem publishQ_checkInScan_frame (s : State) :
    (publishQ checkInScan s).timeBase = s.timeBase ∧
    (publishQ checkInScan s).resetAsserted = s.resetAsserted ∧ (publishQ checkInScan s).sp = s.sp ∧
    (publishQ checkInScan s).cs = s.cs ∧ (publishQ checkInScan s).pc = s.pc ∧
    (publishQ checkInScan s).pf = s.pf ∧ (publishQ checkInScan s).panel = s.panel ∧
    (publishQ checkInScan s).choices = s.choices ∧ (publishQ checkInScan s).pending = s.pending ∧
    (publishQ checkInScan s).pool.store = s.pool.store ∧
    (publishQ checkInScan s).hr.map FrameRec.frameNo = s.hr.map FrameRec.frameNo ∧
    (publishQ checkInScan s).ps.detachTime = s.ps.detachTime ∧
    (publishQ checkInScan s).ps.blankActive = s.ps.blankActive ∧
    (publishQ checkInScan s).ps.lastKind = s.ps.lastKind ∧ (publishQ checkInScan s).otg.mode = s.otg.mode ∧
    (publishQ checkInScan s).otg.timing = s.otg.timing ∧ (publishQ checkInScan s).otg.tLast = s.otg.tLast ∧
    (publishQ checkInScan s).otg.tminTimer = s.otg.tminTimer ∧
    (publishQ checkInScan s).otg.minPassed = s.otg.minPassed ∧
    (publishQ checkInScan s).otg.keptRepeat = s.otg.keptRepeat ∧
    (publishQ checkInScan s).otg.fixedTimer = s.otg.fixedTimer ∧
    (publishQ checkInScan s).otg.keptFixed = s.otg.keptFixed ∧
    (publishQ checkInScan s).otg.nextStrip = s.otg.nextStrip ∧
    (publishQ checkInScan s).otg.pendingApp = s.otg.pendingApp ∧
    (publishQ checkInScan s).otg.pendingReset = s.otg.pendingReset ∧
    (publishQ checkInScan s).otg.repeatTimer = s.otg.repeatTimer ∧
    (publishQ checkInScan s).otg.planCount = s.otg.planCount ∧
    (publishQ checkInScan s).pu.intervals = s.pu.intervals ∧
    (publishQ checkInScan s).pu.fills = s.pu.fills ∧ (publishQ checkInScan s).pu.ti = s.pu.ti ∧
    (publishQ checkInScan s).pu.fi = s.pu.fi ∧ (publishQ checkInScan s).pu.planActive = s.pu.planActive ∧
    (publishQ checkInScan s).pu.k = s.pu.k ∧ (publishQ checkInScan s).pu.tr = s.pu.tr ∧
    (publishQ checkInScan s).pu.admitted = s.pu.admitted ∧ (publishQ checkInScan s).ml.asm = s.ml.asm ∧
    (publishQ checkInScan s).ml.partialMsg = s.ml.partialMsg ∧
    (publishQ checkInScan s).ml.lastByte = s.ml.lastByte ∧ (publishQ checkInScan s).ml.slots = s.ml.slots ∧
    (publishQ checkInScan s).ml.overrun = s.ml.overrun ∧
    (publishQ checkInScan s).ml.enables = s.ml.enables := by
  simp [publishQ]

/-- What `recomputeQ` with `checkInScan` leaves unchanged. -/
@[simp] theorem recomputeQ_checkInScan_frame (s : State) :
    (recomputeQ checkInScan s).timeBase = s.timeBase ∧
    (recomputeQ checkInScan s).resetAsserted = s.resetAsserted ∧ (recomputeQ checkInScan s).sp = s.sp ∧
    (recomputeQ checkInScan s).cs = s.cs ∧ (recomputeQ checkInScan s).pc = s.pc ∧
    (recomputeQ checkInScan s).pf = s.pf ∧ (recomputeQ checkInScan s).panel = s.panel ∧
    (recomputeQ checkInScan s).choices = s.choices ∧ (recomputeQ checkInScan s).pending = s.pending ∧
    (recomputeQ checkInScan s).pool.store = s.pool.store ∧
    (recomputeQ checkInScan s).hr.map FrameRec.frameNo = s.hr.map FrameRec.frameNo ∧
    (recomputeQ checkInScan s).ps.detachTime = s.ps.detachTime ∧
    (recomputeQ checkInScan s).ps.blankActive = s.ps.blankActive ∧
    (recomputeQ checkInScan s).ps.lastKind = s.ps.lastKind ∧
    (recomputeQ checkInScan s).otg.mode = s.otg.mode ∧
    (recomputeQ checkInScan s).otg.timing = s.otg.timing ∧
    (recomputeQ checkInScan s).otg.tLast = s.otg.tLast ∧
    (recomputeQ checkInScan s).otg.tminTimer = s.otg.tminTimer ∧
    (recomputeQ checkInScan s).otg.minPassed = s.otg.minPassed ∧
    (recomputeQ checkInScan s).otg.keptRepeat = s.otg.keptRepeat ∧
    (recomputeQ checkInScan s).otg.fixedTimer = s.otg.fixedTimer ∧
    (recomputeQ checkInScan s).otg.keptFixed = s.otg.keptFixed ∧
    (recomputeQ checkInScan s).otg.nextStrip = s.otg.nextStrip ∧
    (recomputeQ checkInScan s).otg.pendingApp = s.otg.pendingApp ∧
    (recomputeQ checkInScan s).otg.pendingReset = s.otg.pendingReset ∧
    (recomputeQ checkInScan s).otg.repeatTimer = s.otg.repeatTimer ∧
    (recomputeQ checkInScan s).otg.planCount = s.otg.planCount ∧
    (recomputeQ checkInScan s).pu.intervals = s.pu.intervals ∧
    (recomputeQ checkInScan s).pu.fills = s.pu.fills ∧ (recomputeQ checkInScan s).pu.ti = s.pu.ti ∧
    (recomputeQ checkInScan s).pu.fi = s.pu.fi ∧
    (recomputeQ checkInScan s).pu.planActive = s.pu.planActive ∧ (recomputeQ checkInScan s).pu.k = s.pu.k ∧
    (recomputeQ checkInScan s).pu.tr = s.pu.tr ∧ (recomputeQ checkInScan s).pu.admitted = s.pu.admitted ∧
    (recomputeQ checkInScan s).ml.asm = s.ml.asm ∧
    (recomputeQ checkInScan s).ml.partialMsg = s.ml.partialMsg ∧
    (recomputeQ checkInScan s).ml.lastByte = s.ml.lastByte ∧
    (recomputeQ checkInScan s).ml.slots = s.ml.slots ∧
    (recomputeQ checkInScan s).ml.overrun = s.ml.overrun ∧
    (recomputeQ checkInScan s).ml.enables = s.ml.enables := by
  simp only [recomputeQ]
  split
  all_goals simp

/-- What `publishMargin` leaves unchanged. -/
@[simp] theorem publishMargin_frame (changed : Bool) (s : State) :
    (publishMargin changed s).timeBase = s.timeBase ∧ (publishMargin changed s).resetAsserted = s.resetAsserted ∧
    (publishMargin changed s).sp = s.sp ∧ (publishMargin changed s).cs = s.cs ∧
    (publishMargin changed s).pc = s.pc ∧ (publishMargin changed s).pf = s.pf ∧
    (publishMargin changed s).panel = s.panel ∧ (publishMargin changed s).choices = s.choices ∧
    (publishMargin changed s).pending = s.pending ∧ (publishMargin changed s).pool.store = s.pool.store ∧
    (publishMargin changed s).hr.map FrameRec.frameNo = s.hr.map FrameRec.frameNo ∧
    (publishMargin changed s).ps.detachTime = s.ps.detachTime ∧
    (publishMargin changed s).ps.blankActive = s.ps.blankActive ∧
    (publishMargin changed s).ps.lastKind = s.ps.lastKind ∧ (publishMargin changed s).otg.mode = s.otg.mode ∧
    (publishMargin changed s).otg.timing = s.otg.timing ∧ (publishMargin changed s).otg.tLast = s.otg.tLast ∧
    (publishMargin changed s).otg.tminTimer = s.otg.tminTimer ∧
    (publishMargin changed s).otg.minPassed = s.otg.minPassed ∧
    (publishMargin changed s).otg.keptRepeat = s.otg.keptRepeat ∧
    (publishMargin changed s).otg.fixedTimer = s.otg.fixedTimer ∧
    (publishMargin changed s).otg.keptFixed = s.otg.keptFixed ∧
    (publishMargin changed s).otg.nextStrip = s.otg.nextStrip ∧
    (publishMargin changed s).otg.pendingApp = s.otg.pendingApp ∧
    (publishMargin changed s).otg.pendingReset = s.otg.pendingReset ∧
    (publishMargin changed s).otg.repeatTimer = s.otg.repeatTimer ∧
    (publishMargin changed s).otg.planCount = s.otg.planCount ∧
    (publishMargin changed s).pu.intervals = s.pu.intervals ∧ (publishMargin changed s).pu.fills = s.pu.fills ∧
    (publishMargin changed s).pu.ti = s.pu.ti ∧ (publishMargin changed s).pu.fi = s.pu.fi ∧
    (publishMargin changed s).pu.planActive = s.pu.planActive ∧ (publishMargin changed s).pu.k = s.pu.k ∧
    (publishMargin changed s).pu.tr = s.pu.tr ∧ (publishMargin changed s).pu.admitted = s.pu.admitted ∧
    (publishMargin changed s).ml.asm = s.ml.asm ∧ (publishMargin changed s).ml.partialMsg = s.ml.partialMsg ∧
    (publishMargin changed s).ml.lastByte = s.ml.lastByte ∧ (publishMargin changed s).ml.slots = s.ml.slots ∧
    (publishMargin changed s).ml.overrun = s.ml.overrun ∧
    (publishMargin changed s).ml.enables = s.ml.enables := by
  simp only [publishMargin]
  repeat' split
  all_goals simp

/-- What `mergeAndChoose` leaves unchanged. -/
@[simp] theorem mergeAndChoose_frame (s : State) :
    (mergeAndChoose s).timeBase = s.timeBase ∧ (mergeAndChoose s).resetAsserted = s.resetAsserted ∧
    (mergeAndChoose s).sp = s.sp ∧ (mergeAndChoose s).cs = s.cs ∧ (mergeAndChoose s).pf = s.pf ∧
    (mergeAndChoose s).panel = s.panel ∧ (mergeAndChoose s).pending = s.pending ∧
    (mergeAndChoose s).pool.store = s.pool.store ∧
    (mergeAndChoose s).hr.map FrameRec.frameNo = s.hr.map FrameRec.frameNo ∧
    (mergeAndChoose s).ps.detachTime = s.ps.detachTime ∧ (mergeAndChoose s).otg.mode = s.otg.mode ∧
    (mergeAndChoose s).otg.timing = s.otg.timing ∧ (mergeAndChoose s).otg.tLast = s.otg.tLast ∧
    (mergeAndChoose s).otg.tminTimer = s.otg.tminTimer ∧ (mergeAndChoose s).otg.minPassed = s.otg.minPassed ∧
    (mergeAndChoose s).otg.keptRepeat = s.otg.keptRepeat ∧ (mergeAndChoose s).otg.fixedTimer = s.otg.fixedTimer ∧
    (mergeAndChoose s).otg.keptFixed = s.otg.keptFixed ∧ (mergeAndChoose s).otg.nextStrip = s.otg.nextStrip ∧
    (mergeAndChoose s).otg.pendingApp = s.otg.pendingApp ∧
    (mergeAndChoose s).otg.pendingReset = s.otg.pendingReset ∧
    (mergeAndChoose s).otg.repeatTimer = s.otg.repeatTimer ∧ (mergeAndChoose s).otg.planCount = s.otg.planCount ∧
    (mergeAndChoose s).pu.intervals = s.pu.intervals ∧ (mergeAndChoose s).pu.fills = s.pu.fills ∧
    (mergeAndChoose s).pu.ti = s.pu.ti ∧ (mergeAndChoose s).pu.fi = s.pu.fi ∧
    (mergeAndChoose s).pu.planActive = s.pu.planActive ∧ (mergeAndChoose s).pu.k = s.pu.k ∧
    (mergeAndChoose s).pu.tr = s.pu.tr ∧ (mergeAndChoose s).pu.admitted = s.pu.admitted ∧
    (mergeAndChoose s).ml.asm = s.ml.asm ∧ (mergeAndChoose s).ml.partialMsg = s.ml.partialMsg ∧
    (mergeAndChoose s).ml.lastByte = s.ml.lastByte ∧ (mergeAndChoose s).ml.slots = s.ml.slots ∧
    (mergeAndChoose s).ml.overrun = s.ml.overrun ∧ (mergeAndChoose s).ml.enables = s.ml.enables ∧
    (mergeAndChoose s).pc.limits = s.pc.limits ∧ (mergeAndChoose s).pc.propState = s.pc.propState ∧
    (mergeAndChoose s).pc.proposal = s.pc.proposal ∧ (mergeAndChoose s).pc.faulted = s.pc.faulted := by
  simp only [mergeAndChoose]
  repeat' split
  all_goals simp

/-- What `lockTest` leaves unchanged. -/
@[simp] theorem lockTest_frame (s : State) :
    (lockTest s).timeBase = s.timeBase ∧ (lockTest s).resetAsserted = s.resetAsserted ∧
    (lockTest s).pool = s.pool ∧ (lockTest s).sp = s.sp ∧ (lockTest s).ps = s.ps ∧ (lockTest s).cs = s.cs ∧
    (lockTest s).pc = s.pc ∧ (lockTest s).pf = s.pf ∧ (lockTest s).hr = s.hr ∧ (lockTest s).panel = s.panel ∧
    (lockTest s).choices = s.choices ∧ (lockTest s).pending = s.pending ∧ (lockTest s).otg.mode = s.otg.mode ∧
    (lockTest s).otg.timing = s.otg.timing ∧ (lockTest s).otg.tLast = s.otg.tLast ∧
    (lockTest s).otg.tminTimer = s.otg.tminTimer ∧ (lockTest s).otg.minPassed = s.otg.minPassed ∧
    (lockTest s).otg.keptRepeat = s.otg.keptRepeat ∧ (lockTest s).otg.fixedTimer = s.otg.fixedTimer ∧
    (lockTest s).otg.keptFixed = s.otg.keptFixed ∧ (lockTest s).otg.nextStrip = s.otg.nextStrip ∧
    (lockTest s).otg.pendingApp = s.otg.pendingApp ∧ (lockTest s).otg.pendingReset = s.otg.pendingReset ∧
    (lockTest s).otg.repeatTimer = s.otg.repeatTimer ∧ (lockTest s).otg.planCount = s.otg.planCount ∧
    (lockTest s).pu.intervals = s.pu.intervals ∧ (lockTest s).pu.fills = s.pu.fills ∧
    (lockTest s).pu.ti = s.pu.ti ∧ (lockTest s).pu.fi = s.pu.fi ∧ (lockTest s).pu.q = s.pu.q ∧
    (lockTest s).pu.lastQ = s.pu.lastQ ∧ (lockTest s).pu.planActive = s.pu.planActive ∧
    (lockTest s).pu.k = s.pu.k ∧ (lockTest s).pu.tr = s.pu.tr ∧ (lockTest s).pu.admitted = s.pu.admitted ∧
    (lockTest s).ml.asm = s.ml.asm ∧ (lockTest s).ml.partialMsg = s.ml.partialMsg ∧
    (lockTest s).ml.lastByte = s.ml.lastByte ∧ (lockTest s).ml.slots = s.ml.slots ∧
    (lockTest s).ml.overrun = s.ml.overrun ∧ (lockTest s).ml.enables = s.ml.enables := by
  simp only [lockTest]
  repeat' split
  all_goals simp

/-- What `loadRepeat` leaves unchanged. -/
@[simp] theorem loadRepeat_frame (planned : Bool) (s : State) :
    (loadRepeat planned s).timeBase = s.timeBase ∧ (loadRepeat planned s).resetAsserted = s.resetAsserted ∧
    (loadRepeat planned s).pool = s.pool ∧ (loadRepeat planned s).sp = s.sp ∧ (loadRepeat planned s).pu = s.pu ∧
    (loadRepeat planned s).ps = s.ps ∧ (loadRepeat planned s).cs = s.cs ∧ (loadRepeat planned s).pc = s.pc ∧
    (loadRepeat planned s).pf = s.pf ∧ (loadRepeat planned s).hr = s.hr ∧ (loadRepeat planned s).ml = s.ml ∧
    (loadRepeat planned s).panel = s.panel ∧ (loadRepeat planned s).choices = s.choices ∧
    (loadRepeat planned s).pending = s.pending ∧ (loadRepeat planned s).otg.mode = s.otg.mode ∧
    (loadRepeat planned s).otg.timing = s.otg.timing ∧ (loadRepeat planned s).otg.lock = s.otg.lock ∧
    (loadRepeat planned s).otg.tLast = s.otg.tLast ∧ (loadRepeat planned s).otg.tminTimer = s.otg.tminTimer ∧
    (loadRepeat planned s).otg.minPassed = s.otg.minPassed ∧
    (loadRepeat planned s).otg.fixedTimer = s.otg.fixedTimer ∧
    (loadRepeat planned s).otg.keptFixed = s.otg.keptFixed ∧
    (loadRepeat planned s).otg.nextStrip = s.otg.nextStrip ∧
    (loadRepeat planned s).otg.pendingApp = s.otg.pendingApp ∧
    (loadRepeat planned s).otg.pendingReset = s.otg.pendingReset := by
  simp only [loadRepeat]
  repeat' split
  all_goals simp

/-- What `beginScan` leaves unchanged. -/
@[simp] theorem beginScan_frame (s : State) :
    (beginScan s).timeBase = s.timeBase ∧ (beginScan s).resetAsserted = s.resetAsserted ∧
    (beginScan s).pool = s.pool ∧ (beginScan s).sp = s.sp ∧ (beginScan s).pu = s.pu ∧ (beginScan s).ps = s.ps ∧
    (beginScan s).cs = s.cs ∧ (beginScan s).pc = s.pc ∧ (beginScan s).pf = s.pf ∧ (beginScan s).hr = s.hr ∧
    (beginScan s).ml = s.ml ∧ (beginScan s).choices = s.choices ∧ (beginScan s).pending = s.pending ∧
    (beginScan s).otg.mode = s.otg.mode ∧ (beginScan s).otg.lock = s.otg.lock ∧
    (beginScan s).otg.repeatTimer = s.otg.repeatTimer ∧ (beginScan s).otg.keptRepeat = s.otg.keptRepeat ∧
    (beginScan s).otg.planCount = s.otg.planCount ∧ (beginScan s).otg.fixedTimer = s.otg.fixedTimer ∧
    (beginScan s).otg.keptFixed = s.otg.keptFixed ∧ (beginScan s).otg.pendingApp = s.otg.pendingApp ∧
    (beginScan s).otg.pendingReset = s.otg.pendingReset := by
  simp [beginScan]

/-- What `lockAndArm` leaves unchanged. -/
@[simp] theorem lockAndArm_frame (expired : Bool) (s : State) :
    (lockAndArm expired s).timeBase = s.timeBase ∧ (lockAndArm expired s).resetAsserted = s.resetAsserted ∧
    (lockAndArm expired s).pool = s.pool ∧ (lockAndArm expired s).sp = s.sp ∧ (lockAndArm expired s).ps = s.ps ∧ (lockAndArm expired s).cs = s.cs ∧
    (lockAndArm expired s).pc = s.pc ∧ (lockAndArm expired s).pf = s.pf ∧ (lockAndArm expired s).hr = s.hr ∧ (lockAndArm expired s).panel = s.panel ∧
    (lockAndArm expired s).choices = s.choices ∧ (lockAndArm expired s).pending = s.pending ∧ (lockAndArm expired s).otg.mode = s.otg.mode ∧
    (lockAndArm expired s).otg.timing = s.otg.timing ∧ (lockAndArm expired s).otg.tLast = s.otg.tLast ∧
    (lockAndArm expired s).otg.tminTimer = s.otg.tminTimer ∧ (lockAndArm expired s).otg.minPassed = s.otg.minPassed ∧
    (lockAndArm expired s).otg.keptRepeat = s.otg.keptRepeat ∧
    (lockAndArm expired s).otg.keptFixed = s.otg.keptFixed ∧ (lockAndArm expired s).otg.nextStrip = s.otg.nextStrip ∧
    (lockAndArm expired s).otg.pendingApp = s.otg.pendingApp ∧ (lockAndArm expired s).otg.pendingReset = s.otg.pendingReset ∧
    (lockAndArm expired s).otg.repeatTimer = s.otg.repeatTimer ∧ (lockAndArm expired s).otg.planCount = s.otg.planCount ∧
    (lockAndArm expired s).pu.intervals = s.pu.intervals ∧ (lockAndArm expired s).pu.fills = s.pu.fills ∧
    (lockAndArm expired s).pu.ti = s.pu.ti ∧ (lockAndArm expired s).pu.fi = s.pu.fi ∧ (lockAndArm expired s).pu.q = s.pu.q ∧
    (lockAndArm expired s).pu.lastQ = s.pu.lastQ ∧ (lockAndArm expired s).pu.planActive = s.pu.planActive ∧
    (lockAndArm expired s).pu.k = s.pu.k ∧ (lockAndArm expired s).pu.tr = s.pu.tr ∧ (lockAndArm expired s).pu.admitted = s.pu.admitted ∧
    (lockAndArm expired s).ml.asm = s.ml.asm ∧ (lockAndArm expired s).ml.partialMsg = s.ml.partialMsg ∧
    (lockAndArm expired s).ml.lastByte = s.ml.lastByte ∧ (lockAndArm expired s).ml.slots = s.ml.slots ∧
    (lockAndArm expired s).ml.overrun = s.ml.overrun ∧ (lockAndArm expired s).ml.enables = s.ml.enables := by
  simp only [lockAndArm, loadFixed]
  split <;> simp

/-- What `takeStart` leaves unchanged. -/
@[simp] theorem takeStart_frame (expired event eventFirst : Bool) (armedAt : Time) (s : State) :
    (takeStart expired event eventFirst armedAt s).timeBase = s.timeBase ∧ (takeStart expired event eventFirst armedAt s).resetAsserted = s.resetAsserted ∧
    (takeStart expired event eventFirst armedAt s).pool = s.pool ∧ (takeStart expired event eventFirst armedAt s).sp = s.sp ∧ (takeStart expired event eventFirst armedAt s).ps = s.ps ∧ (takeStart expired event eventFirst armedAt s).cs = s.cs ∧
    (takeStart expired event eventFirst armedAt s).pc = s.pc ∧ (takeStart expired event eventFirst armedAt s).pf = s.pf ∧ (takeStart expired event eventFirst armedAt s).hr = s.hr ∧ (takeStart expired event eventFirst armedAt s).panel = s.panel ∧
    (takeStart expired event eventFirst armedAt s).choices = s.choices ∧ (takeStart expired event eventFirst armedAt s).pending = s.pending ∧ (takeStart expired event eventFirst armedAt s).otg.mode = s.otg.mode ∧
    (takeStart expired event eventFirst armedAt s).otg.timing = s.otg.timing ∧ (takeStart expired event eventFirst armedAt s).otg.tLast = s.otg.tLast ∧
    (takeStart expired event eventFirst armedAt s).otg.tminTimer = s.otg.tminTimer ∧ (takeStart expired event eventFirst armedAt s).otg.minPassed = s.otg.minPassed ∧
    (takeStart expired event eventFirst armedAt s).otg.keptRepeat = s.otg.keptRepeat ∧
    (takeStart expired event eventFirst armedAt s).otg.keptFixed = s.otg.keptFixed ∧ (takeStart expired event eventFirst armedAt s).otg.nextStrip = s.otg.nextStrip ∧
    (takeStart expired event eventFirst armedAt s).otg.pendingApp = s.otg.pendingApp ∧ (takeStart expired event eventFirst armedAt s).otg.pendingReset = s.otg.pendingReset ∧
    (takeStart expired event eventFirst armedAt s).otg.repeatTimer = s.otg.repeatTimer ∧ (takeStart expired event eventFirst armedAt s).otg.planCount = s.otg.planCount ∧
    (takeStart expired event eventFirst armedAt s).pu.intervals = s.pu.intervals ∧ (takeStart expired event eventFirst armedAt s).pu.fills = s.pu.fills ∧
    (takeStart expired event eventFirst armedAt s).pu.ti = s.pu.ti ∧ (takeStart expired event eventFirst armedAt s).pu.fi = s.pu.fi ∧ (takeStart expired event eventFirst armedAt s).pu.q = s.pu.q ∧
    (takeStart expired event eventFirst armedAt s).pu.lastQ = s.pu.lastQ ∧ (takeStart expired event eventFirst armedAt s).pu.planActive = s.pu.planActive ∧
    (takeStart expired event eventFirst armedAt s).pu.k = s.pu.k ∧ (takeStart expired event eventFirst armedAt s).pu.tr = s.pu.tr ∧ (takeStart expired event eventFirst armedAt s).pu.admitted = s.pu.admitted ∧
    (takeStart expired event eventFirst armedAt s).ml.asm = s.ml.asm ∧ (takeStart expired event eventFirst armedAt s).ml.partialMsg = s.ml.partialMsg ∧
    (takeStart expired event eventFirst armedAt s).ml.lastByte = s.ml.lastByte ∧ (takeStart expired event eventFirst armedAt s).ml.slots = s.ml.slots ∧
    (takeStart expired event eventFirst armedAt s).ml.overrun = s.ml.overrun ∧ (takeStart expired event eventFirst armedAt s).ml.enables = s.ml.enables := by
  simp only [takeStart]
  split <;> simp

/-- A refresh start that no expiry of the fixed timer causes leaves that timer (R79). -/
@[simp] theorem takeStart_fixedTimer (event eventFirst : Bool) (armedAt : Time) (s : State) :
    (takeStart false event eventFirst armedAt s).otg.fixedTimer = s.otg.fixedTimer := by
  simp only [takeStart, lockAndArm, loadFixed, Bool.false_eq_true, if_false]
  split <;> simp

/-- What `refreshBy` leaves unchanged. -/
@[simp] theorem refreshBy_frame (expired planned : Bool) (s : State) :
    (refreshBy expired planned s).timeBase = s.timeBase ∧ (refreshBy expired planned s).resetAsserted = s.resetAsserted ∧
    (refreshBy expired planned s).sp = s.sp ∧ (refreshBy expired planned s).pf = s.pf ∧
    (refreshBy expired planned s).pending = s.pending ∧ (refreshBy expired planned s).pool.store = s.pool.store ∧
    (refreshBy expired planned s).hr.map FrameRec.frameNo = s.hr.map FrameRec.frameNo ∧
    (refreshBy expired planned s).ps.detachTime = s.ps.detachTime ∧ (refreshBy expired planned s).otg.mode = s.otg.mode ∧
    (refreshBy expired planned s).otg.pendingApp = s.otg.pendingApp ∧
    (refreshBy expired planned s).otg.pendingReset = s.otg.pendingReset ∧
    (refreshBy expired planned s).otg.keptFixed = s.otg.keptFixed ∧
    (refreshBy expired planned s).pu.intervals = s.pu.intervals ∧ (refreshBy expired planned s).pu.fills = s.pu.fills ∧
    (refreshBy expired planned s).pu.ti = s.pu.ti ∧ (refreshBy expired planned s).pu.fi = s.pu.fi ∧
    (refreshBy expired planned s).pu.planActive = s.pu.planActive ∧ (refreshBy expired planned s).pu.k = s.pu.k ∧
    (refreshBy expired planned s).pu.tr = s.pu.tr ∧ (refreshBy expired planned s).pu.admitted = s.pu.admitted ∧
    (refreshBy expired planned s).ml.asm = s.ml.asm ∧ (refreshBy expired planned s).ml.partialMsg = s.ml.partialMsg ∧
    (refreshBy expired planned s).ml.lastByte = s.ml.lastByte ∧ (refreshBy expired planned s).ml.slots = s.ml.slots ∧
    (refreshBy expired planned s).ml.overrun = s.ml.overrun ∧ (refreshBy expired planned s).ml.enables = s.ml.enables ∧
    (refreshBy expired planned s).pc.limits = s.pc.limits ∧ (refreshBy expired planned s).pc.propState = s.pc.propState ∧
    (refreshBy expired planned s).pc.proposal = s.pc.proposal ∧ (refreshBy expired planned s).pc.faulted = s.pc.faulted ∧
    (refreshBy expired planned s).cs.scan = s.cs.scan := by
  simp [refreshBy]

/-- What `refreshStart` leaves unchanged. -/
@[simp] theorem refreshStart_frame (planned : Bool) (s : State) :
    (refreshStart planned s).timeBase = s.timeBase ∧ (refreshStart planned s).resetAsserted = s.resetAsserted ∧
    (refreshStart planned s).sp = s.sp ∧ (refreshStart planned s).pf = s.pf ∧
    (refreshStart planned s).pending = s.pending ∧ (refreshStart planned s).pool.store = s.pool.store ∧
    (refreshStart planned s).hr.map FrameRec.frameNo = s.hr.map FrameRec.frameNo ∧
    (refreshStart planned s).ps.detachTime = s.ps.detachTime ∧ (refreshStart planned s).otg.mode = s.otg.mode ∧
    (refreshStart planned s).otg.pendingApp = s.otg.pendingApp ∧
    (refreshStart planned s).otg.pendingReset = s.otg.pendingReset ∧
    (refreshStart planned s).otg.keptFixed = s.otg.keptFixed ∧
    (refreshStart planned s).otg.fixedTimer = s.otg.fixedTimer ∧
    (refreshStart planned s).pu.intervals = s.pu.intervals ∧ (refreshStart planned s).pu.fills = s.pu.fills ∧
    (refreshStart planned s).pu.ti = s.pu.ti ∧ (refreshStart planned s).pu.fi = s.pu.fi ∧
    (refreshStart planned s).pu.planActive = s.pu.planActive ∧ (refreshStart planned s).pu.k = s.pu.k ∧
    (refreshStart planned s).pu.tr = s.pu.tr ∧ (refreshStart planned s).pu.admitted = s.pu.admitted ∧
    (refreshStart planned s).ml.asm = s.ml.asm ∧ (refreshStart planned s).ml.partialMsg = s.ml.partialMsg ∧
    (refreshStart planned s).ml.lastByte = s.ml.lastByte ∧ (refreshStart planned s).ml.slots = s.ml.slots ∧
    (refreshStart planned s).ml.overrun = s.ml.overrun ∧ (refreshStart planned s).ml.enables = s.ml.enables ∧
    (refreshStart planned s).pc.limits = s.pc.limits ∧ (refreshStart planned s).pc.propState = s.pc.propState ∧
    (refreshStart planned s).pc.proposal = s.pc.proposal ∧ (refreshStart planned s).pc.faulted = s.pc.faulted ∧
    (refreshStart planned s).cs.scan = s.cs.scan := by
  simp [refreshStart, refreshBy]

/-- What `repeatExpiryOpen` leaves unchanged. -/
@[simp] theorem repeatExpiryOpen_frame (s : State) :
    (repeatExpiryOpen s).timeBase = s.timeBase ∧ (repeatExpiryOpen s).resetAsserted = s.resetAsserted ∧
    (repeatExpiryOpen s).sp = s.sp ∧ (repeatExpiryOpen s).pf = s.pf ∧ (repeatExpiryOpen s).pending = s.pending ∧
    (repeatExpiryOpen s).pool.store = s.pool.store ∧
    (repeatExpiryOpen s).hr.map FrameRec.frameNo = s.hr.map FrameRec.frameNo ∧
    (repeatExpiryOpen s).ps.detachTime = s.ps.detachTime ∧ (repeatExpiryOpen s).otg.mode = s.otg.mode ∧
    (repeatExpiryOpen s).otg.pendingApp = s.otg.pendingApp ∧
    (repeatExpiryOpen s).otg.pendingReset = s.otg.pendingReset ∧
    (repeatExpiryOpen s).otg.keptFixed = s.otg.keptFixed ∧
    (repeatExpiryOpen s).otg.fixedTimer = s.otg.fixedTimer ∧ (repeatExpiryOpen s).pu.intervals = s.pu.intervals ∧
    (repeatExpiryOpen s).pu.fills = s.pu.fills ∧ (repeatExpiryOpen s).pu.ti = s.pu.ti ∧
    (repeatExpiryOpen s).pu.fi = s.pu.fi ∧ (repeatExpiryOpen s).pu.planActive = s.pu.planActive ∧
    (repeatExpiryOpen s).pu.k = s.pu.k ∧ (repeatExpiryOpen s).pu.tr = s.pu.tr ∧
    (repeatExpiryOpen s).pu.admitted = s.pu.admitted ∧ (repeatExpiryOpen s).ml.asm = s.ml.asm ∧
    (repeatExpiryOpen s).ml.partialMsg = s.ml.partialMsg ∧ (repeatExpiryOpen s).ml.lastByte = s.ml.lastByte ∧
    (repeatExpiryOpen s).ml.slots = s.ml.slots ∧ (repeatExpiryOpen s).ml.overrun = s.ml.overrun ∧
    (repeatExpiryOpen s).ml.enables = s.ml.enables ∧ (repeatExpiryOpen s).pc.limits = s.pc.limits ∧
    (repeatExpiryOpen s).pc.propState = s.pc.propState ∧ (repeatExpiryOpen s).pc.proposal = s.pc.proposal ∧
    (repeatExpiryOpen s).pc.faulted = s.pc.faulted ∧ (repeatExpiryOpen s).cs.scan = s.cs.scan := by
  simp only [repeatExpiryOpen]
  repeat' split
  all_goals simp

/-- What `enterBlankOpen` leaves unchanged. -/
@[simp] theorem enterBlankOpen_frame (s : State) :
    (enterBlankOpen s).timeBase = s.timeBase ∧ (enterBlankOpen s).resetAsserted = s.resetAsserted ∧
    (enterBlankOpen s).sp = s.sp ∧ (enterBlankOpen s).pf = s.pf ∧ (enterBlankOpen s).pending = s.pending ∧
    (enterBlankOpen s).pool.store = s.pool.store ∧
    (enterBlankOpen s).hr.map FrameRec.frameNo = s.hr.map FrameRec.frameNo ∧
    (enterBlankOpen s).ps.detachTime = s.ps.detachTime ∧ (enterBlankOpen s).otg.mode = s.otg.mode ∧
    (enterBlankOpen s).otg.pendingApp = s.otg.pendingApp ∧
    (enterBlankOpen s).otg.pendingReset = s.otg.pendingReset ∧
    (enterBlankOpen s).otg.keptFixed = s.otg.keptFixed ∧ (enterBlankOpen s).otg.fixedTimer = s.otg.fixedTimer ∧
    (enterBlankOpen s).pu.intervals = s.pu.intervals ∧ (enterBlankOpen s).pu.fills = s.pu.fills ∧
    (enterBlankOpen s).pu.ti = s.pu.ti ∧ (enterBlankOpen s).pu.fi = s.pu.fi ∧
    (enterBlankOpen s).pu.planActive = s.pu.planActive ∧ (enterBlankOpen s).pu.k = s.pu.k ∧
    (enterBlankOpen s).pu.tr = s.pu.tr ∧ (enterBlankOpen s).pu.admitted = s.pu.admitted ∧
    (enterBlankOpen s).ml.asm = s.ml.asm ∧ (enterBlankOpen s).ml.partialMsg = s.ml.partialMsg ∧
    (enterBlankOpen s).ml.lastByte = s.ml.lastByte ∧ (enterBlankOpen s).ml.slots = s.ml.slots ∧
    (enterBlankOpen s).ml.overrun = s.ml.overrun ∧ (enterBlankOpen s).ml.enables = s.ml.enables ∧
    (enterBlankOpen s).pc.limits = s.pc.limits ∧ (enterBlankOpen s).pc.propState = s.pc.propState ∧
    (enterBlankOpen s).pc.proposal = s.pc.proposal ∧ (enterBlankOpen s).pc.faulted = s.pc.faulted ∧
    (enterBlankOpen s).cs.scan = s.cs.scan := by
  simp only [enterBlankOpen]
  repeat' split
  all_goals simp

/-- What `fixedRefresh` leaves unchanged. -/
@[simp] theorem fixedRefresh_frame (s : State) :
    (fixedRefresh s).timeBase = s.timeBase ∧ (fixedRefresh s).resetAsserted = s.resetAsserted ∧
    (fixedRefresh s).sp = s.sp ∧ (fixedRefresh s).pf = s.pf ∧ (fixedRefresh s).pending = s.pending ∧
    (fixedRefresh s).pool.store = s.pool.store ∧
    (fixedRefresh s).hr.map FrameRec.frameNo = s.hr.map FrameRec.frameNo ∧
    (fixedRefresh s).ps.detachTime = s.ps.detachTime ∧ (fixedRefresh s).otg.mode = s.otg.mode ∧
    (fixedRefresh s).otg.pendingApp = s.otg.pendingApp ∧ (fixedRefresh s).otg.pendingReset = s.otg.pendingReset ∧
    (fixedRefresh s).otg.keptFixed = s.otg.keptFixed ∧ (fixedRefresh s).pu.intervals = s.pu.intervals ∧
    (fixedRefresh s).pu.fills = s.pu.fills ∧ (fixedRefresh s).pu.ti = s.pu.ti ∧
    (fixedRefresh s).pu.fi = s.pu.fi ∧ (fixedRefresh s).pu.planActive = s.pu.planActive ∧
    (fixedRefresh s).pu.k = s.pu.k ∧ (fixedRefresh s).pu.tr = s.pu.tr ∧
    (fixedRefresh s).pu.admitted = s.pu.admitted ∧ (fixedRefresh s).ml.asm = s.ml.asm ∧
    (fixedRefresh s).ml.partialMsg = s.ml.partialMsg ∧ (fixedRefresh s).ml.lastByte = s.ml.lastByte ∧
    (fixedRefresh s).ml.slots = s.ml.slots ∧ (fixedRefresh s).ml.overrun = s.ml.overrun ∧
    (fixedRefresh s).ml.enables = s.ml.enables ∧ (fixedRefresh s).pc.limits = s.pc.limits ∧
    (fixedRefresh s).pc.propState = s.pc.propState ∧ (fixedRefresh s).pc.proposal = s.pc.proposal ∧
    (fixedRefresh s).pc.faulted = s.pc.faulted ∧ (fixedRefresh s).cs.scan = s.cs.scan := by
  simp [fixedRefresh]

/-- What `eligibilityEvent` leaves unchanged. -/
@[simp] theorem eligibilityEvent_frame (s : State) :
    (eligibilityEvent s).timeBase = s.timeBase ∧ (eligibilityEvent s).resetAsserted = s.resetAsserted ∧
    (eligibilityEvent s).sp = s.sp ∧ (eligibilityEvent s).pf = s.pf ∧ (eligibilityEvent s).pending = s.pending ∧
    (eligibilityEvent s).pool.store = s.pool.store ∧
    (eligibilityEvent s).hr.map FrameRec.frameNo = s.hr.map FrameRec.frameNo ∧
    (eligibilityEvent s).ps.detachTime = s.ps.detachTime ∧ (eligibilityEvent s).otg.mode = s.otg.mode ∧
    (eligibilityEvent s).otg.pendingApp = s.otg.pendingApp ∧
    (eligibilityEvent s).otg.pendingReset = s.otg.pendingReset ∧
    (eligibilityEvent s).otg.keptFixed = s.otg.keptFixed ∧
    (eligibilityEvent s).otg.fixedTimer = s.otg.fixedTimer ∧ (eligibilityEvent s).pu.intervals = s.pu.intervals ∧
    (eligibilityEvent s).pu.fills = s.pu.fills ∧ (eligibilityEvent s).pu.ti = s.pu.ti ∧
    (eligibilityEvent s).pu.fi = s.pu.fi ∧ (eligibilityEvent s).pu.planActive = s.pu.planActive ∧
    (eligibilityEvent s).pu.k = s.pu.k ∧ (eligibilityEvent s).pu.tr = s.pu.tr ∧
    (eligibilityEvent s).pu.admitted = s.pu.admitted ∧ (eligibilityEvent s).ml.asm = s.ml.asm ∧
    (eligibilityEvent s).ml.partialMsg = s.ml.partialMsg ∧ (eligibilityEvent s).ml.lastByte = s.ml.lastByte ∧
    (eligibilityEvent s).ml.slots = s.ml.slots ∧ (eligibilityEvent s).ml.overrun = s.ml.overrun ∧
    (eligibilityEvent s).ml.enables = s.ml.enables ∧ (eligibilityEvent s).pc.limits = s.pc.limits ∧
    (eligibilityEvent s).pc.propState = s.pc.propState ∧ (eligibilityEvent s).pc.proposal = s.pc.proposal ∧
    (eligibilityEvent s).pc.faulted = s.pc.faulted ∧ (eligibilityEvent s).cs.scan = s.cs.scan := by
  simp only [eligibilityEvent]
  repeat' split
  all_goals simp

/-- What `reportSubstitution` leaves unchanged. -/
@[simp] theorem reportSubstitution_frame (k : Nat) (s : State) :
    (reportSubstitution k s).timeBase = s.timeBase ∧ (reportSubstitution k s).resetAsserted = s.resetAsserted ∧
    (reportSubstitution k s).pool = s.pool ∧ (reportSubstitution k s).sp = s.sp ∧
    (reportSubstitution k s).pu = s.pu ∧ (reportSubstitution k s).otg = s.otg ∧
    (reportSubstitution k s).ps = s.ps ∧ (reportSubstitution k s).cs = s.cs ∧
    (reportSubstitution k s).pc = s.pc ∧ (reportSubstitution k s).pf = s.pf ∧
    (reportSubstitution k s).ml = s.ml ∧ (reportSubstitution k s).panel = s.panel ∧
    (reportSubstitution k s).choices = s.choices ∧ (reportSubstitution k s).pending = s.pending ∧
    (reportSubstitution k s).hr.map FrameRec.frameNo = s.hr.map FrameRec.frameNo := by
  simp only [reportSubstitution]
  split
  · simp
  · split
    · simp
    · split
      all_goals simp

/-- What `openWatch` leaves unchanged. -/
@[simp] theorem openWatch_frame (k : Nat) (s : State) :
    (openWatch k s).timeBase = s.timeBase ∧ (openWatch k s).resetAsserted = s.resetAsserted ∧
    (openWatch k s).pool = s.pool ∧ (openWatch k s).sp = s.sp ∧ (openWatch k s).pu = s.pu ∧
    (openWatch k s).otg = s.otg ∧ (openWatch k s).cs = s.cs ∧ (openWatch k s).pc = s.pc ∧
    (openWatch k s).pf = s.pf ∧ (openWatch k s).hr = s.hr ∧ (openWatch k s).ml = s.ml ∧
    (openWatch k s).panel = s.panel ∧ (openWatch k s).choices = s.choices ∧ (openWatch k s).pending = s.pending ∧
    (openWatch k s).ps.detachTime = s.ps.detachTime ∧ (openWatch k s).ps.blankActive = s.ps.blankActive ∧
    (openWatch k s).ps.lastKind = s.ps.lastKind ∧ (openWatch k s).ps.q = s.ps.q := by
  simp only [openWatch]
  repeat' split
  all_goals simp

/-- What `readStrip` leaves unchanged. -/
@[simp] theorem readStrip_frame (k : Nat) (s : State) :
    (readStrip k s).timeBase = s.timeBase ∧ (readStrip k s).resetAsserted = s.resetAsserted ∧
    (readStrip k s).sp = s.sp ∧ (readStrip k s).pu = s.pu ∧ (readStrip k s).pc = s.pc ∧
    (readStrip k s).pf = s.pf ∧ (readStrip k s).ml = s.ml ∧ (readStrip k s).choices = s.choices ∧
    (readStrip k s).pending = s.pending ∧ (readStrip k s).otg.mode = s.otg.mode ∧
    (readStrip k s).otg.timing = s.otg.timing ∧ (readStrip k s).otg.lock = s.otg.lock ∧
    (readStrip k s).otg.tLast = s.otg.tLast ∧ (readStrip k s).otg.tminTimer = s.otg.tminTimer ∧
    (readStrip k s).otg.minPassed = s.otg.minPassed ∧ (readStrip k s).otg.repeatTimer = s.otg.repeatTimer ∧
    (readStrip k s).otg.keptRepeat = s.otg.keptRepeat ∧ (readStrip k s).otg.planCount = s.otg.planCount ∧
    (readStrip k s).otg.fixedTimer = s.otg.fixedTimer ∧ (readStrip k s).otg.keptFixed = s.otg.keptFixed ∧
    (readStrip k s).otg.pendingApp = s.otg.pendingApp ∧ (readStrip k s).otg.pendingReset = s.otg.pendingReset ∧
    (readStrip k s).cs.active = s.cs.active ∧ (readStrip k s).cs.shadow = s.cs.shadow ∧
    (readStrip k s).cs.shadowPending = s.cs.shadowPending ∧ (readStrip k s).pool.store = s.pool.store ∧
    (readStrip k s).pool.q = s.pool.q ∧ (readStrip k s).hr.map FrameRec.frameNo = s.hr.map FrameRec.frameNo ∧
    (readStrip k s).ps.detachTime = s.ps.detachTime ∧ (readStrip k s).ps.blankActive = s.ps.blankActive ∧
    (readStrip k s).ps.lastKind = s.ps.lastKind ∧ (readStrip k s).ps.q = s.ps.q := by
  simp only [readStrip]
  split
  all_goals simp

/-- Judging with `eligibilityEvent` leaves what the event leaves. -/
@[simp] theorem judgeAll_eligibilityEvent_frame (s : State) :
    (judgeAll eligibilityEvent s).timeBase = s.timeBase ∧
    (judgeAll eligibilityEvent s).resetAsserted = s.resetAsserted ∧ (judgeAll eligibilityEvent s).sp = s.sp ∧
    (judgeAll eligibilityEvent s).pf = s.pf ∧ (judgeAll eligibilityEvent s).pending = s.pending ∧
    (judgeAll eligibilityEvent s).pool.store = s.pool.store ∧
    (judgeAll eligibilityEvent s).hr.map FrameRec.frameNo = s.hr.map FrameRec.frameNo ∧
    (judgeAll eligibilityEvent s).ps.detachTime = s.ps.detachTime ∧
    (judgeAll eligibilityEvent s).otg.mode = s.otg.mode ∧
    (judgeAll eligibilityEvent s).otg.pendingApp = s.otg.pendingApp ∧
    (judgeAll eligibilityEvent s).otg.pendingReset = s.otg.pendingReset ∧
    (judgeAll eligibilityEvent s).otg.keptFixed = s.otg.keptFixed ∧
    (judgeAll eligibilityEvent s).otg.fixedTimer = s.otg.fixedTimer ∧
    (judgeAll eligibilityEvent s).pu.intervals = s.pu.intervals ∧
    (judgeAll eligibilityEvent s).pu.fills = s.pu.fills ∧ (judgeAll eligibilityEvent s).pu.ti = s.pu.ti ∧
    (judgeAll eligibilityEvent s).pu.fi = s.pu.fi ∧
    (judgeAll eligibilityEvent s).pu.planActive = s.pu.planActive ∧ (judgeAll eligibilityEvent s).pu.k = s.pu.k ∧
    (judgeAll eligibilityEvent s).pu.tr = s.pu.tr ∧ (judgeAll eligibilityEvent s).pu.admitted = s.pu.admitted ∧
    (judgeAll eligibilityEvent s).ml.asm = s.ml.asm ∧
    (judgeAll eligibilityEvent s).ml.partialMsg = s.ml.partialMsg ∧
    (judgeAll eligibilityEvent s).ml.lastByte = s.ml.lastByte ∧
    (judgeAll eligibilityEvent s).ml.slots = s.ml.slots ∧
    (judgeAll eligibilityEvent s).ml.overrun = s.ml.overrun ∧
    (judgeAll eligibilityEvent s).ml.enables = s.ml.enables ∧
    (judgeAll eligibilityEvent s).pc.limits = s.pc.limits ∧
    (judgeAll eligibilityEvent s).pc.propState = s.pc.propState ∧
    (judgeAll eligibilityEvent s).pc.proposal = s.pc.proposal ∧
    (judgeAll eligibilityEvent s).pc.faulted = s.pc.faulted ∧
    (judgeAll eligibilityEvent s).cs.scan = s.cs.scan :=
  ⟨judgeAll_keeps (fun s => s.timeBase) _ (fun s => by simp) (fun k s => by simp) s,
   judgeAll_keeps (fun s => s.resetAsserted) _ (fun s => by simp) (fun k s => by simp) s,
   judgeAll_keeps (fun s => s.sp) _ (fun s => by simp) (fun k s => by simp) s,
   judgeAll_keeps (fun s => s.pf) _ (fun s => by simp) (fun k s => by simp) s,
   judgeAll_keeps (fun s => s.pending) _ (fun s => by simp) (fun k s => by simp) s,
   judgeAll_keeps (fun s => s.pool.store) _ (fun s => by simp) (fun k s => by simp) s,
   judgeAll_keeps (fun s => s.hr.map FrameRec.frameNo) _ (fun s => by simp) (fun k s => by simp) s,
   judgeAll_keeps (fun s => s.ps.detachTime) _ (fun s => by simp) (fun k s => by simp) s,
   judgeAll_keeps (fun s => s.otg.mode) _ (fun s => by simp) (fun k s => by simp) s,
   judgeAll_keeps (fun s => s.otg.pendingApp) _ (fun s => by simp) (fun k s => by simp) s,
   judgeAll_keeps (fun s => s.otg.pendingReset) _ (fun s => by simp) (fun k s => by simp) s,
   judgeAll_keeps (fun s => s.otg.keptFixed) _ (fun s => by simp) (fun k s => by simp) s,
   judgeAll_keeps (fun s => s.otg.fixedTimer) _ (fun s => by simp) (fun k s => by simp) s,
   judgeAll_keeps (fun s => s.pu.intervals) _ (fun s => by simp) (fun k s => by simp) s,
   judgeAll_keeps (fun s => s.pu.fills) _ (fun s => by simp) (fun k s => by simp) s,
   judgeAll_keeps (fun s => s.pu.ti) _ (fun s => by simp) (fun k s => by simp) s,
   judgeAll_keeps (fun s => s.pu.fi) _ (fun s => by simp) (fun k s => by simp) s,
   judgeAll_keeps (fun s => s.pu.planActive) _ (fun s => by simp) (fun k s => by simp) s,
   judgeAll_keeps (fun s => s.pu.k) _ (fun s => by simp) (fun k s => by simp) s,
   judgeAll_keeps (fun s => s.pu.tr) _ (fun s => by simp) (fun k s => by simp) s,
   judgeAll_keeps (fun s => s.pu.admitted) _ (fun s => by simp) (fun k s => by simp) s,
   judgeAll_keeps (fun s => s.ml.asm) _ (fun s => by simp) (fun k s => by simp) s,
   judgeAll_keeps (fun s => s.ml.partialMsg) _ (fun s => by simp) (fun k s => by simp) s,
   judgeAll_keeps (fun s => s.ml.lastByte) _ (fun s => by simp) (fun k s => by simp) s,
   judgeAll_keeps (fun s => s.ml.slots) _ (fun s => by simp) (fun k s => by simp) s,
   judgeAll_keeps (fun s => s.ml.overrun) _ (fun s => by simp) (fun k s => by simp) s,
   judgeAll_keeps (fun s => s.ml.enables) _ (fun s => by simp) (fun k s => by simp) s,
   judgeAll_keeps (fun s => s.pc.limits) _ (fun s => by simp) (fun k s => by simp) s,
   judgeAll_keeps (fun s => s.pc.propState) _ (fun s => by simp) (fun k s => by simp) s,
   judgeAll_keeps (fun s => s.pc.proposal) _ (fun s => by simp) (fun k s => by simp) s,
   judgeAll_keeps (fun s => s.pc.faulted) _ (fun s => by simp) (fun k s => by simp) s,
   judgeAll_keeps (fun s => s.cs.scan) _ (fun s => by simp) (fun k s => by simp) s⟩

/-- What `publishQ` with `eligibilityEvent` leaves unchanged. -/
@[simp] theorem publishQ_eligibilityEvent_frame (s : State) :
    (publishQ eligibilityEvent s).timeBase = s.timeBase ∧
    (publishQ eligibilityEvent s).resetAsserted = s.resetAsserted ∧ (publishQ eligibilityEvent s).sp = s.sp ∧
    (publishQ eligibilityEvent s).pf = s.pf ∧ (publishQ eligibilityEvent s).pending = s.pending ∧
    (publishQ eligibilityEvent s).pool.store = s.pool.store ∧
    (publishQ eligibilityEvent s).hr.map FrameRec.frameNo = s.hr.map FrameRec.frameNo ∧
    (publishQ eligibilityEvent s).ps.detachTime = s.ps.detachTime ∧
    (publishQ eligibilityEvent s).otg.mode = s.otg.mode ∧
    (publishQ eligibilityEvent s).otg.pendingApp = s.otg.pendingApp ∧
    (publishQ eligibilityEvent s).otg.pendingReset = s.otg.pendingReset ∧
    (publishQ eligibilityEvent s).otg.keptFixed = s.otg.keptFixed ∧
    (publishQ eligibilityEvent s).otg.fixedTimer = s.otg.fixedTimer ∧
    (publishQ eligibilityEvent s).pu.intervals = s.pu.intervals ∧
    (publishQ eligibilityEvent s).pu.fills = s.pu.fills ∧ (publishQ eligibilityEvent s).pu.ti = s.pu.ti ∧
    (publishQ eligibilityEvent s).pu.fi = s.pu.fi ∧
    (publishQ eligibilityEvent s).pu.planActive = s.pu.planActive ∧ (publishQ eligibilityEvent s).pu.k = s.pu.k ∧
    (publishQ eligibilityEvent s).pu.tr = s.pu.tr ∧ (publishQ eligibilityEvent s).pu.admitted = s.pu.admitted ∧
    (publishQ eligibilityEvent s).ml.asm = s.ml.asm ∧
    (publishQ eligibilityEvent s).ml.partialMsg = s.ml.partialMsg ∧
    (publishQ eligibilityEvent s).ml.lastByte = s.ml.lastByte ∧
    (publishQ eligibilityEvent s).ml.slots = s.ml.slots ∧
    (publishQ eligibilityEvent s).ml.overrun = s.ml.overrun ∧
    (publishQ eligibilityEvent s).ml.enables = s.ml.enables ∧
    (publishQ eligibilityEvent s).pc.limits = s.pc.limits ∧
    (publishQ eligibilityEvent s).pc.propState = s.pc.propState ∧
    (publishQ eligibilityEvent s).pc.proposal = s.pc.proposal ∧
    (publishQ eligibilityEvent s).pc.faulted = s.pc.faulted ∧
    (publishQ eligibilityEvent s).cs.scan = s.cs.scan := by
  simp [publishQ]

/-- What `recomputeQ` with `eligibilityEvent` leaves unchanged. -/
@[simp] theorem recomputeQ_eligibilityEvent_frame (s : State) :
    (recomputeQ eligibilityEvent s).timeBase = s.timeBase ∧
    (recomputeQ eligibilityEvent s).resetAsserted = s.resetAsserted ∧ (recomputeQ eligibilityEvent s).sp = s.sp ∧
    (recomputeQ eligibilityEvent s).pf = s.pf ∧ (recomputeQ eligibilityEvent s).pending = s.pending ∧
    (recomputeQ eligibilityEvent s).pool.store = s.pool.store ∧
    (recomputeQ eligibilityEvent s).hr.map FrameRec.frameNo = s.hr.map FrameRec.frameNo ∧
    (recomputeQ eligibilityEvent s).ps.detachTime = s.ps.detachTime ∧
    (recomputeQ eligibilityEvent s).otg.mode = s.otg.mode ∧
    (recomputeQ eligibilityEvent s).otg.pendingApp = s.otg.pendingApp ∧
    (recomputeQ eligibilityEvent s).otg.pendingReset = s.otg.pendingReset ∧
    (recomputeQ eligibilityEvent s).otg.keptFixed = s.otg.keptFixed ∧
    (recomputeQ eligibilityEvent s).otg.fixedTimer = s.otg.fixedTimer ∧
    (recomputeQ eligibilityEvent s).pu.intervals = s.pu.intervals ∧
    (recomputeQ eligibilityEvent s).pu.fills = s.pu.fills ∧ (recomputeQ eligibilityEvent s).pu.ti = s.pu.ti ∧
    (recomputeQ eligibilityEvent s).pu.fi = s.pu.fi ∧
    (recomputeQ eligibilityEvent s).pu.planActive = s.pu.planActive ∧
    (recomputeQ eligibilityEvent s).pu.k = s.pu.k ∧ (recomputeQ eligibilityEvent s).pu.tr = s.pu.tr ∧
    (recomputeQ eligibilityEvent s).pu.admitted = s.pu.admitted ∧
    (recomputeQ eligibilityEvent s).ml.asm = s.ml.asm ∧
    (recomputeQ eligibilityEvent s).ml.partialMsg = s.ml.partialMsg ∧
    (recomputeQ eligibilityEvent s).ml.lastByte = s.ml.lastByte ∧
    (recomputeQ eligibilityEvent s).ml.slots = s.ml.slots ∧
    (recomputeQ eligibilityEvent s).ml.overrun = s.ml.overrun ∧
    (recomputeQ eligibilityEvent s).ml.enables = s.ml.enables ∧
    (recomputeQ eligibilityEvent s).pc.limits = s.pc.limits ∧
    (recomputeQ eligibilityEvent s).pc.propState = s.pc.propState ∧
    (recomputeQ eligibilityEvent s).pc.proposal = s.pc.proposal ∧
    (recomputeQ eligibilityEvent s).pc.faulted = s.pc.faulted ∧
    (recomputeQ eligibilityEvent s).cs.scan = s.cs.scan := by
  simp only [recomputeQ]
  split
  all_goals simp

/-- What `fillsChanged` leaves unchanged. -/
@[simp] theorem fillsChanged_eligibilityEvent_frame (w : List Nat) (s : State) :
    (fillsChanged eligibilityEvent w s).timeBase = s.timeBase ∧
    (fillsChanged eligibilityEvent w s).resetAsserted = s.resetAsserted ∧
    (fillsChanged eligibilityEvent w s).sp = s.sp ∧ (fillsChanged eligibilityEvent w s).pf = s.pf ∧
    (fillsChanged eligibilityEvent w s).pending = s.pending ∧
    (fillsChanged eligibilityEvent w s).pool.store = s.pool.store ∧
    (fillsChanged eligibilityEvent w s).hr.map FrameRec.frameNo = s.hr.map FrameRec.frameNo ∧
    (fillsChanged eligibilityEvent w s).ps.detachTime = s.ps.detachTime ∧
    (fillsChanged eligibilityEvent w s).otg.mode = s.otg.mode ∧
    (fillsChanged eligibilityEvent w s).otg.pendingApp = s.otg.pendingApp ∧
    (fillsChanged eligibilityEvent w s).otg.pendingReset = s.otg.pendingReset ∧
    (fillsChanged eligibilityEvent w s).otg.keptFixed = s.otg.keptFixed ∧
    (fillsChanged eligibilityEvent w s).otg.fixedTimer = s.otg.fixedTimer ∧
    (fillsChanged eligibilityEvent w s).pu.intervals = s.pu.intervals ∧
    (fillsChanged eligibilityEvent w s).pu.ti = s.pu.ti ∧
    (fillsChanged eligibilityEvent w s).pu.planActive = s.pu.planActive ∧
    (fillsChanged eligibilityEvent w s).pu.k = s.pu.k ∧ (fillsChanged eligibilityEvent w s).pu.tr = s.pu.tr ∧
    (fillsChanged eligibilityEvent w s).pu.admitted = s.pu.admitted ∧
    (fillsChanged eligibilityEvent w s).ml.asm = s.ml.asm ∧
    (fillsChanged eligibilityEvent w s).ml.partialMsg = s.ml.partialMsg ∧
    (fillsChanged eligibilityEvent w s).ml.lastByte = s.ml.lastByte ∧
    (fillsChanged eligibilityEvent w s).ml.slots = s.ml.slots ∧
    (fillsChanged eligibilityEvent w s).ml.overrun = s.ml.overrun ∧
    (fillsChanged eligibilityEvent w s).ml.enables = s.ml.enables ∧
    (fillsChanged eligibilityEvent w s).pc.limits = s.pc.limits ∧
    (fillsChanged eligibilityEvent w s).pc.propState = s.pc.propState ∧
    (fillsChanged eligibilityEvent w s).pc.proposal = s.pc.proposal ∧
    (fillsChanged eligibilityEvent w s).pc.faulted = s.pc.faulted ∧
    (fillsChanged eligibilityEvent w s).cs.scan = s.cs.scan := by
  simp [fillsChanged]

/-- Judging with `(fun s => s)` leaves what the event leaves. -/
@[simp] theorem judgeAll_sames_frame (s : State) :
    (judgeAll (fun s => s) s).timeBase = s.timeBase ∧ (judgeAll (fun s => s) s).resetAsserted = s.resetAsserted ∧
    (judgeAll (fun s => s) s).sp = s.sp ∧ (judgeAll (fun s => s) s).pu = s.pu ∧
    (judgeAll (fun s => s) s).otg = s.otg ∧ (judgeAll (fun s => s) s).ps = s.ps ∧
    (judgeAll (fun s => s) s).cs = s.cs ∧ (judgeAll (fun s => s) s).pc = s.pc ∧
    (judgeAll (fun s => s) s).pf = s.pf ∧ (judgeAll (fun s => s) s).hr = s.hr ∧
    (judgeAll (fun s => s) s).ml = s.ml ∧ (judgeAll (fun s => s) s).panel = s.panel ∧
    (judgeAll (fun s => s) s).choices = s.choices ∧ (judgeAll (fun s => s) s).pending = s.pending ∧
    (judgeAll (fun s => s) s).pool.store = s.pool.store ∧ (judgeAll (fun s => s) s).pool.q = s.pool.q ∧
    (judgeAll (fun s => s) s).pool.filling = s.pool.filling ∧
    (judgeAll (fun s => s) s).pool.ready = s.pool.ready ∧ (judgeAll (fun s => s) s).pool.held = s.pool.held ∧
    (judgeAll (fun s => s) s).pool.onScreen = s.pool.onScreen ∧
    (judgeAll (fun s => s) s).pool.cands = s.pool.cands :=
  ⟨judgeAll_keeps (fun s => s.timeBase) _ (fun s => by simp) (fun k s => by simp) s,
   judgeAll_keeps (fun s => s.resetAsserted) _ (fun s => by simp) (fun k s => by simp) s,
   judgeAll_keeps (fun s => s.sp) _ (fun s => by simp) (fun k s => by simp) s,
   judgeAll_keeps (fun s => s.pu) _ (fun s => by simp) (fun k s => by simp) s,
   judgeAll_keeps (fun s => s.otg) _ (fun s => by simp) (fun k s => by simp) s,
   judgeAll_keeps (fun s => s.ps) _ (fun s => by simp) (fun k s => by simp) s,
   judgeAll_keeps (fun s => s.cs) _ (fun s => by simp) (fun k s => by simp) s,
   judgeAll_keeps (fun s => s.pc) _ (fun s => by simp) (fun k s => by simp) s,
   judgeAll_keeps (fun s => s.pf) _ (fun s => by simp) (fun k s => by simp) s,
   judgeAll_keeps (fun s => s.hr) _ (fun s => by simp) (fun k s => by simp) s,
   judgeAll_keeps (fun s => s.ml) _ (fun s => by simp) (fun k s => by simp) s,
   judgeAll_keeps (fun s => s.panel) _ (fun s => by simp) (fun k s => by simp) s,
   judgeAll_keeps (fun s => s.choices) _ (fun s => by simp) (fun k s => by simp) s,
   judgeAll_keeps (fun s => s.pending) _ (fun s => by simp) (fun k s => by simp) s,
   judgeAll_keeps (fun s => s.pool.store) _ (fun s => by simp) (fun k s => by simp) s,
   judgeAll_keeps (fun s => s.pool.q) _ (fun s => by simp) (fun k s => by simp) s,
   judgeAll_keeps (fun s => s.pool.filling) _ (fun s => by simp) (fun k s => by simp) s,
   judgeAll_keeps (fun s => s.pool.ready) _ (fun s => by simp) (fun k s => by simp) s,
   judgeAll_keeps (fun s => s.pool.held) _ (fun s => by simp) (fun k s => by simp) s,
   judgeAll_keeps (fun s => s.pool.onScreen) _ (fun s => by simp) (fun k s => by simp) s,
   judgeAll_keeps (fun s => s.pool.cands) _ (fun s => by simp) (fun k s => by simp) s⟩

/-- What a publication with no event leaves unchanged. -/
@[simp] theorem publishQ_same_frame (s : State) :
    (publishQ (fun s => s) s).timeBase = s.timeBase ∧ (publishQ (fun s => s) s).resetAsserted = s.resetAsserted ∧
    (publishQ (fun s => s) s).sp = s.sp ∧ (publishQ (fun s => s) s).otg = s.otg ∧
    (publishQ (fun s => s) s).cs = s.cs ∧ (publishQ (fun s => s) s).pc = s.pc ∧
    (publishQ (fun s => s) s).pf = s.pf ∧ (publishQ (fun s => s) s).hr = s.hr ∧
    (publishQ (fun s => s) s).ml = s.ml ∧ (publishQ (fun s => s) s).panel = s.panel ∧
    (publishQ (fun s => s) s).choices = s.choices ∧ (publishQ (fun s => s) s).pending = s.pending ∧
    (publishQ (fun s => s) s).pool.store = s.pool.store ∧
    (publishQ (fun s => s) s).pool.filling = s.pool.filling ∧
    (publishQ (fun s => s) s).pool.ready = s.pool.ready ∧ (publishQ (fun s => s) s).pool.held = s.pool.held ∧
    (publishQ (fun s => s) s).pool.onScreen = s.pool.onScreen ∧
    (publishQ (fun s => s) s).pool.cands = s.pool.cands ∧
    (publishQ (fun s => s) s).ps.detachTime = s.ps.detachTime ∧
    (publishQ (fun s => s) s).ps.blankActive = s.ps.blankActive ∧
    (publishQ (fun s => s) s).ps.lastKind = s.ps.lastKind ∧
    (publishQ (fun s => s) s).ps.watchOpen = s.ps.watchOpen ∧
    (publishQ (fun s => s) s).pu.intervals = s.pu.intervals ∧ (publishQ (fun s => s) s).pu.fills = s.pu.fills ∧
    (publishQ (fun s => s) s).pu.ti = s.pu.ti ∧ (publishQ (fun s => s) s).pu.fi = s.pu.fi ∧
    (publishQ (fun s => s) s).pu.q = s.pu.q ∧ (publishQ (fun s => s) s).pu.planActive = s.pu.planActive ∧
    (publishQ (fun s => s) s).pu.k = s.pu.k ∧ (publishQ (fun s => s) s).pu.tr = s.pu.tr ∧
    (publishQ (fun s => s) s).pu.nextFixed = s.pu.nextFixed ∧ (publishQ (fun s => s) s).pu.armed = s.pu.armed ∧
    (publishQ (fun s => s) s).pu.good = s.pu.good ∧ (publishQ (fun s => s) s).pu.bad = s.pu.bad ∧
    (publishQ (fun s => s) s).pu.admitted = s.pu.admitted := by
  simp [publishQ]

/-- What a computation of Q with no event leaves unchanged. -/
@[simp] theorem recomputeQ_same_frame (s : State) :
    (recomputeQ (fun s => s) s).timeBase = s.timeBase ∧ (recomputeQ (fun s => s) s).resetAsserted = s.resetAsserted ∧
    (recomputeQ (fun s => s) s).sp = s.sp ∧ (recomputeQ (fun s => s) s).otg = s.otg ∧
    (recomputeQ (fun s => s) s).cs = s.cs ∧ (recomputeQ (fun s => s) s).pc = s.pc ∧
    (recomputeQ (fun s => s) s).pf = s.pf ∧ (recomputeQ (fun s => s) s).hr = s.hr ∧
    (recomputeQ (fun s => s) s).ml = s.ml ∧ (recomputeQ (fun s => s) s).panel = s.panel ∧
    (recomputeQ (fun s => s) s).choices = s.choices ∧ (recomputeQ (fun s => s) s).pending = s.pending ∧
    (recomputeQ (fun s => s) s).pool.store = s.pool.store ∧
    (recomputeQ (fun s => s) s).pool.filling = s.pool.filling ∧
    (recomputeQ (fun s => s) s).pool.ready = s.pool.ready ∧ (recomputeQ (fun s => s) s).pool.held = s.pool.held ∧
    (recomputeQ (fun s => s) s).pool.onScreen = s.pool.onScreen ∧
    (recomputeQ (fun s => s) s).pool.cands = s.pool.cands ∧
    (recomputeQ (fun s => s) s).ps.detachTime = s.ps.detachTime ∧
    (recomputeQ (fun s => s) s).ps.blankActive = s.ps.blankActive ∧
    (recomputeQ (fun s => s) s).ps.lastKind = s.ps.lastKind ∧
    (recomputeQ (fun s => s) s).ps.watchOpen = s.ps.watchOpen ∧
    (recomputeQ (fun s => s) s).pu.intervals = s.pu.intervals ∧ (recomputeQ (fun s => s) s).pu.fills = s.pu.fills ∧
    (recomputeQ (fun s => s) s).pu.ti = s.pu.ti ∧ (recomputeQ (fun s => s) s).pu.fi = s.pu.fi ∧
    (recomputeQ (fun s => s) s).pu.planActive = s.pu.planActive ∧
    (recomputeQ (fun s => s) s).pu.k = s.pu.k ∧ (recomputeQ (fun s => s) s).pu.tr = s.pu.tr ∧
    (recomputeQ (fun s => s) s).pu.nextFixed = s.pu.nextFixed ∧ (recomputeQ (fun s => s) s).pu.armed = s.pu.armed ∧
    (recomputeQ (fun s => s) s).pu.good = s.pu.good ∧ (recomputeQ (fun s => s) s).pu.bad = s.pu.bad ∧
    (recomputeQ (fun s => s) s).pu.admitted = s.pu.admitted := by
  simp only [recomputeQ]
  split
  all_goals simp

end Sys2Proof.Machine
end

