-- ==== Sys2Proof/Laws/SourceFrames.lean ====
section
/-! SUPPORT. For each operation of the source port and of the application and reset points, once, what it leaves unchanged. -/

namespace Sys2Proof.Machine

/-- What `moveSource` leaves unchanged. -/
@[simp] theorem moveSource_frame (st : SourceState) (score : Nat) (s : State) :
    (moveSource st score s).timeBase = s.timeBase ∧ (moveSource st score s).resetAsserted = s.resetAsserted ∧
    (moveSource st score s).pool = s.pool ∧ (moveSource st score s).ps = s.ps ∧
    (moveSource st score s).cs = s.cs ∧ (moveSource st score s).pc = s.pc ∧ (moveSource st score s).pf = s.pf ∧
    (moveSource st score s).hr = s.hr ∧ (moveSource st score s).panel = s.panel ∧
    (moveSource st score s).choices = s.choices ∧ (moveSource st score s).pending = s.pending ∧
    (moveSource st score s).sp.cleanRun = s.sp.cleanRun ∧ (moveSource st score s).sp.signal = s.sp.signal ∧
    (moveSource st score s).sp.frameCounter = s.sp.frameCounter ∧ (moveSource st score s).sp.cond = s.sp.cond ∧
    (moveSource st score s).sp.lineCount = s.sp.lineCount ∧ (moveSource st score s).sp.stripErr = s.sp.stripErr ∧
    (moveSource st score s).sp.obsClean = s.sp.obsClean ∧
    (moveSource st score s).sp.firstPixels = s.sp.firstPixels ∧
    (moveSource st score s).sp.prevRef = s.sp.prevRef ∧ (moveSource st score s).sp.closeBad = s.sp.closeBad ∧
    (moveSource st score s).otg.mode = s.otg.mode ∧ (moveSource st score s).otg.timing = s.otg.timing ∧
    (moveSource st score s).otg.tLast = s.otg.tLast ∧ (moveSource st score s).otg.tminTimer = s.otg.tminTimer ∧
    (moveSource st score s).otg.minPassed = s.otg.minPassed ∧
    (moveSource st score s).otg.keptRepeat = s.otg.keptRepeat ∧
    (moveSource st score s).otg.fixedTimer = s.otg.fixedTimer ∧
    (moveSource st score s).otg.keptFixed = s.otg.keptFixed ∧
    (moveSource st score s).otg.nextStrip = s.otg.nextStrip ∧
    (moveSource st score s).otg.pendingApp = s.otg.pendingApp ∧
    (moveSource st score s).otg.pendingReset = s.otg.pendingReset ∧
    (moveSource st score s).otg.repeatTimer = s.otg.repeatTimer ∧
    (moveSource st score s).otg.planCount = s.otg.planCount ∧
    (moveSource st score s).pu.intervals = s.pu.intervals ∧ (moveSource st score s).pu.fills = s.pu.fills ∧
    (moveSource st score s).pu.ti = s.pu.ti ∧ (moveSource st score s).pu.fi = s.pu.fi ∧
    (moveSource st score s).pu.q = s.pu.q ∧ (moveSource st score s).pu.lastQ = s.pu.lastQ ∧
    (moveSource st score s).pu.planActive = s.pu.planActive ∧ (moveSource st score s).pu.k = s.pu.k ∧
    (moveSource st score s).pu.tr = s.pu.tr ∧ (moveSource st score s).pu.admitted = s.pu.admitted ∧
    (moveSource st score s).pu.armed = s.pu.armed ∧ (moveSource st score s).ml.asm = s.ml.asm ∧
    (moveSource st score s).ml.partialMsg = s.ml.partialMsg ∧
    (moveSource st score s).ml.lastByte = s.ml.lastByte ∧ (moveSource st score s).ml.slots = s.ml.slots ∧
    (moveSource st score s).ml.overrun = s.ml.overrun ∧ (moveSource st score s).ml.enables = s.ml.enables := by
  simp only [moveSource]
  repeat' split
  all_goals simp

/-- The source state and the score that `moveSource` sets. -/
@[simp] theorem moveSource_sets (st : SourceState) (score : Nat) (s : State) :
    (moveSource st score s).sp.state = st ∧ (moveSource st score s).sp.score = score := by
  simp only [moveSource]
  repeat' split
  all_goals simp

/-- What `clearWindows` leaves unchanged. -/
@[simp] theorem clearWindows_frame (s : State) :
    (clearWindows s).timeBase = s.timeBase ∧ (clearWindows s).resetAsserted = s.resetAsserted ∧
    (clearWindows s).sp = s.sp ∧ (clearWindows s).pf = s.pf ∧ (clearWindows s).pending = s.pending ∧
    (clearWindows s).pool.store = s.pool.store ∧
    (clearWindows s).hr.map FrameRec.frameNo = s.hr.map FrameRec.frameNo ∧
    (clearWindows s).ps.detachTime = s.ps.detachTime ∧ (clearWindows s).otg.mode = s.otg.mode ∧
    (clearWindows s).otg.pendingApp = s.otg.pendingApp ∧ (clearWindows s).otg.pendingReset = s.otg.pendingReset ∧
    (clearWindows s).otg.keptFixed = s.otg.keptFixed ∧ (clearWindows s).otg.fixedTimer = s.otg.fixedTimer ∧
    (clearWindows s).ml.asm = s.ml.asm ∧ (clearWindows s).ml.partialMsg = s.ml.partialMsg ∧
    (clearWindows s).ml.lastByte = s.ml.lastByte ∧ (clearWindows s).ml.slots = s.ml.slots ∧
    (clearWindows s).ml.overrun = s.ml.overrun ∧ (clearWindows s).ml.enables = s.ml.enables ∧
    (clearWindows s).pc.limits = s.pc.limits ∧ (clearWindows s).pc.propState = s.pc.propState ∧
    (clearWindows s).pc.proposal = s.pc.proposal ∧ (clearWindows s).pc.faulted = s.pc.faulted ∧
    (clearWindows s).cs.scan = s.cs.scan := by
  simp [clearWindows]

/-- What `enterDetached` leaves unchanged. -/
@[simp] theorem enterDetached_frame (score : Nat) (s : State) :
    (enterDetached score s).timeBase = s.timeBase ∧ (enterDetached score s).resetAsserted = s.resetAsserted ∧
    (enterDetached score s).pf = s.pf ∧ (enterDetached score s).pending = s.pending ∧
    (enterDetached score s).pool.store = s.pool.store ∧
    (enterDetached score s).hr.map FrameRec.frameNo = s.hr.map FrameRec.frameNo ∧
    (enterDetached score s).otg.mode = s.otg.mode ∧ (enterDetached score s).otg.pendingApp = s.otg.pendingApp ∧
    (enterDetached score s).otg.pendingReset = s.otg.pendingReset ∧
    (enterDetached score s).otg.keptFixed = s.otg.keptFixed ∧
    (enterDetached score s).otg.fixedTimer = s.otg.fixedTimer ∧ (enterDetached score s).ml.asm = s.ml.asm ∧
    (enterDetached score s).ml.partialMsg = s.ml.partialMsg ∧
    (enterDetached score s).ml.lastByte = s.ml.lastByte ∧ (enterDetached score s).ml.slots = s.ml.slots ∧
    (enterDetached score s).ml.overrun = s.ml.overrun ∧ (enterDetached score s).ml.enables = s.ml.enables ∧
    (enterDetached score s).pc.limits = s.pc.limits ∧ (enterDetached score s).pc.propState = s.pc.propState ∧
    (enterDetached score s).pc.proposal = s.pc.proposal ∧ (enterDetached score s).pc.faulted = s.pc.faulted ∧
    (enterDetached score s).cs.scan = s.cs.scan ∧ (enterDetached score s).sp.signal = s.sp.signal ∧
    (enterDetached score s).sp.frameCounter = s.sp.frameCounter ∧ (enterDetached score s).sp.cond = s.sp.cond ∧
    (enterDetached score s).sp.lineCount = s.sp.lineCount ∧ (enterDetached score s).sp.stripErr = s.sp.stripErr ∧
    (enterDetached score s).sp.obsClean = s.sp.obsClean ∧
    (enterDetached score s).sp.firstPixels = s.sp.firstPixels ∧
    (enterDetached score s).sp.closeBad = s.sp.closeBad := by
  simp [enterDetached]

/-- The source state, the score and the detach time at an entry to DETACHED (R37). -/
@[simp] theorem enterDetached_sets (score : Nat) (s : State) :
    (enterDetached score s).sp.state = .detached ∧ (enterDetached score s).sp.score = score ∧
    (enterDetached score s).sp.cleanRun = 0 ∧ (enterDetached score s).sp.prevRef = none ∧
    (enterDetached score s).ps.detachTime = some s.now := by
  simp [enterDetached]

/-- What `changeScore` leaves unchanged. -/
@[simp] theorem changeScore_frame (f : Nat → Nat) (s : State) :
    (changeScore f s).timeBase = s.timeBase ∧ (changeScore f s).resetAsserted = s.resetAsserted ∧
    (changeScore f s).pf = s.pf ∧ (changeScore f s).pending = s.pending ∧
    (changeScore f s).pool.store = s.pool.store ∧
    (changeScore f s).hr.map FrameRec.frameNo = s.hr.map FrameRec.frameNo ∧
    (changeScore f s).otg.mode = s.otg.mode ∧ (changeScore f s).otg.pendingApp = s.otg.pendingApp ∧
    (changeScore f s).otg.pendingReset = s.otg.pendingReset ∧ (changeScore f s).otg.keptFixed = s.otg.keptFixed ∧
    (changeScore f s).otg.fixedTimer = s.otg.fixedTimer ∧ (changeScore f s).ml.asm = s.ml.asm ∧
    (changeScore f s).ml.partialMsg = s.ml.partialMsg ∧ (changeScore f s).ml.lastByte = s.ml.lastByte ∧
    (changeScore f s).ml.slots = s.ml.slots ∧ (changeScore f s).ml.overrun = s.ml.overrun ∧
    (changeScore f s).ml.enables = s.ml.enables ∧ (changeScore f s).pc.limits = s.pc.limits ∧
    (changeScore f s).pc.propState = s.pc.propState ∧ (changeScore f s).pc.proposal = s.pc.proposal ∧
    (changeScore f s).pc.faulted = s.pc.faulted ∧ (changeScore f s).cs.scan = s.cs.scan ∧
    (changeScore f s).sp.signal = s.sp.signal ∧ (changeScore f s).sp.frameCounter = s.sp.frameCounter ∧
    (changeScore f s).sp.cond = s.sp.cond ∧ (changeScore f s).sp.lineCount = s.sp.lineCount ∧
    (changeScore f s).sp.stripErr = s.sp.stripErr ∧ (changeScore f s).sp.obsClean = s.sp.obsClean ∧
    (changeScore f s).sp.firstPixels = s.sp.firstPixels ∧ (changeScore f s).sp.closeBad = s.sp.closeBad := by
  simp only [changeScore]
  repeat' split
  all_goals simp

/-- What `reattach` leaves unchanged. -/
@[simp] theorem reattach_frame (s : State) :
    (reattach s).timeBase = s.timeBase ∧ (reattach s).resetAsserted = s.resetAsserted ∧
    (reattach s).pool = s.pool ∧ (reattach s).cs = s.cs ∧ (reattach s).pc = s.pc ∧ (reattach s).pf = s.pf ∧
    (reattach s).hr = s.hr ∧ (reattach s).panel = s.panel ∧ (reattach s).choices = s.choices ∧
    (reattach s).pending = s.pending ∧ (reattach s).sp.signal = s.sp.signal ∧
    (reattach s).sp.frameCounter = s.sp.frameCounter ∧ (reattach s).sp.cond = s.sp.cond ∧
    (reattach s).sp.lineCount = s.sp.lineCount ∧ (reattach s).sp.stripErr = s.sp.stripErr ∧
    (reattach s).sp.obsClean = s.sp.obsClean ∧ (reattach s).sp.firstPixels = s.sp.firstPixels ∧
    (reattach s).sp.prevRef = s.sp.prevRef ∧ (reattach s).sp.closeBad = s.sp.closeBad ∧
    (reattach s).otg.mode = s.otg.mode ∧ (reattach s).otg.timing = s.otg.timing ∧
    (reattach s).otg.tLast = s.otg.tLast ∧ (reattach s).otg.tminTimer = s.otg.tminTimer ∧
    (reattach s).otg.minPassed = s.otg.minPassed ∧ (reattach s).otg.keptRepeat = s.otg.keptRepeat ∧
    (reattach s).otg.fixedTimer = s.otg.fixedTimer ∧ (reattach s).otg.keptFixed = s.otg.keptFixed ∧
    (reattach s).otg.nextStrip = s.otg.nextStrip ∧ (reattach s).otg.pendingApp = s.otg.pendingApp ∧
    (reattach s).otg.pendingReset = s.otg.pendingReset ∧ (reattach s).otg.repeatTimer = s.otg.repeatTimer ∧
    (reattach s).otg.planCount = s.otg.planCount ∧ (reattach s).pu.intervals = s.pu.intervals ∧
    (reattach s).pu.fills = s.pu.fills ∧ (reattach s).pu.ti = s.pu.ti ∧ (reattach s).pu.fi = s.pu.fi ∧
    (reattach s).pu.q = s.pu.q ∧ (reattach s).pu.lastQ = s.pu.lastQ ∧
    (reattach s).pu.planActive = s.pu.planActive ∧ (reattach s).pu.k = s.pu.k ∧ (reattach s).pu.tr = s.pu.tr ∧
    (reattach s).pu.admitted = s.pu.admitted ∧ (reattach s).pu.armed = s.pu.armed ∧
    (reattach s).ml.asm = s.ml.asm ∧ (reattach s).ml.partialMsg = s.ml.partialMsg ∧
    (reattach s).ml.lastByte = s.ml.lastByte ∧ (reattach s).ml.slots = s.ml.slots ∧
    (reattach s).ml.overrun = s.ml.overrun ∧ (reattach s).ml.enables = s.ml.enables ∧
    (reattach s).ps.lastKind = s.ps.lastKind ∧ (reattach s).ps.watchOpen = s.ps.watchOpen ∧
    (reattach s).ps.q = s.ps.q := by
  simp [reattach]

/-- What re-attach sets (R41). -/
@[simp] theorem reattach_sets (s : State) :
    (reattach s).sp.state = .guarded ∧ (reattach s).sp.score = 96 ∧ (reattach s).sp.cleanRun = 0 ∧
    (reattach s).ps.detachTime = none ∧ (reattach s).ps.blankActive = false := by
  simp [reattach]

/-- What `setCond` leaves unchanged. -/
@[simp] theorem setCond_frame (c : FrameCond) (s : State) :
    (setCond c s).timeBase = s.timeBase ∧ (setCond c s).resetAsserted = s.resetAsserted ∧
    (setCond c s).pool = s.pool ∧ (setCond c s).pu = s.pu ∧ (setCond c s).otg = s.otg ∧ (setCond c s).ps = s.ps ∧
    (setCond c s).cs = s.cs ∧ (setCond c s).pc = s.pc ∧ (setCond c s).pf = s.pf ∧ (setCond c s).hr = s.hr ∧
    (setCond c s).ml = s.ml ∧ (setCond c s).panel = s.panel ∧ (setCond c s).choices = s.choices ∧
    (setCond c s).pending = s.pending ∧ (setCond c s).sp.state = s.sp.state ∧
    (setCond c s).sp.score = s.sp.score ∧ (setCond c s).sp.cleanRun = s.sp.cleanRun ∧
    (setCond c s).sp.signal = s.sp.signal ∧ (setCond c s).sp.frameCounter = s.sp.frameCounter ∧
    (setCond c s).sp.lineCount = s.sp.lineCount ∧ (setCond c s).sp.stripErr = s.sp.stripErr ∧
    (setCond c s).sp.obsClean = s.sp.obsClean ∧ (setCond c s).sp.firstPixels = s.sp.firstPixels ∧
    (setCond c s).sp.prevRef = s.sp.prevRef ∧ (setCond c s).sp.closeBad = s.sp.closeBad := by
  simp [setCond]

/-- What `openFrame` leaves unchanged. -/
@[simp] theorem openFrame_frame (c : FrameCond) (s : State) :
    (openFrame c s).timeBase = s.timeBase ∧ (openFrame c s).resetAsserted = s.resetAsserted ∧
    (openFrame c s).pool = s.pool ∧ (openFrame c s).pu = s.pu ∧ (openFrame c s).otg = s.otg ∧
    (openFrame c s).ps = s.ps ∧ (openFrame c s).cs = s.cs ∧ (openFrame c s).pc = s.pc ∧
    (openFrame c s).pf = s.pf ∧ (openFrame c s).hr = s.hr ∧ (openFrame c s).ml = s.ml ∧
    (openFrame c s).panel = s.panel ∧ (openFrame c s).choices = s.choices ∧ (openFrame c s).pending = s.pending ∧
    (openFrame c s).sp.state = s.sp.state ∧ (openFrame c s).sp.score = s.sp.score ∧
    (openFrame c s).sp.cleanRun = s.sp.cleanRun ∧ (openFrame c s).sp.signal = s.sp.signal ∧
    (openFrame c s).sp.frameCounter = s.sp.frameCounter ∧ (openFrame c s).sp.obsClean = s.sp.obsClean ∧
    (openFrame c s).sp.prevRef = s.sp.prevRef ∧ (openFrame c s).sp.closeBad = s.sp.closeBad := by
  simp [openFrame]

/-- What `observeFrame` leaves unchanged. -/
@[simp] theorem observeFrame_frame (s : State) :
    (observeFrame s).timeBase = s.timeBase ∧ (observeFrame s).resetAsserted = s.resetAsserted ∧
    (observeFrame s).pool = s.pool ∧ (observeFrame s).pu = s.pu ∧ (observeFrame s).otg = s.otg ∧
    (observeFrame s).ps = s.ps ∧ (observeFrame s).cs = s.cs ∧ (observeFrame s).pc = s.pc ∧
    (observeFrame s).pf = s.pf ∧ (observeFrame s).hr = s.hr ∧ (observeFrame s).ml = s.ml ∧
    (observeFrame s).panel = s.panel ∧ (observeFrame s).choices = s.choices ∧
    (observeFrame s).pending = s.pending ∧ (observeFrame s).sp.state = s.sp.state ∧
    (observeFrame s).sp.score = s.sp.score ∧ (observeFrame s).sp.cleanRun = s.sp.cleanRun ∧
    (observeFrame s).sp.signal = s.sp.signal ∧ (observeFrame s).sp.frameCounter = s.sp.frameCounter ∧
    (observeFrame s).sp.prevRef = s.sp.prevRef ∧ (observeFrame s).sp.closeBad = s.sp.closeBad := by
  simp [observeFrame]

/-- What `endFrame` leaves unchanged. -/
@[simp] theorem endFrame_frame (s : State) :
    (endFrame s).timeBase = s.timeBase ∧ (endFrame s).resetAsserted = s.resetAsserted ∧
    (endFrame s).pool = s.pool ∧ (endFrame s).pu = s.pu ∧ (endFrame s).otg = s.otg ∧ (endFrame s).ps = s.ps ∧
    (endFrame s).cs = s.cs ∧ (endFrame s).pc = s.pc ∧ (endFrame s).pf = s.pf ∧ (endFrame s).hr = s.hr ∧
    (endFrame s).ml = s.ml ∧ (endFrame s).panel = s.panel ∧ (endFrame s).choices = s.choices ∧
    (endFrame s).pending = s.pending ∧ (endFrame s).sp.state = s.sp.state ∧ (endFrame s).sp.score = s.sp.score ∧
    (endFrame s).sp.cleanRun = s.sp.cleanRun ∧ (endFrame s).sp.signal = s.sp.signal ∧
    (endFrame s).sp.frameCounter = s.sp.frameCounter ∧ (endFrame s).sp.lineCount = s.sp.lineCount ∧
    (endFrame s).sp.obsClean = s.sp.obsClean ∧ (endFrame s).sp.firstPixels = s.sp.firstPixels ∧
    (endFrame s).sp.prevRef = s.sp.prevRef ∧ (endFrame s).sp.closeBad = s.sp.closeBad := by
  simp [endFrame]

/-- What `breakRun` leaves unchanged. -/
@[simp] theorem breakRun_frame (s : State) :
    (breakRun s).timeBase = s.timeBase ∧ (breakRun s).resetAsserted = s.resetAsserted ∧
    (breakRun s).pool = s.pool ∧ (breakRun s).pu = s.pu ∧ (breakRun s).otg = s.otg ∧ (breakRun s).ps = s.ps ∧
    (breakRun s).cs = s.cs ∧ (breakRun s).pc = s.pc ∧ (breakRun s).pf = s.pf ∧ (breakRun s).hr = s.hr ∧
    (breakRun s).ml = s.ml ∧ (breakRun s).panel = s.panel ∧ (breakRun s).choices = s.choices ∧
    (breakRun s).pending = s.pending ∧ (breakRun s).sp.state = s.sp.state ∧ (breakRun s).sp.score = s.sp.score ∧
    (breakRun s).sp.signal = s.sp.signal ∧ (breakRun s).sp.frameCounter = s.sp.frameCounter ∧
    (breakRun s).sp.cond = s.sp.cond ∧ (breakRun s).sp.lineCount = s.sp.lineCount ∧
    (breakRun s).sp.stripErr = s.sp.stripErr ∧ (breakRun s).sp.obsClean = s.sp.obsClean ∧
    (breakRun s).sp.firstPixels = s.sp.firstPixels ∧ (breakRun s).sp.prevRef = s.sp.prevRef ∧
    (breakRun s).sp.closeBad = s.sp.closeBad := by
  simp [breakRun]

/-- What `countLine` leaves unchanged. -/
@[simp] theorem countLine_frame (s : State) :
    (countLine s).timeBase = s.timeBase ∧ (countLine s).resetAsserted = s.resetAsserted ∧
    (countLine s).pool = s.pool ∧ (countLine s).pu = s.pu ∧ (countLine s).otg = s.otg ∧ (countLine s).ps = s.ps ∧
    (countLine s).cs = s.cs ∧ (countLine s).pc = s.pc ∧ (countLine s).pf = s.pf ∧ (countLine s).hr = s.hr ∧
    (countLine s).ml = s.ml ∧ (countLine s).panel = s.panel ∧ (countLine s).choices = s.choices ∧
    (countLine s).pending = s.pending ∧ (countLine s).sp.state = s.sp.state ∧
    (countLine s).sp.score = s.sp.score ∧ (countLine s).sp.cleanRun = s.sp.cleanRun ∧
    (countLine s).sp.signal = s.sp.signal ∧ (countLine s).sp.frameCounter = s.sp.frameCounter ∧
    (countLine s).sp.cond = s.sp.cond ∧ (countLine s).sp.stripErr = s.sp.stripErr ∧
    (countLine s).sp.obsClean = s.sp.obsClean ∧ (countLine s).sp.firstPixels = s.sp.firstPixels ∧
    (countLine s).sp.prevRef = s.sp.prevRef ∧ (countLine s).sp.closeBad = s.sp.closeBad := by
  simp [countLine]

/-- What `closeByStart` leaves unchanged. -/
@[simp] theorem closeByStart_frame (s : State) :
    (closeByStart s).timeBase = s.timeBase ∧ (closeByStart s).resetAsserted = s.resetAsserted ∧
    (closeByStart s).pf = s.pf ∧ (closeByStart s).pending = s.pending ∧
    (closeByStart s).pool.store = s.pool.store ∧
    (closeByStart s).hr.map FrameRec.frameNo = s.hr.map FrameRec.frameNo ∧
    (closeByStart s).otg.mode = s.otg.mode ∧ (closeByStart s).otg.pendingApp = s.otg.pendingApp ∧
    (closeByStart s).otg.pendingReset = s.otg.pendingReset ∧ (closeByStart s).otg.keptFixed = s.otg.keptFixed ∧
    (closeByStart s).otg.fixedTimer = s.otg.fixedTimer ∧ (closeByStart s).ml.asm = s.ml.asm ∧
    (closeByStart s).ml.partialMsg = s.ml.partialMsg ∧ (closeByStart s).ml.lastByte = s.ml.lastByte ∧
    (closeByStart s).ml.slots = s.ml.slots ∧ (closeByStart s).ml.overrun = s.ml.overrun ∧
    (closeByStart s).ml.enables = s.ml.enables ∧ (closeByStart s).pc.limits = s.pc.limits ∧
    (closeByStart s).pc.propState = s.pc.propState ∧ (closeByStart s).pc.proposal = s.pc.proposal ∧
    (closeByStart s).pc.faulted = s.pc.faulted ∧ (closeByStart s).cs.scan = s.cs.scan ∧
    (closeByStart s).sp.signal = s.sp.signal ∧ (closeByStart s).sp.frameCounter = s.sp.frameCounter ∧
    (closeByStart s).sp.cond = s.sp.cond ∧ (closeByStart s).sp.lineCount = s.sp.lineCount ∧
    (closeByStart s).sp.stripErr = s.sp.stripErr ∧ (closeByStart s).sp.obsClean = s.sp.obsClean ∧
    (closeByStart s).sp.firstPixels = s.sp.firstPixels ∧ (closeByStart s).sp.closeBad = s.sp.closeBad := by
  simp only [closeByStart]
  repeat' split
  all_goals simp

/-- What `intervalSample` leaves unchanged. -/
@[simp] theorem intervalSample_frame (s : State) :
    (intervalSample s).timeBase = s.timeBase ∧ (intervalSample s).resetAsserted = s.resetAsserted ∧
    (intervalSample s).pool = s.pool ∧ (intervalSample s).sp = s.sp ∧ (intervalSample s).ps = s.ps ∧
    (intervalSample s).cs = s.cs ∧ (intervalSample s).pc = s.pc ∧ (intervalSample s).pf = s.pf ∧
    (intervalSample s).hr = s.hr ∧ (intervalSample s).panel = s.panel ∧ (intervalSample s).choices = s.choices ∧
    (intervalSample s).pending = s.pending ∧ (intervalSample s).otg.mode = s.otg.mode ∧
    (intervalSample s).otg.timing = s.otg.timing ∧ (intervalSample s).otg.tLast = s.otg.tLast ∧
    (intervalSample s).otg.tminTimer = s.otg.tminTimer ∧ (intervalSample s).otg.minPassed = s.otg.minPassed ∧
    (intervalSample s).otg.keptRepeat = s.otg.keptRepeat ∧ (intervalSample s).otg.fixedTimer = s.otg.fixedTimer ∧
    (intervalSample s).otg.keptFixed = s.otg.keptFixed ∧ (intervalSample s).otg.nextStrip = s.otg.nextStrip ∧
    (intervalSample s).otg.pendingApp = s.otg.pendingApp ∧
    (intervalSample s).otg.pendingReset = s.otg.pendingReset ∧ (intervalSample s).pu.fills = s.pu.fills ∧
    (intervalSample s).pu.fi = s.pu.fi ∧ (intervalSample s).pu.q = s.pu.q ∧
    (intervalSample s).pu.lastQ = s.pu.lastQ ∧ (intervalSample s).pu.armed = s.pu.armed ∧
    (intervalSample s).ml.asm = s.ml.asm ∧ (intervalSample s).ml.partialMsg = s.ml.partialMsg ∧
    (intervalSample s).ml.lastByte = s.ml.lastByte ∧ (intervalSample s).ml.slots = s.ml.slots ∧
    (intervalSample s).ml.overrun = s.ml.overrun ∧ (intervalSample s).ml.enables = s.ml.enables := by
  simp only [intervalSample]
  repeat' split
  all_goals simp

/-- What `takeFrame` leaves unchanged. -/
@[simp] theorem takeFrame_frame (k : Slot) (s : State) :
    (takeFrame k s).timeBase = s.timeBase ∧ (takeFrame k s).resetAsserted = s.resetAsserted ∧
    (takeFrame k s).ps = s.ps ∧ (takeFrame k s).cs = s.cs ∧ (takeFrame k s).pc = s.pc ∧
    (takeFrame k s).pf = s.pf ∧ (takeFrame k s).panel = s.panel ∧ (takeFrame k s).choices = s.choices ∧
    (takeFrame k s).pending = s.pending ∧ (takeFrame k s).sp.state = s.sp.state ∧
    (takeFrame k s).sp.score = s.sp.score ∧ (takeFrame k s).sp.cleanRun = s.sp.cleanRun ∧
    (takeFrame k s).sp.signal = s.sp.signal ∧ (takeFrame k s).sp.obsClean = s.sp.obsClean ∧
    (takeFrame k s).sp.closeBad = s.sp.closeBad ∧ (takeFrame k s).pool.store = s.pool.store ∧
    (takeFrame k s).pool.q = s.pool.q ∧ (takeFrame k s).pool.ready = s.pool.ready ∧
    (takeFrame k s).pool.held = s.pool.held ∧ (takeFrame k s).pool.onScreen = s.pool.onScreen ∧
    (takeFrame k s).otg.mode = s.otg.mode ∧ (takeFrame k s).otg.timing = s.otg.timing ∧
    (takeFrame k s).otg.tLast = s.otg.tLast ∧ (takeFrame k s).otg.tminTimer = s.otg.tminTimer ∧
    (takeFrame k s).otg.minPassed = s.otg.minPassed ∧ (takeFrame k s).otg.keptRepeat = s.otg.keptRepeat ∧
    (takeFrame k s).otg.fixedTimer = s.otg.fixedTimer ∧ (takeFrame k s).otg.keptFixed = s.otg.keptFixed ∧
    (takeFrame k s).otg.nextStrip = s.otg.nextStrip ∧ (takeFrame k s).otg.pendingApp = s.otg.pendingApp ∧
    (takeFrame k s).otg.pendingReset = s.otg.pendingReset ∧ (takeFrame k s).pu.fills = s.pu.fills ∧
    (takeFrame k s).pu.fi = s.pu.fi ∧ (takeFrame k s).pu.q = s.pu.q ∧ (takeFrame k s).pu.lastQ = s.pu.lastQ ∧
    (takeFrame k s).pu.armed = s.pu.armed ∧ (takeFrame k s).ml.asm = s.ml.asm ∧
    (takeFrame k s).ml.partialMsg = s.ml.partialMsg ∧ (takeFrame k s).ml.lastByte = s.ml.lastByte ∧
    (takeFrame k s).ml.slots = s.ml.slots ∧ (takeFrame k s).ml.overrun = s.ml.overrun ∧
    (takeFrame k s).ml.enables = s.ml.enables := by
  simp [takeFrame]

/-- What `strayEvent` leaves unchanged. -/
@[simp] theorem strayEvent_frame (s : State) :
    (strayEvent s).timeBase = s.timeBase ∧ (strayEvent s).resetAsserted = s.resetAsserted ∧
    (strayEvent s).pf = s.pf ∧ (strayEvent s).pending = s.pending ∧ (strayEvent s).pool.store = s.pool.store ∧
    (strayEvent s).hr.map FrameRec.frameNo = s.hr.map FrameRec.frameNo ∧ (strayEvent s).otg.mode = s.otg.mode ∧
    (strayEvent s).otg.pendingApp = s.otg.pendingApp ∧ (strayEvent s).otg.pendingReset = s.otg.pendingReset ∧
    (strayEvent s).otg.keptFixed = s.otg.keptFixed ∧ (strayEvent s).otg.fixedTimer = s.otg.fixedTimer ∧
    (strayEvent s).ml.asm = s.ml.asm ∧ (strayEvent s).ml.partialMsg = s.ml.partialMsg ∧
    (strayEvent s).ml.lastByte = s.ml.lastByte ∧ (strayEvent s).ml.slots = s.ml.slots ∧
    (strayEvent s).ml.overrun = s.ml.overrun ∧ (strayEvent s).ml.enables = s.ml.enables ∧
    (strayEvent s).pc.limits = s.pc.limits ∧ (strayEvent s).pc.propState = s.pc.propState ∧
    (strayEvent s).pc.proposal = s.pc.proposal ∧ (strayEvent s).pc.faulted = s.pc.faulted ∧
    (strayEvent s).cs.scan = s.cs.scan ∧ (strayEvent s).sp.signal = s.sp.signal ∧
    (strayEvent s).sp.frameCounter = s.sp.frameCounter ∧ (strayEvent s).sp.cond = s.sp.cond ∧
    (strayEvent s).sp.lineCount = s.sp.lineCount ∧ (strayEvent s).sp.stripErr = s.sp.stripErr ∧
    (strayEvent s).sp.obsClean = s.sp.obsClean ∧ (strayEvent s).sp.firstPixels = s.sp.firstPixels ∧
    (strayEvent s).sp.closeBad = s.sp.closeBad := by
  simp only [strayEvent]
  repeat' split
  all_goals simp

/-- What `foreignFrame` leaves unchanged. -/
@[simp] theorem foreignFrame_frame (s : State) :
    (foreignFrame s).timeBase = s.timeBase ∧ (foreignFrame s).resetAsserted = s.resetAsserted ∧
    (foreignFrame s).pf = s.pf ∧ (foreignFrame s).pending = s.pending ∧
    (foreignFrame s).pool.store = s.pool.store ∧
    (foreignFrame s).hr.map FrameRec.frameNo = s.hr.map FrameRec.frameNo ∧
    (foreignFrame s).ps.detachTime = s.ps.detachTime ∧ (foreignFrame s).otg.mode = s.otg.mode ∧
    (foreignFrame s).otg.pendingApp = s.otg.pendingApp ∧ (foreignFrame s).otg.pendingReset = s.otg.pendingReset ∧
    (foreignFrame s).otg.keptFixed = s.otg.keptFixed ∧ (foreignFrame s).otg.fixedTimer = s.otg.fixedTimer ∧
    (foreignFrame s).ml.asm = s.ml.asm ∧ (foreignFrame s).ml.partialMsg = s.ml.partialMsg ∧
    (foreignFrame s).ml.lastByte = s.ml.lastByte ∧ (foreignFrame s).ml.slots = s.ml.slots ∧
    (foreignFrame s).ml.overrun = s.ml.overrun ∧ (foreignFrame s).ml.enables = s.ml.enables ∧
    (foreignFrame s).pc.limits = s.pc.limits ∧ (foreignFrame s).pc.propState = s.pc.propState ∧
    (foreignFrame s).pc.proposal = s.pc.proposal ∧ (foreignFrame s).pc.faulted = s.pc.faulted ∧
    (foreignFrame s).cs.scan = s.cs.scan ∧ (foreignFrame s).sp.state = s.sp.state ∧
    (foreignFrame s).sp.score = s.sp.score ∧ (foreignFrame s).sp.cleanRun = s.sp.cleanRun ∧
    (foreignFrame s).sp.signal = s.sp.signal ∧ (foreignFrame s).sp.frameCounter = s.sp.frameCounter ∧
    (foreignFrame s).sp.cond = s.sp.cond ∧ (foreignFrame s).sp.lineCount = s.sp.lineCount ∧
    (foreignFrame s).sp.stripErr = s.sp.stripErr ∧ (foreignFrame s).sp.obsClean = s.sp.obsClean ∧
    (foreignFrame s).sp.firstPixels = s.sp.firstPixels ∧ (foreignFrame s).sp.closeBad = s.sp.closeBad := by
  simp [foreignFrame]

/-- What `foreignAtLine` leaves unchanged. -/
@[simp] theorem foreignAtLine_frame (s : State) :
    (foreignAtLine s).timeBase = s.timeBase ∧ (foreignAtLine s).resetAsserted = s.resetAsserted ∧
    (foreignAtLine s).pf = s.pf ∧ (foreignAtLine s).pending = s.pending ∧
    (foreignAtLine s).pool.store = s.pool.store ∧
    (foreignAtLine s).hr.map FrameRec.frameNo = s.hr.map FrameRec.frameNo ∧
    (foreignAtLine s).ps.detachTime = s.ps.detachTime ∧ (foreignAtLine s).otg.mode = s.otg.mode ∧
    (foreignAtLine s).otg.pendingApp = s.otg.pendingApp ∧
    (foreignAtLine s).otg.pendingReset = s.otg.pendingReset ∧ (foreignAtLine s).otg.keptFixed = s.otg.keptFixed ∧
    (foreignAtLine s).otg.fixedTimer = s.otg.fixedTimer ∧ (foreignAtLine s).ml.asm = s.ml.asm ∧
    (foreignAtLine s).ml.partialMsg = s.ml.partialMsg ∧ (foreignAtLine s).ml.lastByte = s.ml.lastByte ∧
    (foreignAtLine s).ml.slots = s.ml.slots ∧ (foreignAtLine s).ml.overrun = s.ml.overrun ∧
    (foreignAtLine s).ml.enables = s.ml.enables ∧ (foreignAtLine s).pc.limits = s.pc.limits ∧
    (foreignAtLine s).pc.propState = s.pc.propState ∧ (foreignAtLine s).pc.proposal = s.pc.proposal ∧
    (foreignAtLine s).pc.faulted = s.pc.faulted ∧ (foreignAtLine s).cs.scan = s.cs.scan ∧
    (foreignAtLine s).sp.state = s.sp.state ∧ (foreignAtLine s).sp.score = s.sp.score ∧
    (foreignAtLine s).sp.cleanRun = s.sp.cleanRun ∧ (foreignAtLine s).sp.signal = s.sp.signal ∧
    (foreignAtLine s).sp.frameCounter = s.sp.frameCounter ∧ (foreignAtLine s).sp.lineCount = s.sp.lineCount ∧
    (foreignAtLine s).sp.stripErr = s.sp.stripErr ∧ (foreignAtLine s).sp.obsClean = s.sp.obsClean ∧
    (foreignAtLine s).sp.firstPixels = s.sp.firstPixels := by
  simp [foreignAtLine]

/-- What `foreignAtEnd` leaves unchanged. -/
@[simp] theorem foreignAtEnd_frame (s : State) :
    (foreignAtEnd s).timeBase = s.timeBase ∧ (foreignAtEnd s).resetAsserted = s.resetAsserted ∧
    (foreignAtEnd s).pf = s.pf ∧ (foreignAtEnd s).pending = s.pending ∧
    (foreignAtEnd s).pool.store = s.pool.store ∧
    (foreignAtEnd s).hr.map FrameRec.frameNo = s.hr.map FrameRec.frameNo ∧
    (foreignAtEnd s).ps.detachTime = s.ps.detachTime ∧ (foreignAtEnd s).otg.mode = s.otg.mode ∧
    (foreignAtEnd s).otg.pendingApp = s.otg.pendingApp ∧ (foreignAtEnd s).otg.pendingReset = s.otg.pendingReset ∧
    (foreignAtEnd s).otg.keptFixed = s.otg.keptFixed ∧ (foreignAtEnd s).otg.fixedTimer = s.otg.fixedTimer ∧
    (foreignAtEnd s).ml.asm = s.ml.asm ∧ (foreignAtEnd s).ml.partialMsg = s.ml.partialMsg ∧
    (foreignAtEnd s).ml.lastByte = s.ml.lastByte ∧ (foreignAtEnd s).ml.slots = s.ml.slots ∧
    (foreignAtEnd s).ml.overrun = s.ml.overrun ∧ (foreignAtEnd s).ml.enables = s.ml.enables ∧
    (foreignAtEnd s).pc.limits = s.pc.limits ∧ (foreignAtEnd s).pc.propState = s.pc.propState ∧
    (foreignAtEnd s).pc.proposal = s.pc.proposal ∧ (foreignAtEnd s).pc.faulted = s.pc.faulted ∧
    (foreignAtEnd s).cs.scan = s.cs.scan ∧ (foreignAtEnd s).sp.state = s.sp.state ∧
    (foreignAtEnd s).sp.score = s.sp.score ∧ (foreignAtEnd s).sp.cleanRun = s.sp.cleanRun ∧
    (foreignAtEnd s).sp.signal = s.sp.signal ∧ (foreignAtEnd s).sp.frameCounter = s.sp.frameCounter ∧
    (foreignAtEnd s).sp.lineCount = s.sp.lineCount ∧ (foreignAtEnd s).sp.obsClean = s.sp.obsClean ∧
    (foreignAtEnd s).sp.firstPixels = s.sp.firstPixels ∧ (foreignAtEnd s).sp.closeBad = s.sp.closeBad := by
  simp [foreignAtEnd]

/-- What `storeLine` leaves unchanged. -/
@[simp] theorem storeLine_frame (line : Nat) (pixels : List Pixel) (s : State) :
    (storeLine line pixels s).timeBase = s.timeBase ∧ (storeLine line pixels s).resetAsserted = s.resetAsserted ∧
    (storeLine line pixels s).sp = s.sp ∧ (storeLine line pixels s).pu = s.pu ∧
    (storeLine line pixels s).otg = s.otg ∧ (storeLine line pixels s).ps = s.ps ∧
    (storeLine line pixels s).cs = s.cs ∧ (storeLine line pixels s).pc = s.pc ∧
    (storeLine line pixels s).pf = s.pf ∧ (storeLine line pixels s).hr = s.hr ∧
    (storeLine line pixels s).ml = s.ml ∧ (storeLine line pixels s).panel = s.panel ∧
    (storeLine line pixels s).choices = s.choices ∧ (storeLine line pixels s).pending = s.pending ∧
    (storeLine line pixels s).pool.slots = s.pool.slots ∧ (storeLine line pixels s).pool.q = s.pool.q ∧
    (storeLine line pixels s).pool.filling = s.pool.filling ∧
    (storeLine line pixels s).pool.ready = s.pool.ready ∧ (storeLine line pixels s).pool.held = s.pool.held ∧
    (storeLine line pixels s).pool.onScreen = s.pool.onScreen ∧
    (storeLine line pixels s).pool.cands = s.pool.cands := by
  simp only [storeLine]
  repeat' split
  all_goals simp

/-- What `stripFilled` leaves unchanged. -/
@[simp] theorem stripFilled_frame (bad : Bool) (s : State) :
    (stripFilled bad s).timeBase = s.timeBase ∧ (stripFilled bad s).resetAsserted = s.resetAsserted ∧
    (stripFilled bad s).sp = s.sp ∧ (stripFilled bad s).pf = s.pf ∧ (stripFilled bad s).pending = s.pending ∧
    (stripFilled bad s).pool.store = s.pool.store ∧
    (stripFilled bad s).hr.map FrameRec.frameNo = s.hr.map FrameRec.frameNo ∧
    (stripFilled bad s).ps.detachTime = s.ps.detachTime ∧ (stripFilled bad s).otg.mode = s.otg.mode ∧
    (stripFilled bad s).otg.pendingApp = s.otg.pendingApp ∧
    (stripFilled bad s).otg.pendingReset = s.otg.pendingReset ∧
    (stripFilled bad s).otg.keptFixed = s.otg.keptFixed ∧ (stripFilled bad s).otg.fixedTimer = s.otg.fixedTimer ∧
    (stripFilled bad s).ml.asm = s.ml.asm ∧ (stripFilled bad s).ml.partialMsg = s.ml.partialMsg ∧
    (stripFilled bad s).ml.lastByte = s.ml.lastByte ∧ (stripFilled bad s).ml.slots = s.ml.slots ∧
    (stripFilled bad s).ml.overrun = s.ml.overrun ∧ (stripFilled bad s).ml.enables = s.ml.enables ∧
    (stripFilled bad s).pc.limits = s.pc.limits ∧ (stripFilled bad s).pc.propState = s.pc.propState ∧
    (stripFilled bad s).pc.proposal = s.pc.proposal ∧ (stripFilled bad s).pc.faulted = s.pc.faulted ∧
    (stripFilled bad s).cs.scan = s.cs.scan := by
  simp only [stripFilled]
  repeat' split
  all_goals simp

/-- What `goodLine` leaves unchanged. -/
@[simp] theorem goodLine_frame (symErr : Bool) (pixels : List Pixel) (s : State) :
    (goodLine symErr pixels s).timeBase = s.timeBase ∧
    (goodLine symErr pixels s).resetAsserted = s.resetAsserted ∧ (goodLine symErr pixels s).pf = s.pf ∧
    (goodLine symErr pixels s).pending = s.pending ∧
    (goodLine symErr pixels s).hr.map FrameRec.frameNo = s.hr.map FrameRec.frameNo ∧
    (goodLine symErr pixels s).ps.detachTime = s.ps.detachTime ∧
    (goodLine symErr pixels s).otg.mode = s.otg.mode ∧
    (goodLine symErr pixels s).otg.pendingApp = s.otg.pendingApp ∧
    (goodLine symErr pixels s).otg.pendingReset = s.otg.pendingReset ∧
    (goodLine symErr pixels s).otg.keptFixed = s.otg.keptFixed ∧
    (goodLine symErr pixels s).otg.fixedTimer = s.otg.fixedTimer ∧ (goodLine symErr pixels s).ml.asm = s.ml.asm ∧
    (goodLine symErr pixels s).ml.partialMsg = s.ml.partialMsg ∧
    (goodLine symErr pixels s).ml.lastByte = s.ml.lastByte ∧ (goodLine symErr pixels s).ml.slots = s.ml.slots ∧
    (goodLine symErr pixels s).ml.overrun = s.ml.overrun ∧ (goodLine symErr pixels s).ml.enables = s.ml.enables ∧
    (goodLine symErr pixels s).pc.limits = s.pc.limits ∧
    (goodLine symErr pixels s).pc.propState = s.pc.propState ∧
    (goodLine symErr pixels s).pc.proposal = s.pc.proposal ∧
    (goodLine symErr pixels s).pc.faulted = s.pc.faulted ∧ (goodLine symErr pixels s).cs.scan = s.cs.scan ∧
    (goodLine symErr pixels s).sp.state = s.sp.state ∧ (goodLine symErr pixels s).sp.score = s.sp.score ∧
    (goodLine symErr pixels s).sp.cleanRun = s.sp.cleanRun ∧ (goodLine symErr pixels s).sp.signal = s.sp.signal ∧
    (goodLine symErr pixels s).sp.frameCounter = s.sp.frameCounter ∧
    (goodLine symErr pixels s).sp.cond = s.sp.cond ∧ (goodLine symErr pixels s).sp.obsClean = s.sp.obsClean ∧
    (goodLine symErr pixels s).sp.prevRef = s.sp.prevRef ∧
    (goodLine symErr pixels s).sp.closeBad = s.sp.closeBad := by
  simp only [goodLine]
  repeat' split
  all_goals simp

/-- What `takenLine` leaves unchanged. -/
@[simp] theorem takenLine_frame (symErr : Bool) (pixels : List Pixel) (s : State) :
    (takenLine symErr pixels s).timeBase = s.timeBase ∧
    (takenLine symErr pixels s).resetAsserted = s.resetAsserted ∧ (takenLine symErr pixels s).pf = s.pf ∧
    (takenLine symErr pixels s).pending = s.pending ∧
    (takenLine symErr pixels s).hr.map FrameRec.frameNo = s.hr.map FrameRec.frameNo ∧
    (takenLine symErr pixels s).ps.detachTime = s.ps.detachTime ∧
    (takenLine symErr pixels s).otg.mode = s.otg.mode ∧
    (takenLine symErr pixels s).otg.pendingApp = s.otg.pendingApp ∧
    (takenLine symErr pixels s).otg.pendingReset = s.otg.pendingReset ∧
    (takenLine symErr pixels s).otg.keptFixed = s.otg.keptFixed ∧
    (takenLine symErr pixels s).otg.fixedTimer = s.otg.fixedTimer ∧
    (takenLine symErr pixels s).ml.asm = s.ml.asm ∧ (takenLine symErr pixels s).ml.partialMsg = s.ml.partialMsg ∧
    (takenLine symErr pixels s).ml.lastByte = s.ml.lastByte ∧ (takenLine symErr pixels s).ml.slots = s.ml.slots ∧
    (takenLine symErr pixels s).ml.overrun = s.ml.overrun ∧
    (takenLine symErr pixels s).ml.enables = s.ml.enables ∧ (takenLine symErr pixels s).pc.limits = s.pc.limits ∧
    (takenLine symErr pixels s).pc.propState = s.pc.propState ∧
    (takenLine symErr pixels s).pc.proposal = s.pc.proposal ∧
    (takenLine symErr pixels s).pc.faulted = s.pc.faulted ∧ (takenLine symErr pixels s).cs.scan = s.cs.scan ∧
    (takenLine symErr pixels s).sp.state = s.sp.state ∧ (takenLine symErr pixels s).sp.score = s.sp.score ∧
    (takenLine symErr pixels s).sp.cleanRun = s.sp.cleanRun ∧
    (takenLine symErr pixels s).sp.signal = s.sp.signal ∧
    (takenLine symErr pixels s).sp.frameCounter = s.sp.frameCounter ∧
    (takenLine symErr pixels s).sp.obsClean = s.sp.obsClean := by
  simp only [takenLine]
  repeat' split
  all_goals simp

/-- What `observedLine` leaves unchanged. -/
@[simp] theorem observedLine_frame (symErr : Bool) (pixels : List Pixel) (s : State) :
    (observedLine symErr pixels s).timeBase = s.timeBase ∧
    (observedLine symErr pixels s).resetAsserted = s.resetAsserted ∧
    (observedLine symErr pixels s).pool = s.pool ∧ (observedLine symErr pixels s).pu = s.pu ∧
    (observedLine symErr pixels s).otg = s.otg ∧ (observedLine symErr pixels s).ps = s.ps ∧
    (observedLine symErr pixels s).cs = s.cs ∧ (observedLine symErr pixels s).pc = s.pc ∧
    (observedLine symErr pixels s).pf = s.pf ∧ (observedLine symErr pixels s).hr = s.hr ∧
    (observedLine symErr pixels s).ml = s.ml ∧ (observedLine symErr pixels s).panel = s.panel ∧
    (observedLine symErr pixels s).choices = s.choices ∧ (observedLine symErr pixels s).pending = s.pending ∧
    (observedLine symErr pixels s).sp.state = s.sp.state ∧ (observedLine symErr pixels s).sp.score = s.sp.score ∧
    (observedLine symErr pixels s).sp.cleanRun = s.sp.cleanRun ∧
    (observedLine symErr pixels s).sp.signal = s.sp.signal ∧
    (observedLine symErr pixels s).sp.frameCounter = s.sp.frameCounter ∧
    (observedLine symErr pixels s).sp.cond = s.sp.cond ∧
    (observedLine symErr pixels s).sp.stripErr = s.sp.stripErr ∧
    (observedLine symErr pixels s).sp.firstPixels = s.sp.firstPixels ∧
    (observedLine symErr pixels s).sp.prevRef = s.sp.prevRef ∧
    (observedLine symErr pixels s).sp.closeBad = s.sp.closeBad := by
  simp [observedLine]

/-- What `lineEvent` leaves unchanged. -/
@[simp] theorem lineEvent_frame (symErr : Bool) (pixels : List Pixel) (s : State) :
    (lineEvent symErr pixels s).timeBase = s.timeBase ∧
    (lineEvent symErr pixels s).resetAsserted = s.resetAsserted ∧ (lineEvent symErr pixels s).pf = s.pf ∧
    (lineEvent symErr pixels s).pending = s.pending ∧
    (lineEvent symErr pixels s).hr.map FrameRec.frameNo = s.hr.map FrameRec.frameNo ∧
    (lineEvent symErr pixels s).otg.mode = s.otg.mode ∧
    (lineEvent symErr pixels s).otg.pendingApp = s.otg.pendingApp ∧
    (lineEvent symErr pixels s).otg.pendingReset = s.otg.pendingReset ∧
    (lineEvent symErr pixels s).otg.keptFixed = s.otg.keptFixed ∧
    (lineEvent symErr pixels s).otg.fixedTimer = s.otg.fixedTimer ∧
    (lineEvent symErr pixels s).ml.asm = s.ml.asm ∧ (lineEvent symErr pixels s).ml.partialMsg = s.ml.partialMsg ∧
    (lineEvent symErr pixels s).ml.lastByte = s.ml.lastByte ∧ (lineEvent symErr pixels s).ml.slots = s.ml.slots ∧
    (lineEvent symErr pixels s).ml.overrun = s.ml.overrun ∧
    (lineEvent symErr pixels s).ml.enables = s.ml.enables ∧ (lineEvent symErr pixels s).pc.limits = s.pc.limits ∧
    (lineEvent symErr pixels s).pc.propState = s.pc.propState ∧
    (lineEvent symErr pixels s).pc.proposal = s.pc.proposal ∧
    (lineEvent symErr pixels s).pc.faulted = s.pc.faulted ∧ (lineEvent symErr pixels s).cs.scan = s.cs.scan ∧
    (lineEvent symErr pixels s).sp.signal = s.sp.signal ∧
    (lineEvent symErr pixels s).sp.frameCounter = s.sp.frameCounter := by
  simp only [lineEvent]
  repeat' split
  all_goals simp

/-- What `completeSlot` leaves unchanged. -/
@[simp] theorem completeSlot_frame (k : Slot) (s : State) :
    (completeSlot k s).timeBase = s.timeBase ∧ (completeSlot k s).resetAsserted = s.resetAsserted ∧
    (completeSlot k s).sp = s.sp ∧ (completeSlot k s).pf = s.pf ∧ (completeSlot k s).pending = s.pending ∧
    (completeSlot k s).pool.store = s.pool.store ∧
    (completeSlot k s).hr.map FrameRec.frameNo = s.hr.map FrameRec.frameNo ∧
    (completeSlot k s).ps.detachTime = s.ps.detachTime ∧ (completeSlot k s).otg.mode = s.otg.mode ∧
    (completeSlot k s).otg.pendingApp = s.otg.pendingApp ∧
    (completeSlot k s).otg.pendingReset = s.otg.pendingReset ∧
    (completeSlot k s).otg.keptFixed = s.otg.keptFixed ∧ (completeSlot k s).otg.fixedTimer = s.otg.fixedTimer ∧
    (completeSlot k s).ml.asm = s.ml.asm ∧ (completeSlot k s).ml.partialMsg = s.ml.partialMsg ∧
    (completeSlot k s).ml.lastByte = s.ml.lastByte ∧ (completeSlot k s).ml.slots = s.ml.slots ∧
    (completeSlot k s).ml.overrun = s.ml.overrun ∧ (completeSlot k s).ml.enables = s.ml.enables ∧
    (completeSlot k s).pc.limits = s.pc.limits ∧ (completeSlot k s).pc.propState = s.pc.propState ∧
    (completeSlot k s).pc.proposal = s.pc.proposal ∧ (completeSlot k s).pc.faulted = s.pc.faulted ∧
    (completeSlot k s).cs.scan = s.cs.scan := by
  simp only [completeSlot]
  repeat' split
  all_goals simp

/-- What `fillSample` leaves unchanged. -/
@[simp] theorem fillSample_frame (first : Option Time) (s : State) :
    (fillSample first s).timeBase = s.timeBase ∧ (fillSample first s).resetAsserted = s.resetAsserted ∧
    (fillSample first s).sp = s.sp ∧ (fillSample first s).pf = s.pf ∧ (fillSample first s).pending = s.pending ∧
    (fillSample first s).pool.store = s.pool.store ∧
    (fillSample first s).hr.map FrameRec.frameNo = s.hr.map FrameRec.frameNo ∧
    (fillSample first s).ps.detachTime = s.ps.detachTime ∧ (fillSample first s).otg.mode = s.otg.mode ∧
    (fillSample first s).otg.pendingApp = s.otg.pendingApp ∧
    (fillSample first s).otg.pendingReset = s.otg.pendingReset ∧
    (fillSample first s).otg.keptFixed = s.otg.keptFixed ∧
    (fillSample first s).otg.fixedTimer = s.otg.fixedTimer ∧ (fillSample first s).ml.asm = s.ml.asm ∧
    (fillSample first s).ml.partialMsg = s.ml.partialMsg ∧ (fillSample first s).ml.lastByte = s.ml.lastByte ∧
    (fillSample first s).ml.slots = s.ml.slots ∧ (fillSample first s).ml.overrun = s.ml.overrun ∧
    (fillSample first s).ml.enables = s.ml.enables ∧ (fillSample first s).pc.limits = s.pc.limits ∧
    (fillSample first s).pc.propState = s.pc.propState ∧ (fillSample first s).pc.proposal = s.pc.proposal ∧
    (fillSample first s).pc.faulted = s.pc.faulted ∧ (fillSample first s).cs.scan = s.cs.scan := by
  simp only [fillSample]
  repeat' split
  all_goals simp

/-- What `completeFrame` leaves unchanged. -/
@[simp] theorem completeFrame_frame (s : State) :
    (completeFrame s).timeBase = s.timeBase ∧ (completeFrame s).resetAsserted = s.resetAsserted ∧
    (completeFrame s).pf = s.pf ∧ (completeFrame s).pending = s.pending ∧
    (completeFrame s).pool.store = s.pool.store ∧
    (completeFrame s).hr.map FrameRec.frameNo = s.hr.map FrameRec.frameNo ∧
    (completeFrame s).otg.mode = s.otg.mode ∧ (completeFrame s).otg.pendingApp = s.otg.pendingApp ∧
    (completeFrame s).otg.pendingReset = s.otg.pendingReset ∧ (completeFrame s).otg.keptFixed = s.otg.keptFixed ∧
    (completeFrame s).otg.fixedTimer = s.otg.fixedTimer ∧ (completeFrame s).ml.asm = s.ml.asm ∧
    (completeFrame s).ml.partialMsg = s.ml.partialMsg ∧ (completeFrame s).ml.lastByte = s.ml.lastByte ∧
    (completeFrame s).ml.slots = s.ml.slots ∧ (completeFrame s).ml.overrun = s.ml.overrun ∧
    (completeFrame s).ml.enables = s.ml.enables ∧ (completeFrame s).pc.limits = s.pc.limits ∧
    (completeFrame s).pc.propState = s.pc.propState ∧ (completeFrame s).pc.proposal = s.pc.proposal ∧
    (completeFrame s).pc.faulted = s.pc.faulted ∧ (completeFrame s).cs.scan = s.cs.scan ∧
    (completeFrame s).sp.signal = s.sp.signal ∧ (completeFrame s).sp.frameCounter = s.sp.frameCounter ∧
    (completeFrame s).sp.lineCount = s.sp.lineCount ∧ (completeFrame s).sp.obsClean = s.sp.obsClean ∧
    (completeFrame s).sp.firstPixels = s.sp.firstPixels ∧ (completeFrame s).sp.closeBad = s.sp.closeBad := by
  simp only [completeFrame]
  repeat' split
  all_goals simp

/-- What `observedEnd` leaves unchanged. -/
@[simp] theorem observedEnd_frame (s : State) :
    (observedEnd s).timeBase = s.timeBase ∧ (observedEnd s).resetAsserted = s.resetAsserted ∧
    (observedEnd s).pool = s.pool ∧ (observedEnd s).cs = s.cs ∧ (observedEnd s).pc = s.pc ∧
    (observedEnd s).pf = s.pf ∧ (observedEnd s).hr = s.hr ∧ (observedEnd s).panel = s.panel ∧
    (observedEnd s).choices = s.choices ∧ (observedEnd s).pending = s.pending ∧
    (observedEnd s).sp.signal = s.sp.signal ∧ (observedEnd s).sp.frameCounter = s.sp.frameCounter ∧
    (observedEnd s).sp.lineCount = s.sp.lineCount ∧ (observedEnd s).sp.obsClean = s.sp.obsClean ∧
    (observedEnd s).sp.firstPixels = s.sp.firstPixels ∧ (observedEnd s).sp.prevRef = s.sp.prevRef ∧
    (observedEnd s).sp.closeBad = s.sp.closeBad ∧ (observedEnd s).otg.mode = s.otg.mode ∧
    (observedEnd s).otg.timing = s.otg.timing ∧ (observedEnd s).otg.tLast = s.otg.tLast ∧
    (observedEnd s).otg.tminTimer = s.otg.tminTimer ∧ (observedEnd s).otg.minPassed = s.otg.minPassed ∧
    (observedEnd s).otg.keptRepeat = s.otg.keptRepeat ∧ (observedEnd s).otg.fixedTimer = s.otg.fixedTimer ∧
    (observedEnd s).otg.keptFixed = s.otg.keptFixed ∧ (observedEnd s).otg.nextStrip = s.otg.nextStrip ∧
    (observedEnd s).otg.pendingApp = s.otg.pendingApp ∧ (observedEnd s).otg.pendingReset = s.otg.pendingReset ∧
    (observedEnd s).ml.asm = s.ml.asm ∧ (observedEnd s).ml.partialMsg = s.ml.partialMsg ∧
    (observedEnd s).ml.lastByte = s.ml.lastByte ∧ (observedEnd s).ml.slots = s.ml.slots ∧
    (observedEnd s).ml.overrun = s.ml.overrun ∧ (observedEnd s).ml.enables = s.ml.enables ∧
    (observedEnd s).pu.intervals = s.pu.intervals ∧ (observedEnd s).pu.fills = s.pu.fills ∧
    (observedEnd s).pu.ti = s.pu.ti ∧ (observedEnd s).pu.fi = s.pu.fi ∧ (observedEnd s).pu.q = s.pu.q ∧
    (observedEnd s).pu.lastQ = s.pu.lastQ ∧ (observedEnd s).pu.planActive = s.pu.planActive ∧
    (observedEnd s).pu.k = s.pu.k ∧ (observedEnd s).pu.tr = s.pu.tr ∧
    (observedEnd s).pu.admitted = s.pu.admitted ∧ (observedEnd s).pu.armed = s.pu.armed := by
  simp only [observedEnd]
  repeat' split
  all_goals simp

/-- What `frameEndEvent` leaves unchanged. -/
@[simp] theorem frameEndEvent_frame (s : State) :
    (frameEndEvent s).timeBase = s.timeBase ∧ (frameEndEvent s).resetAsserted = s.resetAsserted ∧
    (frameEndEvent s).pf = s.pf ∧ (frameEndEvent s).pending = s.pending ∧
    (frameEndEvent s).pool.store = s.pool.store ∧
    (frameEndEvent s).hr.map FrameRec.frameNo = s.hr.map FrameRec.frameNo ∧
    (frameEndEvent s).otg.mode = s.otg.mode ∧ (frameEndEvent s).otg.pendingApp = s.otg.pendingApp ∧
    (frameEndEvent s).otg.pendingReset = s.otg.pendingReset ∧ (frameEndEvent s).otg.keptFixed = s.otg.keptFixed ∧
    (frameEndEvent s).otg.fixedTimer = s.otg.fixedTimer ∧ (frameEndEvent s).ml.asm = s.ml.asm ∧
    (frameEndEvent s).ml.partialMsg = s.ml.partialMsg ∧ (frameEndEvent s).ml.lastByte = s.ml.lastByte ∧
    (frameEndEvent s).ml.slots = s.ml.slots ∧ (frameEndEvent s).ml.overrun = s.ml.overrun ∧
    (frameEndEvent s).ml.enables = s.ml.enables ∧ (frameEndEvent s).pc.limits = s.pc.limits ∧
    (frameEndEvent s).pc.propState = s.pc.propState ∧ (frameEndEvent s).pc.proposal = s.pc.proposal ∧
    (frameEndEvent s).pc.faulted = s.pc.faulted ∧ (frameEndEvent s).cs.scan = s.cs.scan ∧
    (frameEndEvent s).sp.signal = s.sp.signal ∧ (frameEndEvent s).sp.frameCounter = s.sp.frameCounter := by
  simp only [frameEndEvent]
  repeat' split
  all_goals simp

/-- What `closeByLoss` leaves unchanged. -/
@[simp] theorem closeByLoss_frame (s : State) :
    (closeByLoss s).timeBase = s.timeBase ∧ (closeByLoss s).resetAsserted = s.resetAsserted ∧
    (closeByLoss s).sp = s.sp ∧ (closeByLoss s).pu = s.pu ∧ (closeByLoss s).otg = s.otg ∧
    (closeByLoss s).ps = s.ps ∧ (closeByLoss s).cs = s.cs ∧ (closeByLoss s).pc = s.pc ∧
    (closeByLoss s).pf = s.pf ∧ (closeByLoss s).ml = s.ml ∧ (closeByLoss s).panel = s.panel ∧
    (closeByLoss s).choices = s.choices ∧ (closeByLoss s).pending = s.pending ∧
    (closeByLoss s).pool.store = s.pool.store ∧ (closeByLoss s).pool.q = s.pool.q ∧
    (closeByLoss s).hr.map FrameRec.frameNo = s.hr.map FrameRec.frameNo := by
  simp only [closeByLoss]
  repeat' split
  all_goals simp

/-- What `signalLostEvent` leaves unchanged. -/
@[simp] theorem signalLostEvent_frame (s : State) :
    (signalLostEvent s).timeBase = s.timeBase ∧ (signalLostEvent s).resetAsserted = s.resetAsserted ∧
    (signalLostEvent s).pf = s.pf ∧ (signalLostEvent s).pending = s.pending ∧
    (signalLostEvent s).pool.store = s.pool.store ∧
    (signalLostEvent s).hr.map FrameRec.frameNo = s.hr.map FrameRec.frameNo ∧
    (signalLostEvent s).otg.mode = s.otg.mode ∧ (signalLostEvent s).otg.pendingApp = s.otg.pendingApp ∧
    (signalLostEvent s).otg.pendingReset = s.otg.pendingReset ∧
    (signalLostEvent s).otg.keptFixed = s.otg.keptFixed ∧ (signalLostEvent s).otg.fixedTimer = s.otg.fixedTimer ∧
    (signalLostEvent s).ml.asm = s.ml.asm ∧ (signalLostEvent s).ml.partialMsg = s.ml.partialMsg ∧
    (signalLostEvent s).ml.lastByte = s.ml.lastByte ∧ (signalLostEvent s).ml.slots = s.ml.slots ∧
    (signalLostEvent s).ml.overrun = s.ml.overrun ∧ (signalLostEvent s).ml.enables = s.ml.enables ∧
    (signalLostEvent s).pc.limits = s.pc.limits ∧ (signalLostEvent s).pc.propState = s.pc.propState ∧
    (signalLostEvent s).pc.proposal = s.pc.proposal ∧ (signalLostEvent s).pc.faulted = s.pc.faulted ∧
    (signalLostEvent s).cs.scan = s.cs.scan ∧ (signalLostEvent s).sp.frameCounter = s.sp.frameCounter := by
  simp only [signalLostEvent]
  repeat' split
  all_goals simp

/-- What `restartCycle` leaves unchanged. -/
@[simp] theorem restartCycle_frame (s : State) :
    (restartCycle s).timeBase = s.timeBase ∧ (restartCycle s).resetAsserted = s.resetAsserted ∧
    (restartCycle s).pool = s.pool ∧ (restartCycle s).sp = s.sp ∧ (restartCycle s).ps = s.ps ∧
    (restartCycle s).cs = s.cs ∧ (restartCycle s).pc = s.pc ∧ (restartCycle s).pf = s.pf ∧
    (restartCycle s).hr = s.hr ∧ (restartCycle s).panel = s.panel ∧ (restartCycle s).choices = s.choices ∧
    (restartCycle s).pending = s.pending ∧ (restartCycle s).otg.pendingApp = s.otg.pendingApp ∧
    (restartCycle s).otg.pendingReset = s.otg.pendingReset ∧ (restartCycle s).otg.nextStrip = s.otg.nextStrip ∧
    (restartCycle s).pu.intervals = s.pu.intervals ∧ (restartCycle s).pu.fills = s.pu.fills ∧
    (restartCycle s).pu.ti = s.pu.ti ∧ (restartCycle s).pu.fi = s.pu.fi ∧ (restartCycle s).pu.q = s.pu.q ∧
    (restartCycle s).pu.lastQ = s.pu.lastQ ∧ (restartCycle s).pu.planActive = s.pu.planActive ∧
    (restartCycle s).pu.k = s.pu.k ∧ (restartCycle s).pu.tr = s.pu.tr ∧
    (restartCycle s).pu.admitted = s.pu.admitted ∧ (restartCycle s).pu.armed = s.pu.armed ∧
    (restartCycle s).ml.asm = s.ml.asm ∧ (restartCycle s).ml.partialMsg = s.ml.partialMsg ∧
    (restartCycle s).ml.lastByte = s.ml.lastByte ∧ (restartCycle s).ml.slots = s.ml.slots ∧
    (restartCycle s).ml.overrun = s.ml.overrun ∧ (restartCycle s).ml.enables = s.ml.enables := by
  simp only [restartCycle]
  repeat' split
  all_goals simp

/-- What `startOutput` leaves unchanged. -/
@[simp] theorem startOutput_frame (s : State) :
    (startOutput s).timeBase = s.timeBase ∧ (startOutput s).resetAsserted = s.resetAsserted ∧
    (startOutput s).sp = s.sp ∧ (startOutput s).pf = s.pf ∧ (startOutput s).pending = s.pending ∧
    (startOutput s).pool.store = s.pool.store ∧
    (startOutput s).hr.map FrameRec.frameNo = s.hr.map FrameRec.frameNo ∧
    (startOutput s).ps.detachTime = s.ps.detachTime ∧ (startOutput s).otg.pendingApp = s.otg.pendingApp ∧
    (startOutput s).otg.pendingReset = s.otg.pendingReset ∧ (startOutput s).otg.keptFixed = s.otg.keptFixed ∧
    (startOutput s).ml.asm = s.ml.asm ∧ (startOutput s).ml.partialMsg = s.ml.partialMsg ∧
    (startOutput s).ml.lastByte = s.ml.lastByte ∧ (startOutput s).ml.slots = s.ml.slots ∧
    (startOutput s).ml.overrun = s.ml.overrun ∧ (startOutput s).ml.enables = s.ml.enables ∧
    (startOutput s).pc.limits = s.pc.limits ∧ (startOutput s).pc.propState = s.pc.propState ∧
    (startOutput s).pc.proposal = s.pc.proposal ∧ (startOutput s).pc.faulted = s.pc.faulted ∧
    (startOutput s).cs.scan = s.cs.scan := by
  simp only [startOutput]
  repeat' split
  all_goals simp

/-- What `armSource` leaves unchanged. -/
@[simp] theorem armSource_frame (s : State) :
    (armSource s).timeBase = s.timeBase ∧ (armSource s).resetAsserted = s.resetAsserted ∧
    (armSource s).pf = s.pf ∧ (armSource s).pending = s.pending ∧ (armSource s).pool.store = s.pool.store ∧
    (armSource s).hr.map FrameRec.frameNo = s.hr.map FrameRec.frameNo ∧ (armSource s).otg.mode = s.otg.mode ∧
    (armSource s).otg.pendingApp = s.otg.pendingApp ∧ (armSource s).otg.pendingReset = s.otg.pendingReset ∧
    (armSource s).otg.keptFixed = s.otg.keptFixed ∧ (armSource s).otg.fixedTimer = s.otg.fixedTimer ∧
    (armSource s).ml.asm = s.ml.asm ∧ (armSource s).ml.partialMsg = s.ml.partialMsg ∧
    (armSource s).ml.lastByte = s.ml.lastByte ∧ (armSource s).ml.slots = s.ml.slots ∧
    (armSource s).ml.overrun = s.ml.overrun ∧ (armSource s).ml.enables = s.ml.enables ∧
    (armSource s).pc.limits = s.pc.limits ∧ (armSource s).pc.propState = s.pc.propState ∧
    (armSource s).pc.proposal = s.pc.proposal ∧ (armSource s).pc.faulted = s.pc.faulted ∧
    (armSource s).cs.scan = s.cs.scan ∧ (armSource s).sp.signal = s.sp.signal ∧
    (armSource s).sp.frameCounter = s.sp.frameCounter ∧ (armSource s).sp.lineCount = s.sp.lineCount ∧
    (armSource s).sp.stripErr = s.sp.stripErr ∧ (armSource s).sp.obsClean = s.sp.obsClean ∧
    (armSource s).sp.firstPixels = s.sp.firstPixels ∧ (armSource s).sp.closeBad = s.sp.closeBad := by
  simp only [armSource]
  repeat' split
  all_goals simp

/-- What `closeByGeometry` leaves unchanged. -/
@[simp] theorem closeByGeometry_frame (s : State) :
    (closeByGeometry s).timeBase = s.timeBase ∧ (closeByGeometry s).resetAsserted = s.resetAsserted ∧
    (closeByGeometry s).pool = s.pool ∧ (closeByGeometry s).sp = s.sp ∧ (closeByGeometry s).pu = s.pu ∧
    (closeByGeometry s).otg = s.otg ∧ (closeByGeometry s).ps = s.ps ∧ (closeByGeometry s).cs = s.cs ∧
    (closeByGeometry s).pc = s.pc ∧ (closeByGeometry s).pf = s.pf ∧ (closeByGeometry s).ml = s.ml ∧
    (closeByGeometry s).panel = s.panel ∧ (closeByGeometry s).choices = s.choices ∧
    (closeByGeometry s).pending = s.pending ∧
    (closeByGeometry s).hr.map FrameRec.frameNo = s.hr.map FrameRec.frameNo := by
  simp only [closeByGeometry]
  repeat' split
  all_goals simp

/-- What `passOver` leaves unchanged. -/
@[simp] theorem passOver_frame (s : State) :
    (passOver s).timeBase = s.timeBase ∧ (passOver s).resetAsserted = s.resetAsserted ∧
    (passOver s).pool = s.pool ∧ (passOver s).pu = s.pu ∧ (passOver s).otg = s.otg ∧ (passOver s).ps = s.ps ∧
    (passOver s).cs = s.cs ∧ (passOver s).pc = s.pc ∧ (passOver s).pf = s.pf ∧ (passOver s).hr = s.hr ∧
    (passOver s).ml = s.ml ∧ (passOver s).panel = s.panel ∧ (passOver s).choices = s.choices ∧
    (passOver s).pending = s.pending ∧ (passOver s).sp.state = s.sp.state ∧ (passOver s).sp.score = s.sp.score ∧
    (passOver s).sp.signal = s.sp.signal ∧ (passOver s).sp.frameCounter = s.sp.frameCounter ∧
    (passOver s).sp.lineCount = s.sp.lineCount ∧ (passOver s).sp.obsClean = s.sp.obsClean ∧
    (passOver s).sp.firstPixels = s.sp.firstPixels ∧ (passOver s).sp.closeBad = s.sp.closeBad := by
  simp [passOver]

/-- What `applyFrames` leaves unchanged. -/
@[simp] theorem applyFrames_frame (old : Option Profile) (geo : Bool) (s : State) :
    (applyFrames old geo s).timeBase = s.timeBase ∧ (applyFrames old geo s).resetAsserted = s.resetAsserted ∧
    (applyFrames old geo s).pf = s.pf ∧ (applyFrames old geo s).pending = s.pending ∧
    (applyFrames old geo s).pool.store = s.pool.store ∧
    (applyFrames old geo s).hr.map FrameRec.frameNo = s.hr.map FrameRec.frameNo ∧
    (applyFrames old geo s).otg.mode = s.otg.mode ∧ (applyFrames old geo s).otg.pendingApp = s.otg.pendingApp ∧
    (applyFrames old geo s).otg.pendingReset = s.otg.pendingReset ∧
    (applyFrames old geo s).otg.keptFixed = s.otg.keptFixed ∧
    (applyFrames old geo s).otg.fixedTimer = s.otg.fixedTimer ∧ (applyFrames old geo s).ml.asm = s.ml.asm ∧
    (applyFrames old geo s).ml.partialMsg = s.ml.partialMsg ∧
    (applyFrames old geo s).ml.lastByte = s.ml.lastByte ∧ (applyFrames old geo s).ml.slots = s.ml.slots ∧
    (applyFrames old geo s).ml.overrun = s.ml.overrun ∧ (applyFrames old geo s).ml.enables = s.ml.enables ∧
    (applyFrames old geo s).pc.limits = s.pc.limits ∧ (applyFrames old geo s).pc.propState = s.pc.propState ∧
    (applyFrames old geo s).pc.proposal = s.pc.proposal ∧ (applyFrames old geo s).pc.faulted = s.pc.faulted ∧
    (applyFrames old geo s).cs.scan = s.cs.scan ∧ (applyFrames old geo s).sp.signal = s.sp.signal ∧
    (applyFrames old geo s).sp.frameCounter = s.sp.frameCounter := by
  simp only [applyFrames]
  repeat' split
  all_goals simp

/-- What `applyPacing` leaves unchanged. -/
@[simp] theorem applyPacing_frame (geo win : Bool) (s : State) :
    (applyPacing geo win s).timeBase = s.timeBase ∧ (applyPacing geo win s).resetAsserted = s.resetAsserted ∧
    (applyPacing geo win s).sp = s.sp ∧ (applyPacing geo win s).otg = s.otg ∧ (applyPacing geo win s).cs = s.cs ∧
    (applyPacing geo win s).pc = s.pc ∧ (applyPacing geo win s).pf = s.pf ∧ (applyPacing geo win s).hr = s.hr ∧
    (applyPacing geo win s).ml = s.ml ∧ (applyPacing geo win s).panel = s.panel ∧
    (applyPacing geo win s).pending = s.pending ∧
    (applyPacing geo win s).pool.store = s.pool.store ∧ (applyPacing geo win s).pool.filling = s.pool.filling ∧
    (applyPacing geo win s).pool.ready = s.pool.ready ∧ (applyPacing geo win s).pool.held = s.pool.held ∧
    (applyPacing geo win s).pool.onScreen = s.pool.onScreen ∧ (applyPacing geo win s).pool.cands = s.pool.cands ∧
    (applyPacing geo win s).ps.detachTime = s.ps.detachTime ∧
    (applyPacing geo win s).ps.blankActive = s.ps.blankActive ∧
    (applyPacing geo win s).ps.lastKind = s.ps.lastKind ∧
    (applyPacing geo win s).ps.watchOpen = s.ps.watchOpen := by
  simp [applyPacing]

/-- What `applyProfile` leaves unchanged. -/
@[simp] theorem applyProfile_frame (s : State) :
    (applyProfile s).timeBase = s.timeBase ∧ (applyProfile s).resetAsserted = s.resetAsserted ∧
    (applyProfile s).pf = s.pf ∧ (applyProfile s).pending = s.pending ∧
    (applyProfile s).pool.store = s.pool.store ∧
    (applyProfile s).hr.map FrameRec.frameNo = s.hr.map FrameRec.frameNo ∧
    (applyProfile s).otg.pendingReset = s.otg.pendingReset ∧ (applyProfile s).ml.asm = s.ml.asm ∧
    (applyProfile s).ml.partialMsg = s.ml.partialMsg ∧ (applyProfile s).ml.lastByte = s.ml.lastByte ∧
    (applyProfile s).ml.slots = s.ml.slots ∧ (applyProfile s).ml.overrun = s.ml.overrun ∧
    (applyProfile s).ml.enables = s.ml.enables ∧ (applyProfile s).pc.limits = s.pc.limits ∧
    (applyProfile s).pc.faulted = s.pc.faulted ∧ (applyProfile s).cs.scan = s.cs.scan ∧
    (applyProfile s).sp.signal = s.sp.signal ∧ (applyProfile s).sp.frameCounter = s.sp.frameCounter := by
  simp only [applyProfile]
  split
  · simp
  · split
    all_goals simp

/-- What `resetSource` leaves unchanged. -/
@[simp] theorem resetSource_frame (s : State) :
    (resetSource s).timeBase = s.timeBase ∧ (resetSource s).resetAsserted = s.resetAsserted ∧
    (resetSource s).pf = s.pf ∧ (resetSource s).pending = s.pending ∧ (resetSource s).pool.store = s.pool.store ∧
    (resetSource s).hr.map FrameRec.frameNo = s.hr.map FrameRec.frameNo ∧ (resetSource s).otg.mode = s.otg.mode ∧
    (resetSource s).otg.pendingApp = s.otg.pendingApp ∧ (resetSource s).otg.pendingReset = s.otg.pendingReset ∧
    (resetSource s).otg.keptFixed = s.otg.keptFixed ∧ (resetSource s).otg.fixedTimer = s.otg.fixedTimer ∧
    (resetSource s).ml.asm = s.ml.asm ∧ (resetSource s).ml.partialMsg = s.ml.partialMsg ∧
    (resetSource s).ml.lastByte = s.ml.lastByte ∧ (resetSource s).ml.slots = s.ml.slots ∧
    (resetSource s).ml.overrun = s.ml.overrun ∧ (resetSource s).ml.enables = s.ml.enables ∧
    (resetSource s).pc.limits = s.pc.limits ∧ (resetSource s).pc.propState = s.pc.propState ∧
    (resetSource s).pc.proposal = s.pc.proposal ∧ (resetSource s).pc.faulted = s.pc.faulted ∧
    (resetSource s).cs.scan = s.cs.scan ∧ (resetSource s).sp.signal = s.sp.signal ∧
    (resetSource s).sp.frameCounter = s.sp.frameCounter ∧ (resetSource s).sp.lineCount = s.sp.lineCount ∧
    (resetSource s).sp.obsClean = s.sp.obsClean ∧ (resetSource s).sp.firstPixels = s.sp.firstPixels ∧
    (resetSource s).sp.closeBad = s.sp.closeBad := by
  simp only [resetSource]
  split
  · simp
  · split
    all_goals simp

/-- What `resetPoint` leaves unchanged. -/
@[simp] theorem resetPoint_frame (s : State) :
    (resetPoint s).timeBase = s.timeBase ∧ (resetPoint s).resetAsserted = s.resetAsserted ∧
    (resetPoint s).pf = s.pf ∧ (resetPoint s).pending = s.pending ∧ (resetPoint s).pool.store = s.pool.store ∧
    (resetPoint s).otg.pendingApp = s.otg.pendingApp ∧ (resetPoint s).pc.limits = s.pc.limits ∧
    (resetPoint s).pc.propState = s.pc.propState ∧ (resetPoint s).pc.proposal = s.pc.proposal ∧
    (resetPoint s).pc.faulted = s.pc.faulted ∧ (resetPoint s).cs.scan = s.cs.scan ∧
    (resetPoint s).sp.signal = s.sp.signal ∧ (resetPoint s).sp.frameCounter = s.sp.frameCounter ∧
    (resetPoint s).ml.asm = s.ml.asm ∧ (resetPoint s).ml.partialMsg = s.ml.partialMsg ∧
    (resetPoint s).ml.lastByte = s.ml.lastByte ∧ (resetPoint s).ml.slots = s.ml.slots ∧
    (resetPoint s).ml.overrun = s.ml.overrun ∧ (resetPoint s).ml.enables = s.ml.enables := by
  simp [resetPoint]

/-- What `acceptReset` leaves unchanged. -/
@[simp] theorem acceptReset_frame (s : State) :
    (acceptReset s).timeBase = s.timeBase ∧ (acceptReset s).resetAsserted = s.resetAsserted ∧
    (acceptReset s).pool = s.pool ∧ (acceptReset s).sp = s.sp ∧ (acceptReset s).pu = s.pu ∧
    (acceptReset s).ps = s.ps ∧ (acceptReset s).pf = s.pf ∧ (acceptReset s).hr = s.hr ∧
    (acceptReset s).panel = s.panel ∧ (acceptReset s).choices = s.choices ∧ (acceptReset s).pending = s.pending ∧
    (acceptReset s).otg.mode = s.otg.mode ∧ (acceptReset s).otg.timing = s.otg.timing ∧
    (acceptReset s).otg.lock = s.otg.lock ∧ (acceptReset s).otg.tLast = s.otg.tLast ∧
    (acceptReset s).otg.tminTimer = s.otg.tminTimer ∧ (acceptReset s).otg.minPassed = s.otg.minPassed ∧
    (acceptReset s).otg.repeatTimer = s.otg.repeatTimer ∧ (acceptReset s).otg.keptRepeat = s.otg.keptRepeat ∧
    (acceptReset s).otg.planCount = s.otg.planCount ∧ (acceptReset s).otg.fixedTimer = s.otg.fixedTimer ∧
    (acceptReset s).otg.keptFixed = s.otg.keptFixed ∧ (acceptReset s).otg.nextStrip = s.otg.nextStrip ∧
    (acceptReset s).otg.pendingReset = s.otg.pendingReset ∧ (acceptReset s).cs.active = s.cs.active ∧
    (acceptReset s).cs.shadow = s.cs.shadow ∧ (acceptReset s).cs.scan = s.cs.scan ∧
    (acceptReset s).pc.limits = s.pc.limits ∧ (acceptReset s).pc.active = s.pc.active ∧
    (acceptReset s).pc.faulted = s.pc.faulted ∧ (acceptReset s).pc.tune = s.pc.tune ∧
    (acceptReset s).ml.asm = s.ml.asm ∧ (acceptReset s).ml.partialMsg = s.ml.partialMsg ∧
    (acceptReset s).ml.lastByte = s.ml.lastByte ∧ (acceptReset s).ml.slots = s.ml.slots ∧
    (acceptReset s).ml.overrun = s.ml.overrun ∧ (acceptReset s).ml.enables = s.ml.enables := by
  simp only [acceptReset]
  repeat' split
  all_goals simp

/-- What `leaveScan` leaves unchanged. -/
@[simp] theorem leaveScan_frame (s : State) :
    (leaveScan s).timeBase = s.timeBase ∧ (leaveScan s).resetAsserted = s.resetAsserted ∧
    (leaveScan s).sp = s.sp ∧ (leaveScan s).pf = s.pf ∧ (leaveScan s).pending = s.pending ∧
    (leaveScan s).pool.store = s.pool.store ∧ (leaveScan s).hr.map FrameRec.frameNo = s.hr.map FrameRec.frameNo ∧
    (leaveScan s).ps.detachTime = s.ps.detachTime ∧ (leaveScan s).otg.mode = s.otg.mode ∧
    (leaveScan s).otg.pendingApp = s.otg.pendingApp ∧ (leaveScan s).otg.pendingReset = s.otg.pendingReset ∧
    (leaveScan s).ml.asm = s.ml.asm ∧ (leaveScan s).ml.partialMsg = s.ml.partialMsg ∧
    (leaveScan s).ml.lastByte = s.ml.lastByte ∧ (leaveScan s).ml.slots = s.ml.slots ∧
    (leaveScan s).ml.overrun = s.ml.overrun ∧ (leaveScan s).ml.enables = s.ml.enables ∧
    (leaveScan s).pc.limits = s.pc.limits ∧ (leaveScan s).pc.propState = s.pc.propState ∧
    (leaveScan s).pc.proposal = s.pc.proposal ∧ (leaveScan s).pc.faulted = s.pc.faulted ∧
    (leaveScan s).cs.scan = s.cs.scan := by
  simp only [leaveScan]
  repeat' split
  all_goals simp

/-- What `endScan` leaves unchanged. -/
@[simp] theorem endScan_frame (s : State) :
    (endScan s).timeBase = s.timeBase ∧ (endScan s).resetAsserted = s.resetAsserted ∧ (endScan s).pf = s.pf ∧
    (endScan s).pending = s.pending ∧ (endScan s).pool.store = s.pool.store ∧ (endScan s).ml.asm = s.ml.asm ∧
    (endScan s).ml.partialMsg = s.ml.partialMsg ∧ (endScan s).ml.lastByte = s.ml.lastByte ∧
    (endScan s).ml.slots = s.ml.slots ∧ (endScan s).ml.overrun = s.ml.overrun ∧
    (endScan s).ml.enables = s.ml.enables ∧ (endScan s).pc.limits = s.pc.limits ∧
    (endScan s).pc.faulted = s.pc.faulted ∧ (endScan s).cs.scan = s.cs.scan ∧
    (endScan s).sp.signal = s.sp.signal ∧ (endScan s).sp.frameCounter = s.sp.frameCounter := by
  simp only [endScan]
  repeat' split
  all_goals simp

end Sys2Proof.Machine
end

