-- ==== Sys2Proof/Laws/CommandFrames.lean ====
section
/-! SUPPORT. What each outcome of a command can be, and for each command's effect, once, what it leaves unchanged. -/

namespace Sys2Proof.Machine

/-- An event of the outside world has no effect while RESET_N holds the part, and its own effect otherwise. -/
theorem whileRunning_eq (f : State → Result) (s : State) :
    whileRunning f s = if s.resetAsserted then .next s else f s := rfl

/-- A timed or granted event that is due has its effect, and the link settles. -/
theorem whenDue_of_due {due : State → Bool} {f : State → State} {s : State} (hr : s.resetAsserted = false)
    (hd : due s = true) : whenDue due f s = .next (settle (f s)) := by
  simp [whenDue, hr, hd]

/-- A timed or granted event that is not due has no effect. -/
theorem whenDue_of_not_due {due : State → Bool} {f : State → State} {s : State} (hd : due s = false) :
    whenDue due f s = .next s := by
  simp [whenDue, hd]

/-- The only next states of a timed or granted event: the state it found, or its effect with the link settled. -/
theorem whenDue_cases {due : State → Bool} {f : State → State} {s t : State} (h : whenDue due f s = .next t) :
    t = s ∨ (s.resetAsserted = false ∧ due s = true ∧ t = settle (f s)) := by
  simp only [whenDue] at h
  cases hr : s.resetAsserted <;> cases hd : due s <;> simp [hr, hd] at h <;> simp [h]

/-- A granted request is the oldest in the slots. -/
theorem granted_head {s : State} {r : Request} (h : s.granted = some r) : s.ml.slots.head? = some r := by
  simp only [State.granted] at h
  split at h
  · exact h
  · cases h

/-- The only next states of a request row: the state it found, or the request carried out with the link settled. -/
theorem execRequest_cases {type : Nat} {f : Request → State → State} {s t : State}
    (h : execRequest type f s = .next t) :
    t = s ∨ ∃ r, s.granted = some r ∧ r.reaches type = true ∧ t = settle (f r (takeRequest s)) := by
  obtain h | ⟨_, hd, h⟩ := whenDue_cases h
  · exact .inl h
  · cases hg : s.granted with
    | none => simp [State.executes, hg] at hd
    | some r =>
      have hs := granted_head hg
      cases hl : s.ml.slots with
      | nil => simp [hl] at hs
      | cons r' rest =>
        rw [hl] at hs
        cases hs
        exact .inr ⟨r, rfl, by simpa [State.executes, hg] using hd, by simpa [carryOut, hl] using h⟩

/-- A request row carries out the granted request of its type. -/
theorem execRequest_of_granted {type : Nat} {f : Request → State → State} {s : State} {r : Request}
    (hr : s.resetAsserted = false) (hg : s.granted = some r) (ht : r.reaches type = true) :
    execRequest type f s = .next (settle (f r (takeRequest s))) := by
  have hs := granted_head hg
  cases hl : s.ml.slots with
  | nil => simp [hl] at hs
  | cons r' rest =>
    rw [hl] at hs
    cases hs
    rw [execRequest, whenDue_of_due hr (by simpa [State.executes, hg] using ht)]
    simp [carryOut, hl]

/-- The sequence check: SEQUENCE, FAULTED, or the request's own rule (R133). -/
theorem sequenceCheck_cases (f : Request → State → State) (r : Request) (s : State) :
    sequenceCheck f r s = answer r .sequence (s.setPc { s.pc with propState := .none, proposal := none, faulted := true }) ∨
    sequenceCheck f r s = answer r .faulted s ∨ sequenceCheck f r s = f r s := by
  simp only [sequenceCheck]
  repeat' split
  all_goals simp

/-- What `tminExpired` leaves unchanged. -/
@[simp] theorem tminExpired_frame (s : State) :
    (tminExpired s).timeBase = s.timeBase ∧ (tminExpired s).resetAsserted = s.resetAsserted ∧
    (tminExpired s).sp = s.sp ∧ (tminExpired s).pf = s.pf ∧ (tminExpired s).pending = s.pending ∧
    (tminExpired s).pool.store = s.pool.store ∧
    (tminExpired s).hr.map FrameRec.frameNo = s.hr.map FrameRec.frameNo ∧
    (tminExpired s).ps.detachTime = s.ps.detachTime ∧ (tminExpired s).otg.mode = s.otg.mode ∧
    (tminExpired s).otg.pendingApp = s.otg.pendingApp ∧ (tminExpired s).otg.pendingReset = s.otg.pendingReset ∧
    (tminExpired s).ml.asm = s.ml.asm ∧ (tminExpired s).ml.partialMsg = s.ml.partialMsg ∧
    (tminExpired s).ml.lastByte = s.ml.lastByte ∧ (tminExpired s).ml.slots = s.ml.slots ∧
    (tminExpired s).ml.overrun = s.ml.overrun ∧ (tminExpired s).ml.enables = s.ml.enables ∧
    (tminExpired s).pc.limits = s.pc.limits ∧ (tminExpired s).pc.propState = s.pc.propState ∧
    (tminExpired s).pc.proposal = s.pc.proposal ∧ (tminExpired s).pc.faulted = s.pc.faulted ∧
    (tminExpired s).cs.scan = s.cs.scan := by
  simp only [tminExpired]
  repeat' split
  all_goals simp

/-- What `repeatExpired` leaves unchanged. -/
@[simp] theorem repeatExpired_frame (s : State) :
    (repeatExpired s).timeBase = s.timeBase ∧ (repeatExpired s).resetAsserted = s.resetAsserted ∧
    (repeatExpired s).sp = s.sp ∧ (repeatExpired s).pf = s.pf ∧ (repeatExpired s).pending = s.pending ∧
    (repeatExpired s).pool.store = s.pool.store ∧
    (repeatExpired s).hr.map FrameRec.frameNo = s.hr.map FrameRec.frameNo ∧
    (repeatExpired s).ps.detachTime = s.ps.detachTime ∧ (repeatExpired s).otg.mode = s.otg.mode ∧
    (repeatExpired s).otg.pendingApp = s.otg.pendingApp ∧
    (repeatExpired s).otg.pendingReset = s.otg.pendingReset ∧ (repeatExpired s).ml.asm = s.ml.asm ∧
    (repeatExpired s).ml.partialMsg = s.ml.partialMsg ∧ (repeatExpired s).ml.lastByte = s.ml.lastByte ∧
    (repeatExpired s).ml.slots = s.ml.slots ∧ (repeatExpired s).ml.overrun = s.ml.overrun ∧
    (repeatExpired s).ml.enables = s.ml.enables ∧ (repeatExpired s).pc.limits = s.pc.limits ∧
    (repeatExpired s).pc.propState = s.pc.propState ∧ (repeatExpired s).pc.proposal = s.pc.proposal ∧
    (repeatExpired s).pc.faulted = s.pc.faulted ∧ (repeatExpired s).cs.scan = s.cs.scan := by
  simp only [repeatExpired]
  repeat' split
  all_goals simp

/-- What `fixedExpired` leaves unchanged. -/
@[simp] theorem fixedExpired_frame (s : State) :
    (fixedExpired s).timeBase = s.timeBase ∧ (fixedExpired s).resetAsserted = s.resetAsserted ∧
    (fixedExpired s).sp = s.sp ∧ (fixedExpired s).pf = s.pf ∧ (fixedExpired s).pending = s.pending ∧
    (fixedExpired s).pool.store = s.pool.store ∧
    (fixedExpired s).hr.map FrameRec.frameNo = s.hr.map FrameRec.frameNo ∧
    (fixedExpired s).ps.detachTime = s.ps.detachTime ∧ (fixedExpired s).otg.mode = s.otg.mode ∧
    (fixedExpired s).otg.pendingApp = s.otg.pendingApp ∧ (fixedExpired s).otg.pendingReset = s.otg.pendingReset ∧
    (fixedExpired s).ml.asm = s.ml.asm ∧ (fixedExpired s).ml.partialMsg = s.ml.partialMsg ∧
    (fixedExpired s).ml.lastByte = s.ml.lastByte ∧ (fixedExpired s).ml.slots = s.ml.slots ∧
    (fixedExpired s).ml.overrun = s.ml.overrun ∧ (fixedExpired s).ml.enables = s.ml.enables ∧
    (fixedExpired s).pc.limits = s.pc.limits ∧ (fixedExpired s).pc.propState = s.pc.propState ∧
    (fixedExpired s).pc.proposal = s.pc.proposal ∧ (fixedExpired s).pc.faulted = s.pc.faulted ∧
    (fixedExpired s).cs.scan = s.cs.scan := by
  simp only [fixedExpired]
  repeat' split
  all_goals simp

/-- What `setAssembler` leaves unchanged. -/
@[simp] theorem setAssembler_frame (a : AsmState) (bytes : List Byte) (s : State) :
    (setAssembler a bytes s).timeBase = s.timeBase ∧ (setAssembler a bytes s).resetAsserted = s.resetAsserted ∧
    (setAssembler a bytes s).pool = s.pool ∧ (setAssembler a bytes s).sp = s.sp ∧
    (setAssembler a bytes s).pu = s.pu ∧ (setAssembler a bytes s).otg = s.otg ∧
    (setAssembler a bytes s).ps = s.ps ∧ (setAssembler a bytes s).cs = s.cs ∧
    (setAssembler a bytes s).pc = s.pc ∧ (setAssembler a bytes s).pf = s.pf ∧
    (setAssembler a bytes s).hr = s.hr ∧ (setAssembler a bytes s).panel = s.panel ∧
    (setAssembler a bytes s).choices = s.choices ∧ (setAssembler a bytes s).pending = s.pending ∧
    (setAssembler a bytes s).ml.replies = s.ml.replies ∧ (setAssembler a bytes s).ml.tx = s.ml.tx ∧
    (setAssembler a bytes s).ml.notices = s.ml.notices ∧
    (setAssembler a bytes s).ml.defProfile = s.ml.defProfile ∧ (setAssembler a bytes s).ml.defLut = s.ml.defLut ∧
    (setAssembler a bytes s).ml.defReset = s.ml.defReset ∧
    (setAssembler a bytes s).ml.doneOrder = s.ml.doneOrder ∧ (setAssembler a bytes s).ml.enables = s.ml.enables ∧
    (setAssembler a bytes s).ml.slots = s.ml.slots ∧ (setAssembler a bytes s).ml.overrun = s.ml.overrun := by
  simp [setAssembler]

/-- What `headerByte` leaves unchanged. -/
@[simp] theorem headerByte_frame (b : Byte) (s : State) :
    (headerByte b s).timeBase = s.timeBase ∧ (headerByte b s).resetAsserted = s.resetAsserted ∧
    (headerByte b s).pool = s.pool ∧ (headerByte b s).sp = s.sp ∧ (headerByte b s).pu = s.pu ∧
    (headerByte b s).otg = s.otg ∧ (headerByte b s).ps = s.ps ∧ (headerByte b s).cs = s.cs ∧
    (headerByte b s).pc = s.pc ∧ (headerByte b s).pf = s.pf ∧ (headerByte b s).hr = s.hr ∧
    (headerByte b s).panel = s.panel ∧ (headerByte b s).choices = s.choices ∧
    (headerByte b s).pending = s.pending ∧ (headerByte b s).ml.replies = s.ml.replies ∧
    (headerByte b s).ml.tx = s.ml.tx ∧ (headerByte b s).ml.notices = s.ml.notices ∧
    (headerByte b s).ml.defProfile = s.ml.defProfile ∧ (headerByte b s).ml.defLut = s.ml.defLut ∧
    (headerByte b s).ml.defReset = s.ml.defReset ∧ (headerByte b s).ml.doneOrder = s.ml.doneOrder ∧
    (headerByte b s).ml.enables = s.ml.enables := by
  simp only [headerByte]
  repeat' split
  all_goals simp

/-- What `payloadByte` leaves unchanged. -/
@[simp] theorem payloadByte_frame (b : Byte) (s : State) :
    (payloadByte b s).timeBase = s.timeBase ∧ (payloadByte b s).resetAsserted = s.resetAsserted ∧
    (payloadByte b s).pool = s.pool ∧ (payloadByte b s).sp = s.sp ∧ (payloadByte b s).pu = s.pu ∧
    (payloadByte b s).otg = s.otg ∧ (payloadByte b s).ps = s.ps ∧ (payloadByte b s).cs = s.cs ∧
    (payloadByte b s).pc = s.pc ∧ (payloadByte b s).pf = s.pf ∧ (payloadByte b s).hr = s.hr ∧
    (payloadByte b s).panel = s.panel ∧ (payloadByte b s).choices = s.choices ∧
    (payloadByte b s).pending = s.pending ∧ (payloadByte b s).ml.replies = s.ml.replies ∧
    (payloadByte b s).ml.tx = s.ml.tx ∧ (payloadByte b s).ml.notices = s.ml.notices ∧
    (payloadByte b s).ml.defProfile = s.ml.defProfile ∧ (payloadByte b s).ml.defLut = s.ml.defLut ∧
    (payloadByte b s).ml.defReset = s.ml.defReset ∧ (payloadByte b s).ml.doneOrder = s.ml.doneOrder ∧
    (payloadByte b s).ml.enables = s.ml.enables := by
  simp only [payloadByte]
  repeat' split
  all_goals simp

/-- What `takeByte` leaves unchanged. -/
@[simp] theorem takeByte_frame (b : Byte) (s : State) :
    (takeByte b s).timeBase = s.timeBase ∧ (takeByte b s).resetAsserted = s.resetAsserted ∧
    (takeByte b s).pool = s.pool ∧ (takeByte b s).sp = s.sp ∧ (takeByte b s).pu = s.pu ∧
    (takeByte b s).otg = s.otg ∧ (takeByte b s).ps = s.ps ∧ (takeByte b s).cs = s.cs ∧ (takeByte b s).pc = s.pc ∧
    (takeByte b s).pf = s.pf ∧ (takeByte b s).hr = s.hr ∧ (takeByte b s).panel = s.panel ∧
    (takeByte b s).choices = s.choices ∧ (takeByte b s).pending = s.pending ∧
    (takeByte b s).ml.replies = s.ml.replies ∧ (takeByte b s).ml.tx = s.ml.tx ∧
    (takeByte b s).ml.notices = s.ml.notices ∧ (takeByte b s).ml.defProfile = s.ml.defProfile ∧
    (takeByte b s).ml.defLut = s.ml.defLut ∧ (takeByte b s).ml.defReset = s.ml.defReset ∧
    (takeByte b s).ml.doneOrder = s.ml.doneOrder ∧ (takeByte b s).ml.enables = s.ml.enables := by
  simp only [takeByte]
  repeat' split
  all_goals simp

/-- What `resetAssembler` leaves unchanged. -/
@[simp] theorem resetAssembler_frame (s : State) :
    (resetAssembler s).timeBase = s.timeBase ∧ (resetAssembler s).resetAsserted = s.resetAsserted ∧
    (resetAssembler s).pool = s.pool ∧ (resetAssembler s).sp = s.sp ∧ (resetAssembler s).pu = s.pu ∧
    (resetAssembler s).otg = s.otg ∧ (resetAssembler s).ps = s.ps ∧ (resetAssembler s).cs = s.cs ∧
    (resetAssembler s).pc = s.pc ∧ (resetAssembler s).pf = s.pf ∧ (resetAssembler s).hr = s.hr ∧
    (resetAssembler s).panel = s.panel ∧ (resetAssembler s).choices = s.choices ∧
    (resetAssembler s).pending = s.pending ∧ (resetAssembler s).ml.replies = s.ml.replies ∧
    (resetAssembler s).ml.tx = s.ml.tx ∧ (resetAssembler s).ml.notices = s.ml.notices ∧
    (resetAssembler s).ml.defProfile = s.ml.defProfile ∧ (resetAssembler s).ml.defLut = s.ml.defLut ∧
    (resetAssembler s).ml.defReset = s.ml.defReset ∧ (resetAssembler s).ml.doneOrder = s.ml.doneOrder ∧
    (resetAssembler s).ml.enables = s.ml.enables ∧ (resetAssembler s).ml.slots = s.ml.slots ∧
    (resetAssembler s).ml.overrun = s.ml.overrun ∧ (resetAssembler s).ml.lastByte = s.ml.lastByte := by
  simp [resetAssembler]

/-- What `gapEnds` leaves unchanged. -/
@[simp] theorem gapEnds_frame (s : State) :
    (gapEnds s).timeBase = s.timeBase ∧ (gapEnds s).resetAsserted = s.resetAsserted ∧ (gapEnds s).pool = s.pool ∧
    (gapEnds s).sp = s.sp ∧ (gapEnds s).pu = s.pu ∧ (gapEnds s).otg = s.otg ∧ (gapEnds s).ps = s.ps ∧
    (gapEnds s).cs = s.cs ∧ (gapEnds s).pc = s.pc ∧ (gapEnds s).pf = s.pf ∧ (gapEnds s).hr = s.hr ∧
    (gapEnds s).panel = s.panel ∧ (gapEnds s).choices = s.choices ∧ (gapEnds s).pending = s.pending ∧
    (gapEnds s).ml.replies = s.ml.replies ∧ (gapEnds s).ml.tx = s.ml.tx ∧ (gapEnds s).ml.notices = s.ml.notices ∧
    (gapEnds s).ml.defProfile = s.ml.defProfile ∧ (gapEnds s).ml.defLut = s.ml.defLut ∧
    (gapEnds s).ml.defReset = s.ml.defReset ∧ (gapEnds s).ml.doneOrder = s.ml.doneOrder ∧
    (gapEnds s).ml.enables = s.ml.enables := by
  simp only [gapEnds]
  repeat' split
  all_goals simp

/-- What `gapFirst` leaves unchanged. -/
@[simp] theorem gapFirst_frame (s : State) :
    (gapFirst s).timeBase = s.timeBase ∧ (gapFirst s).resetAsserted = s.resetAsserted ∧
    (gapFirst s).pool = s.pool ∧ (gapFirst s).sp = s.sp ∧ (gapFirst s).pu = s.pu ∧ (gapFirst s).otg = s.otg ∧
    (gapFirst s).ps = s.ps ∧ (gapFirst s).cs = s.cs ∧ (gapFirst s).pc = s.pc ∧ (gapFirst s).pf = s.pf ∧
    (gapFirst s).hr = s.hr ∧ (gapFirst s).panel = s.panel ∧ (gapFirst s).choices = s.choices ∧
    (gapFirst s).pending = s.pending ∧ (gapFirst s).ml.replies = s.ml.replies ∧ (gapFirst s).ml.tx = s.ml.tx ∧
    (gapFirst s).ml.notices = s.ml.notices ∧ (gapFirst s).ml.defProfile = s.ml.defProfile ∧
    (gapFirst s).ml.defLut = s.ml.defLut ∧ (gapFirst s).ml.defReset = s.ml.defReset ∧
    (gapFirst s).ml.doneOrder = s.ml.doneOrder ∧ (gapFirst s).ml.enables = s.ml.enables := by
  simp only [gapFirst]
  repeat' split
  all_goals simp

/-- What `overrunReplies` leaves unchanged. -/
@[simp] theorem overrunReplies_frame (s : State) :
    (overrunReplies s).timeBase = s.timeBase ∧ (overrunReplies s).resetAsserted = s.resetAsserted ∧
    (overrunReplies s).pool = s.pool ∧ (overrunReplies s).sp = s.sp ∧ (overrunReplies s).pu = s.pu ∧
    (overrunReplies s).otg = s.otg ∧ (overrunReplies s).ps = s.ps ∧ (overrunReplies s).cs = s.cs ∧
    (overrunReplies s).pc = s.pc ∧ (overrunReplies s).pf = s.pf ∧ (overrunReplies s).hr = s.hr ∧
    (overrunReplies s).panel = s.panel ∧ (overrunReplies s).choices = s.choices ∧
    (overrunReplies s).pending = s.pending ∧ (overrunReplies s).ml.asm = s.ml.asm ∧
    (overrunReplies s).ml.partialMsg = s.ml.partialMsg ∧ (overrunReplies s).ml.lastByte = s.ml.lastByte ∧
    (overrunReplies s).ml.slots = s.ml.slots ∧ (overrunReplies s).ml.enables = s.ml.enables ∧
    (overrunReplies s).ml.tx = s.ml.tx ∧ (overrunReplies s).ml.notices = s.ml.notices ∧
    (overrunReplies s).ml.doneOrder = s.ml.doneOrder := by
  simp only [overrunReplies]
  repeat' split
  all_goals simp

/-- What `txIdle` leaves unchanged. -/
@[simp] theorem txIdle_frame (s : State) :
    (txIdle s).timeBase = s.timeBase ∧ (txIdle s).resetAsserted = s.resetAsserted ∧ (txIdle s).pool = s.pool ∧
    (txIdle s).sp = s.sp ∧ (txIdle s).pu = s.pu ∧ (txIdle s).otg = s.otg ∧ (txIdle s).ps = s.ps ∧
    (txIdle s).cs = s.cs ∧ (txIdle s).pc = s.pc ∧ (txIdle s).pf = s.pf ∧ (txIdle s).hr = s.hr ∧
    (txIdle s).panel = s.panel ∧ (txIdle s).choices = s.choices ∧ (txIdle s).pending = s.pending ∧
    (txIdle s).ml.asm = s.ml.asm ∧ (txIdle s).ml.partialMsg = s.ml.partialMsg ∧
    (txIdle s).ml.lastByte = s.ml.lastByte ∧ (txIdle s).ml.slots = s.ml.slots ∧
    (txIdle s).ml.overrun = s.ml.overrun ∧ (txIdle s).ml.enables = s.ml.enables ∧
    (txIdle s).ml.replies = s.ml.replies ∧ (txIdle s).ml.notices = s.ml.notices ∧
    (txIdle s).ml.doneOrder = s.ml.doneOrder := by
  simp [txIdle]

/-- What `setCapture` leaves unchanged. -/
@[simp] theorem setCapture_frame (i : Fin 4) (c : Option Capture) (s : State) :
    (setCapture i c s).timeBase = s.timeBase ∧ (setCapture i c s).resetAsserted = s.resetAsserted ∧
    (setCapture i c s).pool = s.pool ∧ (setCapture i c s).sp = s.sp ∧ (setCapture i c s).pu = s.pu ∧
    (setCapture i c s).otg = s.otg ∧ (setCapture i c s).ps = s.ps ∧ (setCapture i c s).cs = s.cs ∧
    (setCapture i c s).pc = s.pc ∧ (setCapture i c s).hr = s.hr ∧ (setCapture i c s).ml = s.ml ∧
    (setCapture i c s).panel = s.panel ∧ (setCapture i c s).choices = s.choices ∧
    (setCapture i c s).pending = s.pending ∧ (setCapture i c s).pf.entries = s.pf.entries := by
  simp [setCapture]

/-- What `capturePacket` leaves unchanged. -/
@[simp] theorem capturePacket_frame (i : Fin 4) (ptype version : Byte) (payload : List Byte) (s : State) :
    (capturePacket i ptype version payload s).timeBase = s.timeBase ∧
    (capturePacket i ptype version payload s).resetAsserted = s.resetAsserted ∧
    (capturePacket i ptype version payload s).pool = s.pool ∧
    (capturePacket i ptype version payload s).sp = s.sp ∧ (capturePacket i ptype version payload s).pu = s.pu ∧
    (capturePacket i ptype version payload s).otg = s.otg ∧ (capturePacket i ptype version payload s).ps = s.ps ∧
    (capturePacket i ptype version payload s).cs = s.cs ∧ (capturePacket i ptype version payload s).pc = s.pc ∧
    (capturePacket i ptype version payload s).hr = s.hr ∧
    (capturePacket i ptype version payload s).panel = s.panel ∧
    (capturePacket i ptype version payload s).choices = s.choices ∧
    (capturePacket i ptype version payload s).pending = s.pending ∧
    (capturePacket i ptype version payload s).pf.entries = s.pf.entries ∧
    (capturePacket i ptype version payload s).ml.asm = s.ml.asm ∧
    (capturePacket i ptype version payload s).ml.partialMsg = s.ml.partialMsg ∧
    (capturePacket i ptype version payload s).ml.lastByte = s.ml.lastByte ∧
    (capturePacket i ptype version payload s).ml.slots = s.ml.slots ∧
    (capturePacket i ptype version payload s).ml.overrun = s.ml.overrun ∧
    (capturePacket i ptype version payload s).ml.enables = s.ml.enables := by
  simp only [capturePacket]
  repeat' split
  all_goals simp

/-- What `packetEvent` leaves unchanged. -/
@[simp] theorem packetEvent_frame (ptype version : Byte) (payload : List Byte) (s : State) :
    (packetEvent ptype version payload s).timeBase = s.timeBase ∧
    (packetEvent ptype version payload s).resetAsserted = s.resetAsserted ∧
    (packetEvent ptype version payload s).pool = s.pool ∧ (packetEvent ptype version payload s).sp = s.sp ∧
    (packetEvent ptype version payload s).pu = s.pu ∧ (packetEvent ptype version payload s).otg = s.otg ∧
    (packetEvent ptype version payload s).ps = s.ps ∧ (packetEvent ptype version payload s).cs = s.cs ∧
    (packetEvent ptype version payload s).pc = s.pc ∧ (packetEvent ptype version payload s).hr = s.hr ∧
    (packetEvent ptype version payload s).panel = s.panel ∧
    (packetEvent ptype version payload s).choices = s.choices ∧
    (packetEvent ptype version payload s).pending = s.pending ∧
    (packetEvent ptype version payload s).pf.entries = s.pf.entries ∧
    (packetEvent ptype version payload s).ml.asm = s.ml.asm ∧
    (packetEvent ptype version payload s).ml.partialMsg = s.ml.partialMsg ∧
    (packetEvent ptype version payload s).ml.lastByte = s.ml.lastByte ∧
    (packetEvent ptype version payload s).ml.slots = s.ml.slots ∧
    (packetEvent ptype version payload s).ml.overrun = s.ml.overrun ∧
    (packetEvent ptype version payload s).ml.enables = s.ml.enables := by
  simp only [packetEvent]
  repeat' split
  all_goals simp

/-- What `refuseRequest` leaves unchanged. -/
@[simp] theorem refuseRequest_frame (r : Request) (s : State) :
    (refuseRequest r s).timeBase = s.timeBase ∧ (refuseRequest r s).resetAsserted = s.resetAsserted ∧
    (refuseRequest r s).pool = s.pool ∧ (refuseRequest r s).sp = s.sp ∧ (refuseRequest r s).pu = s.pu ∧
    (refuseRequest r s).otg = s.otg ∧ (refuseRequest r s).ps = s.ps ∧ (refuseRequest r s).cs = s.cs ∧
    (refuseRequest r s).pc = s.pc ∧ (refuseRequest r s).pf = s.pf ∧ (refuseRequest r s).hr = s.hr ∧
    (refuseRequest r s).panel = s.panel ∧ (refuseRequest r s).choices = s.choices ∧
    (refuseRequest r s).pending = s.pending ∧ (refuseRequest r s).ml.asm = s.ml.asm ∧
    (refuseRequest r s).ml.partialMsg = s.ml.partialMsg ∧ (refuseRequest r s).ml.lastByte = s.ml.lastByte ∧
    (refuseRequest r s).ml.slots = s.ml.slots ∧ (refuseRequest r s).ml.overrun = s.ml.overrun ∧
    (refuseRequest r s).ml.enables = s.ml.enables := by
  simp only [refuseRequest]
  repeat' split
  all_goals simp

/-- What `setNotices` leaves unchanged. -/
@[simp] theorem setNotices_frame (r : Request) (s : State) :
    (setNotices r s).timeBase = s.timeBase ∧ (setNotices r s).resetAsserted = s.resetAsserted ∧
    (setNotices r s).pool = s.pool ∧ (setNotices r s).sp = s.sp ∧ (setNotices r s).pu = s.pu ∧
    (setNotices r s).otg = s.otg ∧ (setNotices r s).ps = s.ps ∧ (setNotices r s).cs = s.cs ∧
    (setNotices r s).pc = s.pc ∧ (setNotices r s).pf = s.pf ∧ (setNotices r s).hr = s.hr ∧
    (setNotices r s).panel = s.panel ∧ (setNotices r s).choices = s.choices ∧
    (setNotices r s).pending = s.pending ∧ (setNotices r s).ml.asm = s.ml.asm ∧
    (setNotices r s).ml.partialMsg = s.ml.partialMsg ∧ (setNotices r s).ml.lastByte = s.ml.lastByte ∧
    (setNotices r s).ml.overrun = s.ml.overrun ∧ (setNotices r s).ml.slots = s.ml.slots := by
  simp only [setNotices]
  repeat' split
  all_goals simp

/-- What `setFilter` leaves unchanged. -/
@[simp] theorem setFilter_frame (r : Request) (s : State) :
    (setFilter r s).timeBase = s.timeBase ∧ (setFilter r s).resetAsserted = s.resetAsserted ∧
    (setFilter r s).pool = s.pool ∧ (setFilter r s).sp = s.sp ∧ (setFilter r s).pu = s.pu ∧
    (setFilter r s).otg = s.otg ∧ (setFilter r s).ps = s.ps ∧ (setFilter r s).cs = s.cs ∧
    (setFilter r s).pc = s.pc ∧ (setFilter r s).hr = s.hr ∧ (setFilter r s).panel = s.panel ∧
    (setFilter r s).choices = s.choices ∧ (setFilter r s).pending = s.pending ∧
    (setFilter r s).ml.asm = s.ml.asm ∧ (setFilter r s).ml.partialMsg = s.ml.partialMsg ∧
    (setFilter r s).ml.lastByte = s.ml.lastByte ∧ (setFilter r s).ml.slots = s.ml.slots ∧
    (setFilter r s).ml.overrun = s.ml.overrun ∧ (setFilter r s).ml.enables = s.ml.enables := by
  simp only [setFilter]
  repeat' split
  all_goals simp

/-- What `readCapture` leaves unchanged. -/
@[simp] theorem readCapture_frame (r : Request) (s : State) :
    (readCapture r s).timeBase = s.timeBase ∧ (readCapture r s).resetAsserted = s.resetAsserted ∧
    (readCapture r s).pool = s.pool ∧ (readCapture r s).sp = s.sp ∧ (readCapture r s).pu = s.pu ∧
    (readCapture r s).otg = s.otg ∧ (readCapture r s).ps = s.ps ∧ (readCapture r s).cs = s.cs ∧
    (readCapture r s).pc = s.pc ∧ (readCapture r s).hr = s.hr ∧ (readCapture r s).panel = s.panel ∧
    (readCapture r s).choices = s.choices ∧ (readCapture r s).pending = s.pending ∧
    (readCapture r s).pf.entries = s.pf.entries ∧ (readCapture r s).ml.asm = s.ml.asm ∧
    (readCapture r s).ml.partialMsg = s.ml.partialMsg ∧ (readCapture r s).ml.lastByte = s.ml.lastByte ∧
    (readCapture r s).ml.slots = s.ml.slots ∧ (readCapture r s).ml.overrun = s.ml.overrun ∧
    (readCapture r s).ml.enables = s.ml.enables := by
  simp only [readCapture]
  repeat' split
  all_goals simp

/-- What `readHistory` leaves unchanged. -/
@[simp] theorem readHistory_frame (r : Request) (s : State) :
    (readHistory r s).timeBase = s.timeBase ∧ (readHistory r s).resetAsserted = s.resetAsserted ∧
    (readHistory r s).pool = s.pool ∧ (readHistory r s).sp = s.sp ∧ (readHistory r s).pu = s.pu ∧
    (readHistory r s).otg = s.otg ∧ (readHistory r s).ps = s.ps ∧ (readHistory r s).cs = s.cs ∧
    (readHistory r s).pc = s.pc ∧ (readHistory r s).pf = s.pf ∧ (readHistory r s).hr = s.hr ∧
    (readHistory r s).panel = s.panel ∧ (readHistory r s).choices = s.choices ∧
    (readHistory r s).pending = s.pending ∧ (readHistory r s).ml.asm = s.ml.asm ∧
    (readHistory r s).ml.partialMsg = s.ml.partialMsg ∧ (readHistory r s).ml.lastByte = s.ml.lastByte ∧
    (readHistory r s).ml.slots = s.ml.slots ∧ (readHistory r s).ml.overrun = s.ml.overrun ∧
    (readHistory r s).ml.enables = s.ml.enables := by
  simp only [readHistory]
  all_goals simp

/-- What `reattachSource` leaves unchanged. -/
@[simp] theorem reattachSource_frame (r : Request) (s : State) :
    (reattachSource r s).timeBase = s.timeBase ∧ (reattachSource r s).resetAsserted = s.resetAsserted ∧
    (reattachSource r s).pool = s.pool ∧ (reattachSource r s).cs = s.cs ∧ (reattachSource r s).pc = s.pc ∧
    (reattachSource r s).pf = s.pf ∧ (reattachSource r s).hr = s.hr ∧ (reattachSource r s).panel = s.panel ∧
    (reattachSource r s).choices = s.choices ∧ (reattachSource r s).pending = s.pending ∧
    (reattachSource r s).sp.signal = s.sp.signal ∧ (reattachSource r s).sp.frameCounter = s.sp.frameCounter ∧
    (reattachSource r s).sp.prevRef = s.sp.prevRef ∧ (reattachSource r s).ps.lastKind = s.ps.lastKind ∧
    (reattachSource r s).ps.watchOpen = s.ps.watchOpen ∧ (reattachSource r s).ps.q = s.ps.q ∧
    (reattachSource r s).ml.asm = s.ml.asm ∧ (reattachSource r s).ml.partialMsg = s.ml.partialMsg ∧
    (reattachSource r s).ml.lastByte = s.ml.lastByte ∧ (reattachSource r s).ml.slots = s.ml.slots ∧
    (reattachSource r s).ml.overrun = s.ml.overrun ∧ (reattachSource r s).ml.enables = s.ml.enables := by
  simp only [reattachSource]
  repeat' split
  all_goals simp

/-- What `setPanelLimits` leaves unchanged. -/
@[simp] theorem setPanelLimits_frame (r : Request) (s : State) :
    (setPanelLimits r s).timeBase = s.timeBase ∧ (setPanelLimits r s).resetAsserted = s.resetAsserted ∧
    (setPanelLimits r s).pool = s.pool ∧ (setPanelLimits r s).sp = s.sp ∧ (setPanelLimits r s).pu = s.pu ∧
    (setPanelLimits r s).otg = s.otg ∧ (setPanelLimits r s).ps = s.ps ∧ (setPanelLimits r s).cs = s.cs ∧
    (setPanelLimits r s).pf = s.pf ∧ (setPanelLimits r s).hr = s.hr ∧ (setPanelLimits r s).panel = s.panel ∧
    (setPanelLimits r s).choices = s.choices ∧ (setPanelLimits r s).pending = s.pending ∧
    (setPanelLimits r s).pc.active = s.pc.active ∧ (setPanelLimits r s).pc.propState = s.pc.propState ∧
    (setPanelLimits r s).pc.proposal = s.pc.proposal ∧ (setPanelLimits r s).pc.faulted = s.pc.faulted ∧
    (setPanelLimits r s).pc.tune = s.pc.tune ∧ (setPanelLimits r s).ml.asm = s.ml.asm ∧
    (setPanelLimits r s).ml.partialMsg = s.ml.partialMsg ∧ (setPanelLimits r s).ml.lastByte = s.ml.lastByte ∧
    (setPanelLimits r s).ml.slots = s.ml.slots ∧ (setPanelLimits r s).ml.overrun = s.ml.overrun ∧
    (setPanelLimits r s).ml.enables = s.ml.enables := by
  simp only [setPanelLimits]
  repeat' split
  all_goals simp

/-- What `proposeProfile` leaves unchanged. -/
@[simp] theorem proposeProfile_frame (r : Request) (s : State) :
    (proposeProfile r s).timeBase = s.timeBase ∧ (proposeProfile r s).resetAsserted = s.resetAsserted ∧
    (proposeProfile r s).pool = s.pool ∧ (proposeProfile r s).sp = s.sp ∧ (proposeProfile r s).pu = s.pu ∧
    (proposeProfile r s).otg = s.otg ∧ (proposeProfile r s).ps = s.ps ∧ (proposeProfile r s).cs = s.cs ∧
    (proposeProfile r s).pf = s.pf ∧ (proposeProfile r s).hr = s.hr ∧ (proposeProfile r s).panel = s.panel ∧
    (proposeProfile r s).choices = s.choices ∧ (proposeProfile r s).pending = s.pending ∧
    (proposeProfile r s).pc.limits = s.pc.limits ∧ (proposeProfile r s).pc.active = s.pc.active ∧
    (proposeProfile r s).pc.faulted = s.pc.faulted ∧ (proposeProfile r s).pc.tune = s.pc.tune ∧
    (proposeProfile r s).ml.asm = s.ml.asm ∧ (proposeProfile r s).ml.partialMsg = s.ml.partialMsg ∧
    (proposeProfile r s).ml.lastByte = s.ml.lastByte ∧ (proposeProfile r s).ml.slots = s.ml.slots ∧
    (proposeProfile r s).ml.overrun = s.ml.overrun ∧ (proposeProfile r s).ml.enables = s.ml.enables := by
  simp only [proposeProfile]
  repeat' split
  all_goals simp

/-- What `confirmProfile` leaves unchanged. -/
@[simp] theorem confirmProfile_frame (r : Request) (s : State) :
    (confirmProfile r s).timeBase = s.timeBase ∧ (confirmProfile r s).resetAsserted = s.resetAsserted ∧
    (confirmProfile r s).pf = s.pf ∧ (confirmProfile r s).pending = s.pending ∧
    (confirmProfile r s).pool.store = s.pool.store ∧
    (confirmProfile r s).hr.map FrameRec.frameNo = s.hr.map FrameRec.frameNo ∧
    (confirmProfile r s).pc.limits = s.pc.limits ∧ (confirmProfile r s).pc.faulted = s.pc.faulted ∧
    (confirmProfile r s).cs.scan = s.cs.scan ∧ (confirmProfile r s).sp.signal = s.sp.signal ∧
    (confirmProfile r s).sp.frameCounter = s.sp.frameCounter ∧ (confirmProfile r s).ml.asm = s.ml.asm ∧
    (confirmProfile r s).ml.partialMsg = s.ml.partialMsg ∧ (confirmProfile r s).ml.lastByte = s.ml.lastByte ∧
    (confirmProfile r s).ml.slots = s.ml.slots ∧ (confirmProfile r s).ml.overrun = s.ml.overrun ∧
    (confirmProfile r s).ml.enables = s.ml.enables := by
  simp only [confirmProfile]
  repeat' split
  all_goals simp

/-- What `withdrawProfile` leaves unchanged. -/
@[simp] theorem withdrawProfile_frame (r : Request) (s : State) :
    (withdrawProfile r s).timeBase = s.timeBase ∧ (withdrawProfile r s).resetAsserted = s.resetAsserted ∧
    (withdrawProfile r s).pool = s.pool ∧ (withdrawProfile r s).sp = s.sp ∧ (withdrawProfile r s).pu = s.pu ∧
    (withdrawProfile r s).otg = s.otg ∧ (withdrawProfile r s).ps = s.ps ∧ (withdrawProfile r s).cs = s.cs ∧
    (withdrawProfile r s).pf = s.pf ∧ (withdrawProfile r s).hr = s.hr ∧ (withdrawProfile r s).panel = s.panel ∧
    (withdrawProfile r s).choices = s.choices ∧ (withdrawProfile r s).pending = s.pending ∧
    (withdrawProfile r s).pc.limits = s.pc.limits ∧ (withdrawProfile r s).pc.active = s.pc.active ∧
    (withdrawProfile r s).pc.faulted = s.pc.faulted ∧ (withdrawProfile r s).pc.tune = s.pc.tune ∧
    (withdrawProfile r s).ml.asm = s.ml.asm ∧ (withdrawProfile r s).ml.partialMsg = s.ml.partialMsg ∧
    (withdrawProfile r s).ml.lastByte = s.ml.lastByte ∧ (withdrawProfile r s).ml.slots = s.ml.slots ∧
    (withdrawProfile r s).ml.overrun = s.ml.overrun ∧ (withdrawProfile r s).ml.enables = s.ml.enables := by
  simp only [withdrawProfile]
  repeat' split
  all_goals simp

/-- What `clearFault` leaves unchanged. -/
@[simp] theorem clearFault_frame (r : Request) (s : State) :
    (clearFault r s).timeBase = s.timeBase ∧ (clearFault r s).resetAsserted = s.resetAsserted ∧
    (clearFault r s).pool = s.pool ∧ (clearFault r s).sp = s.sp ∧ (clearFault r s).pu = s.pu ∧
    (clearFault r s).otg = s.otg ∧ (clearFault r s).ps = s.ps ∧ (clearFault r s).cs = s.cs ∧
    (clearFault r s).pf = s.pf ∧ (clearFault r s).hr = s.hr ∧ (clearFault r s).panel = s.panel ∧
    (clearFault r s).choices = s.choices ∧ (clearFault r s).pending = s.pending ∧
    (clearFault r s).pc.limits = s.pc.limits ∧ (clearFault r s).pc.active = s.pc.active ∧
    (clearFault r s).pc.propState = s.pc.propState ∧ (clearFault r s).pc.proposal = s.pc.proposal ∧
    (clearFault r s).pc.tune = s.pc.tune ∧ (clearFault r s).ml.asm = s.ml.asm ∧
    (clearFault r s).ml.partialMsg = s.ml.partialMsg ∧ (clearFault r s).ml.lastByte = s.ml.lastByte ∧
    (clearFault r s).ml.slots = s.ml.slots ∧ (clearFault r s).ml.overrun = s.ml.overrun ∧
    (clearFault r s).ml.enables = s.ml.enables := by
  simp only [clearFault]
  all_goals simp

/-- What `tuneProfile` leaves unchanged. -/
@[simp] theorem tuneProfile_frame (r : Request) (s : State) :
    (tuneProfile r s).timeBase = s.timeBase ∧ (tuneProfile r s).resetAsserted = s.resetAsserted ∧
    (tuneProfile r s).pool = s.pool ∧ (tuneProfile r s).sp = s.sp ∧ (tuneProfile r s).pu = s.pu ∧
    (tuneProfile r s).otg = s.otg ∧ (tuneProfile r s).ps = s.ps ∧ (tuneProfile r s).cs = s.cs ∧
    (tuneProfile r s).pf = s.pf ∧ (tuneProfile r s).hr = s.hr ∧ (tuneProfile r s).panel = s.panel ∧
    (tuneProfile r s).choices = s.choices ∧ (tuneProfile r s).pending = s.pending ∧
    (tuneProfile r s).pc.limits = s.pc.limits ∧ (tuneProfile r s).pc.active = s.pc.active ∧
    (tuneProfile r s).pc.propState = s.pc.propState ∧ (tuneProfile r s).pc.proposal = s.pc.proposal ∧
    (tuneProfile r s).pc.faulted = s.pc.faulted ∧ (tuneProfile r s).ml.asm = s.ml.asm ∧
    (tuneProfile r s).ml.partialMsg = s.ml.partialMsg ∧ (tuneProfile r s).ml.lastByte = s.ml.lastByte ∧
    (tuneProfile r s).ml.slots = s.ml.slots ∧ (tuneProfile r s).ml.overrun = s.ml.overrun ∧
    (tuneProfile r s).ml.enables = s.ml.enables := by
  simp only [tuneProfile]
  repeat' split
  all_goals simp

/-- What `getProfile` leaves unchanged. -/
@[simp] theorem getProfile_frame (r : Request) (s : State) :
    (getProfile r s).timeBase = s.timeBase ∧ (getProfile r s).resetAsserted = s.resetAsserted ∧
    (getProfile r s).pool = s.pool ∧ (getProfile r s).sp = s.sp ∧ (getProfile r s).pu = s.pu ∧
    (getProfile r s).otg = s.otg ∧ (getProfile r s).ps = s.ps ∧ (getProfile r s).cs = s.cs ∧
    (getProfile r s).pc = s.pc ∧ (getProfile r s).pf = s.pf ∧ (getProfile r s).hr = s.hr ∧
    (getProfile r s).panel = s.panel ∧ (getProfile r s).choices = s.choices ∧
    (getProfile r s).pending = s.pending ∧ (getProfile r s).ml.asm = s.ml.asm ∧
    (getProfile r s).ml.partialMsg = s.ml.partialMsg ∧ (getProfile r s).ml.lastByte = s.ml.lastByte ∧
    (getProfile r s).ml.slots = s.ml.slots ∧ (getProfile r s).ml.overrun = s.ml.overrun ∧
    (getProfile r s).ml.enables = s.ml.enables := by
  simp only [getProfile]
  repeat' split
  all_goals simp

/-- What `pipelineReset` leaves unchanged. -/
@[simp] theorem pipelineReset_frame (r : Request) (s : State) :
    (pipelineReset r s).timeBase = s.timeBase ∧ (pipelineReset r s).resetAsserted = s.resetAsserted ∧
    (pipelineReset r s).pf = s.pf ∧ (pipelineReset r s).pending = s.pending ∧
    (pipelineReset r s).pool.store = s.pool.store ∧ (pipelineReset r s).pc.limits = s.pc.limits ∧
    (pipelineReset r s).pc.faulted = s.pc.faulted ∧ (pipelineReset r s).cs.scan = s.cs.scan ∧
    (pipelineReset r s).sp.signal = s.sp.signal ∧ (pipelineReset r s).sp.frameCounter = s.sp.frameCounter ∧
    (pipelineReset r s).ml.asm = s.ml.asm ∧ (pipelineReset r s).ml.partialMsg = s.ml.partialMsg ∧
    (pipelineReset r s).ml.lastByte = s.ml.lastByte ∧ (pipelineReset r s).ml.slots = s.ml.slots ∧
    (pipelineReset r s).ml.overrun = s.ml.overrun ∧ (pipelineReset r s).ml.enables = s.ml.enables := by
  simp only [pipelineReset]
  repeat' split
  all_goals simp

/-- What `lutWrite` leaves unchanged. -/
@[simp] theorem lutWrite_frame (r : Request) (s : State) :
    (lutWrite r s).timeBase = s.timeBase ∧ (lutWrite r s).resetAsserted = s.resetAsserted ∧
    (lutWrite r s).pool = s.pool ∧ (lutWrite r s).sp = s.sp ∧ (lutWrite r s).pu = s.pu ∧
    (lutWrite r s).otg = s.otg ∧ (lutWrite r s).ps = s.ps ∧ (lutWrite r s).pc = s.pc ∧ (lutWrite r s).pf = s.pf ∧
    (lutWrite r s).hr = s.hr ∧ (lutWrite r s).panel = s.panel ∧ (lutWrite r s).choices = s.choices ∧
    (lutWrite r s).pending = s.pending ∧ (lutWrite r s).cs.active = s.cs.active ∧
    (lutWrite r s).cs.shadowPending = s.cs.shadowPending ∧ (lutWrite r s).cs.scan = s.cs.scan ∧
    (lutWrite r s).ml.asm = s.ml.asm ∧ (lutWrite r s).ml.partialMsg = s.ml.partialMsg ∧
    (lutWrite r s).ml.lastByte = s.ml.lastByte ∧ (lutWrite r s).ml.slots = s.ml.slots ∧
    (lutWrite r s).ml.overrun = s.ml.overrun ∧ (lutWrite r s).ml.enables = s.ml.enables := by
  simp only [lutWrite]
  repeat' split
  all_goals simp

/-- What `lutCommit` leaves unchanged. -/
@[simp] theorem lutCommit_frame (r : Request) (s : State) :
    (lutCommit r s).timeBase = s.timeBase ∧ (lutCommit r s).resetAsserted = s.resetAsserted ∧
    (lutCommit r s).pool = s.pool ∧ (lutCommit r s).sp = s.sp ∧ (lutCommit r s).pu = s.pu ∧
    (lutCommit r s).otg = s.otg ∧ (lutCommit r s).ps = s.ps ∧ (lutCommit r s).pc = s.pc ∧
    (lutCommit r s).pf = s.pf ∧ (lutCommit r s).hr = s.hr ∧ (lutCommit r s).panel = s.panel ∧
    (lutCommit r s).choices = s.choices ∧ (lutCommit r s).pending = s.pending ∧
    (lutCommit r s).cs.scan = s.cs.scan ∧ (lutCommit r s).ml.asm = s.ml.asm ∧
    (lutCommit r s).ml.partialMsg = s.ml.partialMsg ∧ (lutCommit r s).ml.lastByte = s.ml.lastByte ∧
    (lutCommit r s).ml.slots = s.ml.slots ∧ (lutCommit r s).ml.overrun = s.ml.overrun ∧
    (lutCommit r s).ml.enables = s.ml.enables := by
  simp only [lutCommit, ColourStage.exchanged]
  repeat' split
  all_goals simp

/-- What `lutRead` leaves unchanged. -/
@[simp] theorem lutRead_frame (r : Request) (s : State) :
    (lutRead r s).timeBase = s.timeBase ∧ (lutRead r s).resetAsserted = s.resetAsserted ∧
    (lutRead r s).pool = s.pool ∧ (lutRead r s).sp = s.sp ∧ (lutRead r s).pu = s.pu ∧ (lutRead r s).otg = s.otg ∧
    (lutRead r s).ps = s.ps ∧ (lutRead r s).cs = s.cs ∧ (lutRead r s).pc = s.pc ∧ (lutRead r s).pf = s.pf ∧
    (lutRead r s).hr = s.hr ∧ (lutRead r s).panel = s.panel ∧ (lutRead r s).choices = s.choices ∧
    (lutRead r s).pending = s.pending ∧ (lutRead r s).ml.asm = s.ml.asm ∧
    (lutRead r s).ml.partialMsg = s.ml.partialMsg ∧ (lutRead r s).ml.lastByte = s.ml.lastByte ∧
    (lutRead r s).ml.slots = s.ml.slots ∧ (lutRead r s).ml.overrun = s.ml.overrun ∧
    (lutRead r s).ml.enables = s.ml.enables := by
  simp only [lutRead]
  repeat' split
  all_goals simp

end Sys2Proof.Machine
end

