-- ==== Sys2Proof/Laws/Filling.lean ====
section
/-! SUPPORT. No operation but the taking of a frame gives the pool a filling slot. -/

namespace Sys2Proof.Machine

/-- `freeSlot` makes no slot the filling slot. -/
@[simp] theorem freeSlot_filling_none (k : Slot) (fate : Fate) (s : State) (h : s.pool.filling = none) :
    (freeSlot k fate s).pool.filling = none := by
  simp [freeSlot, SlotPool.release, h, clearMarker]

/-- `freeSlots` makes no slot the filling slot. -/
@[simp] theorem freeSlots_filling_none (ks : List Slot) (fate : Fate) (s : State) (h : s.pool.filling = none) :
    (freeSlots ks fate s).pool.filling = none := by
  induction ks generalizing s with
  | nil => exact h
  | cons k ks ih =>
    have h' := ih (freeSlot k fate s) (freeSlot_filling_none k fate s h)
    simpa only [freeSlots, List.foldl_cons] using h'

/-- `abortFilling` makes no slot the filling slot. -/
@[simp] theorem abortFilling_filling_none (truncated : Bool) (s : State) (h : s.pool.filling = none) :
    (abortFilling truncated s).pool.filling = none := by
  simp only [abortFilling]
  repeat' split
  all_goals simp [h]

/-- `becomeReady` makes no slot the filling slot. -/
@[simp] theorem becomeReady_filling_none (k : Slot) (s : State) (h : s.pool.filling = none) :
    (becomeReady k s).pool.filling = none := by
  simp only [becomeReady]
  repeat' split
  all_goals simp [h]

/-- `chooseSlot` makes no slot the filling slot. -/
@[simp] theorem chooseSlot_filling_none (k : Slot) (s : State) (h : s.pool.filling = none) :
    (chooseSlot k s).pool.filling = none := by
  simp only [chooseSlot]
  all_goals simp [h]

/-- `makeHeld` makes no slot the filling slot. -/
@[simp] theorem makeHeld_filling_none (k : Slot) (s : State) (h : s.pool.filling = none) :
    (makeHeld k s).pool.filling = none := by
  simp only [makeHeld]
  repeat' split
  all_goals simp [h]

/-- `scanEndPool` makes no slot the filling slot. -/
@[simp] theorem scanEndPool_filling_none (s : State) (h : s.pool.filling = none) :
    (scanEndPool s).pool.filling = none := by
  simp only [scanEndPool]
  repeat' split
  all_goals simp [h]

/-- `leaveScreen` makes no slot the filling slot. -/
@[simp] theorem leaveScreen_filling_none (s : State) (h : s.pool.filling = none) :
    (leaveScreen s).pool.filling = none := by
  simp only [leaveScreen]
  repeat' split
  all_goals simp [h]

/-- `spliceSlot` makes no slot the filling slot. -/
@[simp] theorem spliceSlot_filling_none (n : Slot) (s : State) (h : s.pool.filling = none) :
    (spliceSlot n s).pool.filling = none := by
  simp only [spliceSlot]
  all_goals simp [h]

/-- `flushPool` makes no slot the filling slot. -/
@[simp] theorem flushPool_filling_none (s : State) (h : s.pool.filling = none) :
    (flushPool s).pool.filling = none := by
  simp only [flushPool]
  all_goals simp [h]

/-- `chooseRefresh` makes no slot the filling slot. -/
@[simp] theorem chooseRefresh_filling_none (s : State) (h : s.pool.filling = none) :
    (chooseRefresh s).pool.filling = none := by
  simp only [chooseRefresh]
  repeat' split
  all_goals simp [h]

/-- `makeSplice` makes no slot the filling slot. -/
@[simp] theorem makeSplice_filling_none (j : Nat) (n : Slot) (s : State) (h : s.pool.filling = none) :
    (makeSplice j n s).pool.filling = none := by
  simp only [makeSplice]
  repeat' split
  all_goals simp [h]

/-- `spliceCheck` makes no slot the filling slot. -/
@[simp] theorem spliceCheck_filling_none (j : Nat) (s : State) (h : s.pool.filling = none) :
    (spliceCheck j s).pool.filling = none := by
  simp only [spliceCheck]
  repeat' split
  all_goals simp [h]

/-- `checkInScan` makes no slot the filling slot. -/
@[simp] theorem checkInScan_filling_none (s : State) (h : s.pool.filling = none) :
    (checkInScan s).pool.filling = none := by
  simp [checkInScan, h]

/-- `eligibleInScan` makes no slot the filling slot. -/
@[simp] theorem eligibleInScan_filling_none (s : State) (h : s.pool.filling = none) :
    (eligibleInScan s).pool.filling = none := by
  simp [eligibleInScan, h]

/-- Judging the candidates keeps a property that each event and each mark keep. -/
theorem judgeAll_inv (P : State → Prop) (event : State → State) (hev : ∀ s, P s → P (event s))
    (hm : ∀ k s, P s → P (markEligible k s)) (s : State) (h : P s) : P (judgeAll event s) := by
  suffices g : ∀ (l : List Slot) (s : State), P s →
      P (l.foldl (fun s k => if s.judges k then event (markEligible k s) else s) s) from g s.pool.cands s h
  intro l
  induction l with
  | nil => exact fun s h => h
  | cons k l ih =>
    intro s h
    rw [List.foldl_cons]
    apply ih
    split
    · exact hev _ (hm k s h)
    · exact h

/-- A recomputation of Q makes no slot the filling slot. -/
@[simp] theorem recomputeQ_checkInScan_filling_none (s : State) (h : s.pool.filling = none) :
    (recomputeQ checkInScan s).pool.filling = none := by
  simp only [recomputeQ]
  split
  · simp [h]
  · exact judgeAll_inv (fun s => s.pool.filling = none) _ (fun s h => by simp [h]) (fun k s h => by simp [h]) _
      (by simp [h])

/-- `publishMargin` makes no slot the filling slot. -/
@[simp] theorem publishMargin_filling_none (changed : Bool) (s : State) (h : s.pool.filling = none) :
    (publishMargin changed s).pool.filling = none := by
  simp only [publishMargin]
  repeat' split
  all_goals simp [h]

/-- `mergeAndChoose` makes no slot the filling slot. -/
@[simp] theorem mergeAndChoose_filling_none (s : State) (h : s.pool.filling = none) :
    (mergeAndChoose s).pool.filling = none := by
  simp only [mergeAndChoose]
  repeat' split
  all_goals simp [h]

/-- `refreshBy` makes no slot the filling slot. -/
@[simp] theorem refreshBy_filling_none (expired planned : Bool) (s : State) (h : s.pool.filling = none) :
    (refreshBy expired planned s).pool.filling = none := by
  simp [refreshBy, h]

/-- `refreshStart` makes no slot the filling slot. -/
@[simp] theorem refreshStart_filling_none (planned : Bool) (s : State) (h : s.pool.filling = none) :
    (refreshStart planned s).pool.filling = none := by
  simp [refreshStart, h]

/-- `repeatExpiryOpen` makes no slot the filling slot. -/
@[simp] theorem repeatExpiryOpen_filling_none (s : State) (h : s.pool.filling = none) :
    (repeatExpiryOpen s).pool.filling = none := by
  simp only [repeatExpiryOpen]
  repeat' split
  all_goals simp [h]

/-- `enterBlankOpen` makes no slot the filling slot. -/
@[simp] theorem enterBlankOpen_filling_none (s : State) (h : s.pool.filling = none) :
    (enterBlankOpen s).pool.filling = none := by
  simp only [enterBlankOpen]
  repeat' split
  all_goals simp [h]

/-- `fixedRefresh` makes no slot the filling slot. -/
@[simp] theorem fixedRefresh_filling_none (s : State) (h : s.pool.filling = none) :
    (fixedRefresh s).pool.filling = none := by
  simp [fixedRefresh, h]

/-- `eligibilityEvent` makes no slot the filling slot. -/
@[simp] theorem eligibilityEvent_filling_none (s : State) (h : s.pool.filling = none) :
    (eligibilityEvent s).pool.filling = none := by
  simp only [eligibilityEvent]
  repeat' split
  all_goals simp [h]

/-- `readStrip` makes no slot the filling slot. -/
@[simp] theorem readStrip_filling_none (k : Nat) (s : State) (h : s.pool.filling = none) :
    (readStrip k s).pool.filling = none := by
  simp only [readStrip]
  repeat' split
  all_goals simp [h]

/-- A recomputation of Q makes no slot the filling slot. -/
@[simp] theorem recomputeQ_eligibilityEvent_filling_none (s : State) (h : s.pool.filling = none) :
    (recomputeQ eligibilityEvent s).pool.filling = none := by
  simp only [recomputeQ]
  split
  · simp [h]
  · exact judgeAll_inv (fun s => s.pool.filling = none) _ (fun s h => by simp [h]) (fun k s h => by simp [h]) _
      (by simp [h])

/-- `clearWindows` makes no slot the filling slot. -/
@[simp] theorem clearWindows_filling_none (s : State) (h : s.pool.filling = none) :
    (clearWindows s).pool.filling = none := by
  simp [clearWindows, fillsChanged, h]

/-- `enterDetached` makes no slot the filling slot. -/
@[simp] theorem enterDetached_filling_none (score : Nat) (s : State) (h : s.pool.filling = none) :
    (enterDetached score s).pool.filling = none := by
  simp [enterDetached, h]

/-- `changeScore` makes no slot the filling slot. -/
@[simp] theorem changeScore_filling_none (f : Nat → Nat) (s : State) (h : s.pool.filling = none) :
    (changeScore f s).pool.filling = none := by
  simp only [changeScore]
  repeat' split
  all_goals simp [h]

/-- `leaveScan` makes no slot the filling slot. -/
@[simp] theorem leaveScan_filling_none (s : State) (h : s.pool.filling = none) :
    (leaveScan s).pool.filling = none := by
  simp only [leaveScan]
  repeat' split
  all_goals simp [h]

end Sys2Proof.Machine
end

