-- ==== Sys2Proof/Laws/Induction.lean ====
section
/-! SUPPORT. One step keeps a property of states whenever the effect of each command keeps it: the case split over the commands, once; and what a tick leaves. -/

namespace Sys2Proof.Machine

/-- An operation keeps a property. -/
def Kept (P : State → Prop) (f : State → State) : Prop := ∀ s, P s → P (f s)

/-- The effect of every command, of the link's settling and of an idle step keeps a property. The hypotheses under which
a command runs its effect stand before the property where a proof may need them. -/
structure Keeps (P : State → Prop) : Prop where
  settle : Kept P settle
  setPending : ∀ x s, P s → P (s.setPending x)
  tick : Kept P tick
  setChoices : ∀ x s, P s → P (s.setChoices x)
  powerOn : Kept P powerOnState
  release : ∀ s, P s → P { s with resetAsserted := false }
  startUnarmed : ∀ s, s.sp.state = .unarmed → P s → P (openFrame .ignored s)
  startDetached : ∀ s, s.sp.state = .detached → P s →
    P (observeFrame (if s.sp.cond = .observed then breakRun s else s))
  startObserved : ∀ s, s.sp.state.attached = true → (closeByStart s).sp.state = .detached → P s →
    P (observeFrame (closeByStart s))
  startTaken : ∀ s k, s.sp.state.attached = true → (closeByStart s).sp.state ≠ .detached →
    (closeByStart s).pool.lowestFree = some k → P s → P (takeFrame k (closeByStart s))
  line : ∀ e p, Kept P (lineEvent e p)
  frameEnd : Kept P frameEndEvent
  packet : ∀ a b c, Kept P (packetEvent a b c)
  signalLost : Kept P signalLostEvent
  signalRestored : ∀ s, P s → P (s.setSp { s.sp with signal := true })
  tmin : ∀ s, tminDue s = true → P s → P (tminExpired s)
  repeatTimer : ∀ s, repeatDue s = true → P s → P (repeatExpired s)
  fixedTimer : ∀ s, fixedDue s = true → P s → P (fixedExpired s)
  stripRead : ∀ s, stripDue s = true → P s → P (readStrip s.otg.nextStrip s)
  scanEnd : ∀ s, scanEndDue s = true → P s → P (endScan s)
  gap : Kept P gapEnds
  breakEvent : ∀ s, P s → P (resetAssembler (gapFirst s))
  byte : ∀ b s, P s → P (takeByte b (gapFirst s))
  overrun : ∀ s, overrunDue s = true → P s → P (overrunReplies s)
  deferred : ∀ s, deferredDue s = true → P s → P (claimDeferred s)
  replySent : ∀ s, replySentDue s = true → P s →
    P (chooseMessage (txIdle (s.setMl { s.ml with replies := s.ml.replies.drop 1 })))
  noticeSent : ∀ s, noticeSentDue s = true → P s → P (chooseMessage (txIdle s))
  refused : ∀ s r, s.granted = some r → P s → P (refuseRequest r (takeRequest s))
  getIdentity : ∀ s r, s.granted = some r → P s → P (answerWith r identityBody (takeRequest s))
  getStatus : ∀ s r, s.granted = some r → P s → P (answerWith r (statusBody (takeRequest s)) (takeRequest s))
  setNotices : ∀ s r, s.granted = some r → P s → P (setNotices r (takeRequest s))
  setPanelLimits : ∀ s r, s.granted = some r → P s → P (sequenceCheck setPanelLimits r (takeRequest s))
  proposeProfile : ∀ s r, s.granted = some r → P s → P (sequenceCheck proposeProfile r (takeRequest s))
  confirmProfile : ∀ s r, s.granted = some r → P s → P (confirmProfile r (takeRequest s))
  withdrawProfile : ∀ s r, s.granted = some r → P s → P (withdrawProfile r (takeRequest s))
  clearFault : ∀ s r, s.granted = some r → P s → P (clearFault r (takeRequest s))
  tuneProfile : ∀ s r, s.granted = some r → P s → P (sequenceCheck tuneProfile r (takeRequest s))
  getProfile : ∀ s r, s.granted = some r → P s → P (getProfile r (takeRequest s))
  lutWrite : ∀ s r, s.granted = some r → P s → P (sequenceCheck lutWrite r (takeRequest s))
  lutCommit : ∀ s r, s.granted = some r → P s → P (sequenceCheck lutCommit r (takeRequest s))
  lutRead : ∀ s r, s.granted = some r → P s → P (lutRead r (takeRequest s))
  setFilter : ∀ s r, s.granted = some r → P s → P (sequenceCheck setFilter r (takeRequest s))
  readCapture : ∀ s r, s.granted = some r → P s → P (readCapture r (takeRequest s))
  readHistory : ∀ s r, s.granted = some r → P s → P (readHistory r (takeRequest s))
  reattachSource : ∀ s r, s.granted = some r → P s → P (reattachSource r (takeRequest s))
  pipelineReset : ∀ s r, s.granted = some r → P s → P (pipelineReset r (takeRequest s))

/-- A command of the outside world keeps a property when its effect does. -/
theorem whileRunning_kept {P : State → Prop} {f : State → Result} {s t : State} (h : whileRunning f s = .next t)
    (hs : P s) (hf : f s = .next t → P t) : P t := by
  rw [whileRunning_eq] at h
  split at h
  · cases h
    exact hs
  · exact hf h

/-- A timed or granted event keeps a property when its effect and the settling do. -/
theorem whenDue_kept {P : State → Prop} {due : State → Bool} {f : State → State} {s t : State}
    (h : whenDue due f s = .next t) (hs : P s) (hset : Kept P Sys2Proof.Machine.settle)
    (hf : due s = true → P (f s)) : P t := by
  obtain rfl | ⟨_, hd, rfl⟩ := whenDue_cases h
  · exact hs
  · exact hset _ (hf hd)

/-- A request row keeps a property when the request carried out and the settling do. -/
theorem execRequest_kept {P : State → Prop} {type : Nat} {f : Request → State → State} {s t : State}
    (h : execRequest type f s = .next t) (hs : P s) (hset : Kept P Sys2Proof.Machine.settle)
    (hf : ∀ r, s.granted = some r → P (f r (takeRequest s))) : P t := by
  obtain rfl | ⟨r, hg, _, rfl⟩ := execRequest_cases h
  · exact hs
  · exact hset _ (hf r hg)

/-- A taken, observed or ignored Frame Start keeps a property when each of its cases does. -/
theorem frameStart_kept {P : State → Prop} (K : Keeps P) {s t : State} (h : frameStartEvent s = .next t)
    (hs : P s) : P t := by
  have att : s.sp.state.attached = true → attachedStart s = .next t → P t := by
    intro ha h
    simp only [attachedStart] at h
    split at h
    · cases h
      exact K.settle _ (K.startObserved s ha ‹_› hs)
    · split at h
      · cases h
        exact K.settle _ (K.startTaken s _ ha ‹_› ‹_› hs)
      · cases h
  simp only [frameStartEvent] at h
  split at h <;> rename_i hst
  · cases h
    exact K.startUnarmed s hst hs
  · cases h
    exact K.startDetached s hst hs
  all_goals exact att (by rw [hst]; rfl) h

/-- Every command keeps a property whose effects all keep it. -/
theorem exec_kept {P : State → Prop} (K : Keeps P) (c : Instr) {s t : State} (h : exec c s = .next t) (hs : P s) :
    P t := by
  cases c <;> simp only [exec] at h
  case powerOnReset =>
    cases h
    exact K.powerOn s hs
  case resetNRelease =>
    cases h
    exact K.release s hs
  case frameStart => exact whileRunning_kept h hs fun h => frameStart_kept K h hs
  case line e p =>
    simp only [execLine] at h
    split at h
    · refine whileRunning_kept h hs fun h => ?_
      cases h
      exact K.settle _ (K.line e p s hs)
    · cases h
  case frameEnd =>
    refine whileRunning_kept h hs fun h => ?_
    cases h
    exact K.settle _ (K.frameEnd s hs)
  case packet a b c =>
    simp only [execPacket] at h
    split at h
    · refine whileRunning_kept h hs fun h => ?_
      cases h
      exact K.settle _ (K.packet a b c s hs)
    · cases h
  case signalLost =>
    refine whileRunning_kept h hs fun h => ?_
    cases h
    exact K.settle _ (K.signalLost s hs)
  case signalRestored =>
    refine whileRunning_kept h hs fun h => ?_
    cases h
    exact K.signalRestored s hs
  case tminExpiry => exact whenDue_kept h hs K.settle fun d => K.tmin s d hs
  case repeatTimerExpiry => exact whenDue_kept h hs K.settle fun d => K.repeatTimer s d hs
  case fixedTimerExpiry => exact whenDue_kept h hs K.settle fun d => K.fixedTimer s d hs
  case stripRead => exact whenDue_kept h hs K.settle fun d => K.stripRead s d hs
  case scanEnd => exact whenDue_kept h hs K.settle fun d => K.scanEnd s d hs
  case gapEvent => exact whenDue_kept h hs K.settle fun _ => K.gap s hs
  case breakEvent =>
    refine whileRunning_kept h hs fun h => ?_
    cases h
    exact K.breakEvent s hs
  case messageReceived b =>
    refine whileRunning_kept h hs fun h => ?_
    cases h
    exact K.byte b s hs
  case byteReceived b =>
    refine whileRunning_kept h hs fun h => ?_
    cases h
    exact K.byte b s hs
  case overrunReply => exact whenDue_kept h hs K.settle fun d => K.overrun s d hs
  case deferredReply => exact whenDue_kept h hs K.settle fun d => K.deferred s d hs
  case requestRefused =>
    refine whenDue_kept h hs K.settle fun d => ?_
    cases hg : s.granted with
    | none => simp [refusedDue, hg] at d
    | some r =>
      have hl := granted_head hg
      cases hm : s.ml.slots with
      | nil => simp [hm] at hl
      | cons r' rest =>
        rw [hm] at hl
        cases hl
        simpa [carryOut, hm] using K.refused s r hg hs
  case replySent =>
    simp only [execReplySent] at h
    split at h
    · cases h
      exact hs
    · split at h
      · cases h
        exact K.replySent s ‹_› hs
      · cases h
        exact hs
  case noticeSent =>
    simp only [execNoticeSent] at h
    split at h
    · cases h
      exact hs
    · split at h
      · cases h
        exact K.noticeSent s ‹_› hs
      · cases h
        exact hs
  case getIdentity => exact execRequest_kept h hs K.settle fun r g => K.getIdentity s r g hs
  case getStatus => exact execRequest_kept h hs K.settle fun r g => K.getStatus s r g hs
  case setNotices => exact execRequest_kept h hs K.settle fun r g => K.setNotices s r g hs
  case setPanelLimits => exact execRequest_kept h hs K.settle fun r g => K.setPanelLimits s r g hs
  case proposeProfile => exact execRequest_kept h hs K.settle fun r g => K.proposeProfile s r g hs
  case confirmProfile => exact execRequest_kept h hs K.settle fun r g => K.confirmProfile s r g hs
  case withdrawProfile => exact execRequest_kept h hs K.settle fun r g => K.withdrawProfile s r g hs
  case clearFault => exact execRequest_kept h hs K.settle fun r g => K.clearFault s r g hs
  case tuneProfile => exact execRequest_kept h hs K.settle fun r g => K.tuneProfile s r g hs
  case getProfile => exact execRequest_kept h hs K.settle fun r g => K.getProfile s r g hs
  case lutWrite => exact execRequest_kept h hs K.settle fun r g => K.lutWrite s r g hs
  case lutCommit => exact execRequest_kept h hs K.settle fun r g => K.lutCommit s r g hs
  case lutRead => exact execRequest_kept h hs K.settle fun r g => K.lutRead s r g hs
  case setFilter => exact execRequest_kept h hs K.settle fun r g => K.setFilter s r g hs
  case readCapture => exact execRequest_kept h hs K.settle fun r g => K.readCapture s r g hs
  case readHistory => exact execRequest_kept h hs K.settle fun r g => K.readHistory s r g hs
  case reattachSource => exact execRequest_kept h hs K.settle fun r g => K.reattachSource s r g hs
  case pipelineReset => exact execRequest_kept h hs K.settle fun r g => K.pipelineReset s r g hs

/-- What `tick` leaves unchanged. -/
@[simp] theorem tick_frame (s : State) :
    (tick s).resetAsserted = s.resetAsserted ∧ (tick s).pool = s.pool ∧ (tick s).sp = s.sp ∧ (tick s).otg = s.otg ∧
    (tick s).ps = s.ps ∧ (tick s).cs = s.cs ∧ (tick s).pc = s.pc ∧ (tick s).pf = s.pf ∧ (tick s).hr = s.hr ∧
    (tick s).ml = s.ml ∧ (tick s).panel = s.panel ∧ (tick s).pending = s.pending ∧ (tick s).choices = s.choices ∧
    (tick s).pu.intervals = s.pu.intervals ∧ (tick s).pu.fills = s.pu.fills ∧ (tick s).pu.ti = s.pu.ti ∧
    (tick s).pu.fi = s.pu.fi ∧ (tick s).pu.q = s.pu.q ∧ (tick s).pu.lastQ = s.pu.lastQ ∧
    (tick s).pu.planActive = s.pu.planActive ∧ (tick s).pu.k = s.pu.k ∧ (tick s).pu.tr = s.pu.tr ∧
    (tick s).pu.nextFixed = s.pu.nextFixed ∧ (tick s).pu.armed = s.pu.armed ∧ (tick s).pu.good = s.pu.good ∧
    (tick s).pu.bad = s.pu.bad ∧ (tick s).pu.admitted = s.pu.admitted := by
  unfold tick
  split <;> simp

/-- After a tick of a running part no sample is of the new moment (R52, R54; Log 37). -/
theorem tick_moves (s : State) (h : s.resetAsserted = false) :
    (tick s).timeBase = s.timeBase + 1 ∧ (tick s).pu.sampledNow = false ∧ (tick s).pu.filledNow = false := by
  simp [tick, h, State.now]

/-- An idle step keeps a property that a tick, the queue and the count of choices do not touch. -/
theorem idleStep_kept {P : State → Prop} (K : Keeps P) {s : State} (hs : P s) : P (idleStep s) := by
  simp only [idleStep]
  split
  · exact K.tick s hs
  · exact K.setPending _ s hs
  · exact K.setChoices _ _ (K.setPending _ s hs)

/-- Every step keeps a property whose effects all keep it. -/
theorem step_kept {P : State → Prop} (K : Keeps P) {s t : State} (h : step s = .next t) (hs : P s) : P t := by
  simp only [step] at h
  split at h
  · exact exec_kept K _ h (K.setPending _ s hs)
  · cases h
    exact idleStep_kept K hs

end Sys2Proof.Machine
end

