-- ==== Sys2Proof/Laws/Merge.lean ====
section
/-! SUPPORT. What a refresh can do to the profile controller and to the timing state: the profile is kept or the tune set merged into it, once, and the generator neither enters nor leaves IDLE. -/

namespace Sys2Proof.Machine

/-- The profile controller is as it was, or the pending tune set has been merged (R141). -/
def PcMerged (s t : State) : Prop := t.pc = s.pc ∨ t.pc = (mergeTune s).pc

/-- Merging the empty tune set changes no profile. -/
theorem Profile.merge_empty (p : Profile) : p.merge TuneSet.empty = p := rfl

/-- A second merge finds the set empty. -/
theorem mergeTune_pc_twice {s t : State} (h : t.pc = (mergeTune s).pc) : (mergeTune t).pc = (mergeTune s).pc := by
  have e : t.pc.tune = TuneSet.empty := by rw [h]; rfl
  have g : (mergeTune t).pc = { t.pc with active := t.pc.active.map (·.merge t.pc.tune), tune := TuneSet.empty } := rfl
  have i : (fun p : Profile => p.merge TuneSet.empty) = id := funext Profile.merge_empty
  rw [g, e, i, Option.map_id, id, h]
  rfl

/-- Nothing done merges nothing. -/
theorem PcMerged.of_eq {s t : State} (h : t.pc = s.pc) : PcMerged s t := .inl h

/-- Two operations merge at most once. -/
theorem PcMerged.trans {s t u : State} (h : PcMerged s t) (g : PcMerged t u) : PcMerged s u := by
  have tune : ∀ {a b : State}, b.pc = a.pc → (mergeTune b).pc = (mergeTune a).pc := fun {a b} e => by
    simp only [mergeTune, State.setPc_fields, e]
  obtain h | h := h <;> obtain g | g := g
  · exact .inl (g.trans h)
  · exact .inr (g.trans (tune h))
  · exact .inr (g.trans h)
  · exact .inr (g.trans (mergeTune_pc_twice h))

/-- A refresh's effect on the profile controller and the timing state. -/
def Refreshed (s t : State) : Prop := PcMerged s t ∧ (t.otg.timing = .idle ↔ s.otg.timing = .idle)

/-- An operation that leaves the profile controller and the timing state. -/
theorem Refreshed.of_eq {s t : State} (h : t.pc = s.pc) (g : t.otg.timing = s.otg.timing) : Refreshed s t :=
  ⟨.inl h, by rw [g]⟩

/-- One refreshed state after another. -/
theorem Refreshed.trans {s t u : State} (h : Refreshed s t) (g : Refreshed t u) : Refreshed s u :=
  ⟨h.1.trans g.1, g.2.trans h.2⟩

/-- The merge and the choice merge at most once. -/
theorem mergeAndChoose_pc (s : State) : PcMerged s (mergeAndChoose s) := by
  simp only [mergeAndChoose]
  repeat' split
  · exact .inl (by simp)
  all_goals exact .inr (by simp [mergeTune])

/-- A refresh start outside IDLE. -/
theorem refreshBy_refreshed (expired planned : Bool) (s : State) (h : s.otg.timing ≠ .idle) :
    Refreshed s (refreshBy expired planned s) := by
  have a : PcMerged s (mergeAndChoose (beginScan s)) := PcMerged.trans (.inl (by simp)) (mergeAndChoose_pc _)
  have b : (refreshBy expired planned s).otg.timing = .scan := by simp [refreshBy, beginScan]
  exact ⟨a.trans (.inl (by simp [refreshBy])), by simp [b, h]⟩

/-- A refresh start outside IDLE that no expiry of the fixed timer causes. -/
theorem refreshStart_refreshed (planned : Bool) (s : State) (h : s.otg.timing ≠ .idle) :
    Refreshed s (refreshStart planned s) := refreshBy_refreshed false planned s h

/-- A repeat timer expiry taken in BLANK_OPEN. -/
theorem repeatExpiryOpen_refreshed (s : State) (h : s.otg.timing ≠ .idle) : Refreshed s (repeatExpiryOpen s) := by
  simp only [repeatExpiryOpen]
  repeat' split
  · exact .of_eq (by simp) (by simp)
  all_goals exact refreshStart_refreshed _ s h

/-- An entry to BLANK_OPEN. -/
theorem enterBlankOpen_refreshed (s : State) (h : s.otg.timing ≠ .idle) : Refreshed s (enterBlankOpen s) := by
  have open_ : Refreshed s (s.setOtg { s.otg with timing := .blankOpen }) := ⟨.inl (by simp), by simp [h]⟩
  simp only [enterBlankOpen]
  repeat' split
  · exact open_.trans (refreshStart_refreshed _ _ (by simp))
  · refine open_.trans (Refreshed.trans ?_ (repeatExpiryOpen_refreshed _ (by simp)))
    exact .of_eq (by simp) (by simp)
  · exact open_

/-- A fixed timer expiry taken in BLANK. -/
theorem fixedRefresh_refreshed (s : State) (h : s.otg.timing ≠ .idle) : Refreshed s (fixedRefresh s) :=
  refreshBy_refreshed true false s h

/-- An eligibility event. -/
theorem eligibilityEvent_refreshed (s : State) : Refreshed s (eligibilityEvent s) := by
  simp only [eligibilityEvent]
  split
  · exact .of_eq (by simp) (by simp)
  · rename_i h
    split
    · exact Refreshed.trans (t := phaseMeasure s) (.of_eq (by simp) (by simp))
        (refreshStart_refreshed _ _ (by simp [h]))
    · exact .of_eq (by simp) (by simp)
  all_goals exact .of_eq (by simp) (by simp)

/-- A recomputation of Q with its events. -/
theorem recomputeQ_refreshed (s : State) : Refreshed s (recomputeQ eligibilityEvent s) := by
  have j : ∀ s, Refreshed s (judgeAll eligibilityEvent s) := by
    intro s
    suffices g : ∀ (l : List Slot) (s : State), Refreshed s
        (l.foldl (fun s k => if s.judges k then eligibilityEvent (markEligible k s) else s) s) from g s.pool.cands s
    intro l
    induction l with
    | nil => exact fun s => .of_eq rfl rfl
    | cons k l ih =>
      intro s
      rw [List.foldl_cons]
      refine Refreshed.trans ?_ (ih _)
      split
      · exact Refreshed.trans (t := markEligible k s) (.of_eq (by simp) (by simp)) (eligibilityEvent_refreshed _)
      · exact .of_eq rfl rfl
  simp only [recomputeQ]
  split
  · exact .of_eq (by simp) (by simp)
  · simp only [publishQ]
    exact Refreshed.trans (.of_eq (by simp) (by simp)) (j _)

/-- The clearing of both windows. -/
theorem clearWindows_refreshed (s : State) : Refreshed s (clearWindows s) := by
  simp only [clearWindows, fillsChanged]
  exact Refreshed.trans (.of_eq (by simp) (by simp)) (recomputeQ_refreshed _)

end Sys2Proof.Machine
end

