-- ==== Sys2Proof/Laws/Readings.lean ====
section
/-! SUPPORT. What operations of the meanings do, in the terms of the statements: the tune merge, the phase measurement, the
reports to the history ring, the windows and the repeat plan after a change, the drop of the lock, and the status snapshot. -/

namespace Sys2Proof.Machine

/-- The tune merge writes the present fields (R141). -/
theorem Profile.merge_eq_withTune (p : Profile) (t : TuneSet) : p.merge t = p.withTune t := by
  unfold Profile.merge Profile.withTune Profile.strips
  cases t.spliceLimit <;> rfl

/-- The pacing unit's share of an eligibility event (R60 to R64, R82). -/
theorem phaseMeasure_eq_measured (s : State) : phaseMeasure s = s.measured := by
  unfold phaseMeasure measureFrom State.measured State.measures
  by_cases h : s.prof.pacing = .fixed ∧ s.prof.lock = true ∧ s.otg.lock ≠ .freeRun ∧ s.pu.armed = true
  · have h' : (decide (s.prof.pacing = .fixed) && s.prof.lock && decide (s.otg.lock ≠ .freeRun) && s.pu.armed) = true := by
      simp [h.1, h.2.1, h.2.2.1, h.2.2.2]
    rw [if_pos h, if_pos h']
    cases hl : s.otg.lock <;> cases ht : s.pu.ti
    · exact absurd hl h.2.2.1
    · exact absurd hl h.2.2.1
    iterate 2
      · by_cases g : (phaseError s.prof (elapsed s.timeBase s.otg.tLast)).natAbs ≤ s.prof.fixedInterval / 512 <;>
          by_cases n : s.pu.good = 7 <;>
          simp [takeReport, countMeasurement, fixedFrom, setLock, State.setPu, State.setOtg, State.now, hl, ht, goodError,
            g, n]
    iterate 2
      · by_cases g : s.prof.fixedInterval / 128 < (phaseError s.prof (elapsed s.timeBase s.otg.tLast)).natAbs <;>
          by_cases n : s.pu.bad = 2 <;>
          simp [takeReport, countMeasurement, fixedFrom, setLock, State.setPu, State.setOtg, State.now, hl, ht, badError,
            g, n]
  · have h' : ¬ (decide (s.prof.pacing = .fixed) && s.prof.lock && decide (s.otg.lock ≠ .freeRun) && s.pu.armed) = true := by
      simp only [Bool.and_eq_true, decide_eq_true_eq, and_assoc]
      exact h
    rw [if_neg h, if_neg h']

/-- A fate reported for the frame in a slot (R158). -/
theorem fateRing_one (s : State) (k : Slot) (f : Fate) :
    (reportSlotFate (s.slot k) f s).hr = s.fateRing [(k, f)] := by
  unfold reportSlotFate State.fateRing
  cases hn : (s.slot k).frameNo with
  | none => simp [hn]
  | some n =>
    simp only [reportFate, onRecord, State.setHr, FrameRec.withFate, hn, List.find?]
    apply List.map_congr_left
    intro r _
    by_cases e : r.frameNo = n
    · subst e
      cases r.fate <;> simp
    · have e' : ¬ n = r.frameNo := fun h => e h.symm
      cases r.fate <;> simp [e, e']

/-- The ring after a slot is freed with a fate (R5). -/
theorem freeSlot_hr (s : State) (k : Slot) (f : Fate) : (freeSlot k f s).hr = s.fateRing [(k, f)] := by
  rw [← fateRing_one]
  unfold freeSlot reportSlotFate
  cases (s.slot k).frameNo <;> rfl

/-- The frame numbers after a slot is freed (R5). -/
theorem freeSlot_frameNo (s : State) (k j : Slot) (f : Fate) :
    ((freeSlot k f s).slot j).frameNo = if j = k then none else (s.slot j).frameNo := by
  have : (freeSlot k f s).slot j = if j = k then SlotRec.free else s.slot j := by
    unfold freeSlot reportSlotFate
    have h : ((s.setPool (s.pool.release k)).slot j) = if j = k then SlotRec.free else s.slot j := by
      simp only [State.slot, State.setPool, SlotPool.release, SlotPool.setSlot, SlotPool.slot, Fin.getElem_fin,
        Vector.getElem_set]
      by_cases e : j = k
      · simp [e]
      · have : ¬ k.val = j.val := fun h => e (Fin.ext h.symm)
        simp [e, this]
    cases (s.slot k).frameNo <;> exact h
  rw [this]
  split <;> rfl

/-- The ring after several slots are freed with one fate (R5, R158). -/
theorem freeSlots_hr (ks : List Slot) (f : Fate) (hf : f ≠ .pending) (s : State) :
    (freeSlots ks f s).hr = s.fateRing (ks.map fun k => (k, f)) := by
  induction ks generalizing s with
  | nil =>
    simp only [freeSlots, List.foldl_nil, State.fateRing, List.map_nil, List.find?_nil]
    symm
    apply List.map_id''
    intro r
    cases r.fate <;> rfl
  | cons k t ih =>
    show (freeSlots t f (freeSlot k f s)).hr = _
    rw [ih, State.fateRing, freeSlot_hr]
    simp only [State.fateRing, List.map_map, List.map_cons]
    apply List.map_congr_left
    intro r _
    simp only [Function.comp, List.find?_cons, List.find?_nil, freeSlot_frameNo]
    by_cases e : (s.slot k).frameNo = some r.frameNo
    · cases hr : r.fate <;> simp [e, hr]
      cases f <;> simp_all
    · have hp : (fun x : Slot × Fate => decide ((if x.1 = k then none else (s.slot x.1).frameNo) = some r.frameNo)) =
          fun x : Slot × Fate => decide ((s.slot x.1).frameNo = some r.frameNo) := by
        funext x
        by_cases hx : x.1 = k
        · simp [hx, e]
        · simp [hx]
      simp only [e, decide_false]
      cases hr : r.fate <;> simp only [hr, hp]

/-- The ring after a presentation at a refresh start (R97, R156). -/
theorem reportRefresh_hr (s u : State) (k : Slot) (h : u.timeBase = s.timeBase) :
    (reportRefresh (s.slot k) u).hr = s.refreshRing k u.hr := by
  unfold reportRefresh State.refreshRing
  cases hn : (s.slot k).frameNo with
  | none => simp
  | some n =>
    simp only [onRecord, State.setHr, State.now, h, FrameRec.presentedAt]
    apply List.map_congr_left
    intro r _
    by_cases e : r.frameNo = n
    · cases hp : (s.slot k).presented <;> cases ht : (s.slot k).shownTop <;> simp [e]
    · have e' : ¬ n = r.frameNo := fun h => e h.symm
      simp [e, e']

/-- The ring after a close report on the frame in progress (R155). -/
theorem reportClose_hr (s u : State) (bad : Nat) (truncated : Bool) :
    (reportClose s.sp.frameCounter bad truncated u).hr = s.closeRing bad truncated u.hr := rfl

/-- The bad strips that a close reports of the filling frame (R1). -/
theorem fillingBad_eq_badSoFar (s : State) : s.fillingBad = s.badSoFar := by
  unfold State.fillingBad State.badSoFar
  cases s.pool.filling <;> rfl

/-- The ring after the filling frame is aborted (R5, R6, R10). -/
theorem abortFilling_hr (s : State) (truncated : Bool) : (abortFilling truncated s).hr = s.abortRing := by
  unfold abortFilling State.abortRing
  cases hf : s.pool.filling with
  | none => rfl
  | some k =>
    by_cases h : s.pool.onScreen = some k
    · simp [State.setPool, SlotPool.setSlot, h]
    · simp only [State.setPool, SlotPool.setSlot, h, if_false]
      rw [freeSlot_hr]
      simp only [State.fateRing, List.find?_cons, List.find?_nil, State.slot, SlotPool.slot, Fin.getElem_fin,
        Vector.getElem_set_self]
      rfl

/-- A window after an emptying of an application or a reset point: empty, or the sample of this same moment (R52, R54). -/
theorem emptied_emptiedTo (last enteredNow : Bool) (w : List Nat) : emptiedTo enteredNow w (emptied last enteredNow w) := by
  cases enteredNow
  · exact .inl rfl
  · cases last
    · exact .inl rfl
    · exact .inr ⟨rfl, rfl⟩

/-- What the emptying of the windows leaves in them (R52, R54). -/
theorem emptyWindows_windows (i f : Bool) (s : State) :
    (i = true → emptiedTo s.pu.sampledNow s.pu.intervals (emptyWindows i f s).pu.intervals) ∧
    (i = false → (emptyWindows i f s).pu.intervals = s.pu.intervals) ∧
    (f = true → emptiedTo s.pu.filledNow s.pu.fills (emptyWindows i f s).pu.fills) ∧
    (f = false → (emptyWindows i f s).pu.fills = s.pu.fills) := by
  refine ⟨?_, ?_, ?_, ?_⟩ <;> rintro rfl
  · exact emptied_emptiedTo _ _ _
  · rfl
  · exact emptied_emptiedTo _ _ _
  · rfl

/-- The generator takes new plan values (R77). -/
theorem takePlan_eq_planTaken (s : State) :
    takePlan s =
      { s with otg := { s.otg with
        planCount := (s.otg.planTaken s.prof s.pu.planActive s.pu.k).1
        repeatTimer := (s.otg.planTaken s.prof s.pu.planActive s.pu.k).2 } } := by
  have h : ∀ x : Time, plusTicks s.now (elapsed x s.now) = x := by
    intro x
    unfold plusTicks elapsed
    rw [BitVec.ofNat_toNat, BitVec.setWidth_eq, BitVec.add_comm, BitVec.sub_add_cancel]
  unfold takePlan OutputTiming.planTaken
  cases s.pu.planActive with
  | true => rfl
  | false =>
    by_cases c : 0 < s.otg.planCount
    · simp only [c, loadBackstop, State.setOtg, h, if_true, if_false, Bool.false_eq_true]
    · simp [c]

/-- A notice raised after fields of other blocks have changed (R169). -/
theorem raise_noticed (s u : State) (n : Notice) (h : u.ml = s.ml) : s.noticed (raise n u) n := by
  unfold State.noticed raise
  intro he
  have he' : u.ml.enables[n.kind] = true := by rw [h]; exact he
  rw [if_pos he']
  left
  simp only [State.setMl, h, Fin.getElem_fin, Vector.getElem_set_self]
  unfold raisedCopy
  split <;> simp_all

/-- A drop of the lock to FREE_RUN (R63, R64, R83, R84). -/
theorem dropLock_lockDrops (s : State) : s.lockDrops (dropLock s) True := by
  unfold State.lockDrops dropLock setLock
  refine ⟨fun _ h => ?_, fun h => ?_⟩
  · rw [if_neg h]
    exact ⟨by simp, by simp, by simp, by simp, raise_noticed _ _ _ rfl⟩
  · have h : s.otg.lock = .freeRun := by simpa using h
    simp [h]

/-- The lock moves to ACQUIRE at a refresh start (R81, R84). -/
theorem lockTest_acquires {s : State} (h : s.acquires) :
    lockTest s = raise (.lockState .acquire)
      { s with otg := { s.otg with lock := .acquire }, pu := { s.pu with good := 0, bad := 0 } } := by
  have ne : ¬ s.otg.lock = .acquire := by simp [h.1]
  unfold lockTest
  rw [if_pos h]
  simp [setLock, ne, State.setPu, State.setOtg]

/-- The lock stays at a refresh start (R81). -/
theorem lockTest_stays {s : State} (h : ¬ s.acquires) : lockTest s = s := by
  unfold lockTest
  exact if_neg h

/-- The generator's test and the arming at a refresh start (R60, R63, R81, R84). -/
theorem lockAndArm_lockAs (expired : Bool) (s : State) : s.lockAs s.armedAs (lockAndArm expired s) := by
  have base : ∀ s : State, s.lockAs s.armedAs (armMeasurement (lockTest s)) := by
    intro s
    unfold State.lockAs State.armedAs armMeasurement
    by_cases h : s.acquires
    · rw [lockTest_acquires h]
      have hn := raise_noticed s { s with otg := { s.otg with lock := .acquire }, pu := { s.pu with good := 0, bad := 0 } }
        (.lockState .acquire) rfl
      obtain ⟨h1, h2, h3, h4, h5⟩ := h
      simp only [State.prof, raise_frame] at h2 h3 ⊢
      cases ht : s.pu.ti <;> simp_all [State.acquires, State.prof, fixedFrom, State.noticed, State.setPu]
    · rw [lockTest_stays h]
      simp only [h, if_false]
      by_cases g : s.prof.pacing = .fixed ∧ s.prof.lock = true
      · cases hl : s.otg.lock <;> cases ht : s.pu.ti <;>
          simp [g.1, g.2, hl, ht, fixedFrom, State.setPu]
      · have g' : ¬ (decide (s.prof.pacing = .fixed) && s.prof.lock) = true := by simpa using g
        rw [if_neg g']
        simp [show ∀ x : Prop, ¬ (s.prof.pacing = .fixed ∧ s.prof.lock = true ∧ x) from fun x y => g ⟨y.1, y.2.1⟩, g]
  have h := base (loadFixed expired s)
  cases expired
  · exact h
  · exact h

/-- The status snapshot field by field (R172, section 11.5). -/
theorem statusBody_eq_spelled (s : State) : statusBody s = spelled s.statusRows := by
  have f1 : ∀ x : FillState, x.code = BitVec.ofNat 8 ([FillState.empty, .filling, .complete, .aborted].idxOf x) := by
    intro x; cases x <;> rfl
  have f2 : ∀ x : SourceState, x.code = BitVec.ofNat 8 ([SourceState.unarmed, .clean, .watch, .guarded, .detached].idxOf x) := by
    intro x; cases x <;> rfl
  have f3 : ∀ x, modeCode x = BitVec.ofNat 8 ([none, some Pacing.adaptive, some .fixed].idxOf x) := by
    intro x; rcases x with _ | x; rfl; cases x <;> rfl
  have f4 : ∀ x : Timing, x.code = BitVec.ofNat 8 ([Timing.idle, .scan, .blankMin, .blankOpen, .blank].idxOf x) := by
    intro x; cases x <;> rfl
  have f5 : ∀ x : Lock, x.code = BitVec.ofNat 8 ([Lock.freeRun, .acquire, .track].idxOf x) := by
    intro x; cases x <;> rfl
  have f6 : ∀ x, kindCode x = BitVec.ofNat 8 ([none, some RefreshKind.new, some .repeated, some .blank].idxOf x) := by
    intro x; rcases x with _ | x; rfl; cases x <;> rfl
  have f7 : ∀ x : ProposalState, x.code = BitVec.ofNat 8 ([ProposalState.none, .held, .confirmed].idxOf x) := by
    intro x; cases x <;> rfl
  have f8 : ∀ a b : Bool, flagByte a ||| (flagByte b <<< 1) = BitVec.ofNat 8 (flagValue a + 2 * flagValue b) := by
    intro a b; cases a <;> cases b <;> rfl
  have f9 : ∀ a : Bool, flagByte a = BitVec.ofNat 8 (flagValue a) := by intro a; cases a <;> rfl
  have f10 : ∀ k, slotByte k = BitVec.ofNat 8 (markerValue k) := by intro k; cases k <;> rfl
  unfold statusBody State.statusRows spelled SlotRec.rows SlotRec.bytes State.now
  rw [f1, f1, f1, f1, f2, f3, f4, f5, f6, f7, f8]
  simp only [f9, f10]
  simp [leBytes]

end Sys2Proof.Machine
end

