-- ==== Sys2Proof/Laws/Store.lean ====
section
/-! SUPPORT. The strip store: a read after a write, and the canonical form that every write keeps. -/

namespace Sys2Proof.Machine

/-- A row just put is the row read. -/
theorem Store.row_put_self (st : List StoreRow) (key : Nat) (row : List Pixel) (h : Store.wf st = true) :
    Store.row (Store.put st key row) key = row := by
  induction st with
  | nil =>
    simp only [Store.put]
    split <;> simp_all [Store.row]
  | cons e t ih =>
    obtain ⟨k, r⟩ := e
    have hw := h
    simp only [Store.wf, Bool.and_eq_true] at hw
    have hlow : ∀ (t : List StoreRow) (b : Nat), Store.wf t = true →
        (match t with | [] => true | (k', _) :: _ => decide (b < k')) = true → ∀ j ≤ b, Store.row t j = [] := by
      intro t
      induction t with
      | nil => intros; rfl
      | cons e t ih =>
        obtain ⟨k, r⟩ := e
        intro b hw hb j hj
        simp only [Store.wf, Bool.and_eq_true] at hw
        have hb' : b < k := by simpa using hb
        have hne : k ≠ j := by omega
        simp only [Store.row, hne, if_false]
        exact ih k hw.2 hw.1.2 j (by omega)
    simp only [Store.put]
    split
    · split
      · rename_i hlt he
        subst he
        have hne : k ≠ key := by omega
        simp only [Store.row, hne, if_false]
        exact hlow t k hw.2 hw.1.2 key (by omega)
      · simp [Store.row]
    · split
      · rename_i he
        subst he
        split
        · rename_i hr
          subst hr
          exact hlow t key hw.2 hw.1.2 key (le_refl _)
        · simp [Store.row]
      · have hne : k ≠ key := fun e => ‹¬ key = k› e.symm
        simp only [Store.row, hne, if_false]
        exact ih hw.2

/-- Putting a row leaves every other row. -/
theorem Store.row_put_other (st : List StoreRow) {key j : Nat} (row : List Pixel) (h : j ≠ key) :
    Store.row (Store.put st key row) j = Store.row st j := by
  induction st with
  | nil =>
    simp only [Store.put]
    split
    · rfl
    · simp [Store.row, Ne.symm h]
  | cons e t ih =>
    obtain ⟨k, r⟩ := e
    simp only [Store.put]
    split
    · split
      · rfl
      · simp [Store.row, Ne.symm h]
    · split
      · rename_i he
        subst he
        split
        · simp [Store.row, Ne.symm h]
        · simp [Store.row, Ne.symm h]
      · simp only [Store.row, ih]

/-- Putting a row keeps the canonical form. -/
theorem Store.put_wf (st : List StoreRow) (key : Nat) (row : List Pixel) (h : Store.wf st = true) :
    Store.wf (Store.put st key row) = true := by
  have gen : ∀ (st : List StoreRow), Store.wf st = true →
      Store.wf (Store.put st key row) = true ∧
      ∀ b : Nat, b < key → (match st with | [] => true | (k', _) :: _ => decide (b < k')) = true →
        (match Store.put st key row with | [] => true | (k', _) :: _ => decide (b < k')) = true := by
    intro st
    induction st with
    | nil =>
      intro _
      simp only [Store.put]
      split
      · simp [Store.wf]
      · rename_i hr
        simp [Store.wf, hr]
    | cons e t ih =>
      obtain ⟨k, r⟩ := e
      intro hw
      have hw' := hw
      simp only [Store.wf, Bool.and_eq_true] at hw'
      obtain ⟨⟨hr, hk⟩, ht⟩ := hw'
      simp only [Store.put]
      split
      · split
        · exact ⟨hw, fun b _ hb => hb⟩
        · rename_i hlt hrow
          exact ⟨by simp [Store.wf, hrow, hlt, ht] at hr ⊢; exact ⟨hr, hk⟩, fun b hb _ => by simpa using hb⟩
      · split
        · rename_i he
          subst he
          split
          · refine ⟨ht, fun b hb _ => ?_⟩
            cases t with
            | nil => rfl
            | cons e' t' =>
              obtain ⟨k', r'⟩ := e'
              have : key < k' := by simpa using hk
              simp only [decide_eq_true_eq]
              omega
          · rename_i hrow
            exact ⟨by simp [Store.wf, hrow, ht]; exact hk, fun b hb _ => by simpa using hb⟩
        · rename_i hlt hne
          have hkk : k < key := by omega
          obtain ⟨h1, h2⟩ := ih ht
          refine ⟨?_, fun b _ hb => hb⟩
          simp only [Store.wf, Bool.and_eq_true]
          exact ⟨⟨hr, h2 k hkk hk⟩, h1⟩
  exact (gen st h).1

/-- Storing a line keeps the canonical form. -/
theorem Store.writeLine_wf (st : List StoreRow) (k : Slot) (line width : Nat) (pixels : List Pixel)
    (h : Store.wf st = true) : Store.wf (Store.writeLine st k line width pixels) = true :=
  Store.put_wf _ _ _ h

/-- Storing a line leaves every row but its own. -/
theorem Store.row_writeLine_other (st : List StoreRow) (k : Slot) (line width : Nat) (pixels : List Pixel) {j : Nat}
    (h : j ≠ Store.key k line) : Store.row (Store.writeLine st k line width pixels) j = Store.row st j :=
  Store.row_put_other st _ h

/-- A stored line carries the pixels it was given, at most `width` of them, and what it held beyond them (R2). -/
theorem Store.row_writeLine_self (st : List StoreRow) (k : Slot) (line width : Nat) (pixels : List Pixel)
    (h : Store.wf st = true) :
    Store.row (Store.writeLine st k line width pixels) (Store.key k line) =
      pixels.take width ++ (Store.row st (Store.key k line)).drop (pixels.take width).length :=
  Store.row_put_self st _ _ h

end Sys2Proof.Machine
end

