-- ==== Sys2Proof/Tests/Slice0.lean ====
section
/-! SUPPORT. Tests on small states: the ill-formed commands, the manual's worked figures, a few commands, and for every
obligation with hypotheses a witness that meets them. -/

namespace Sys2Proof.Tests

open Sys2Proof Sys2Proof.Machine

/-! Helpers -/

/-- The state a command leads to; the old one when the command stops. -/
def after (c : Instr) (s : State) : State :=
  match exec c s with
  | .next t => t
  | .fault _ | .refused _ => s

/-- The state several commands lead to. -/
def afterAll (cs : List Instr) (s : State) : State := cs.foldl (fun s c => after c s) s

/-- A command gives a next state with a property. -/
def check (c : Instr) (s : State) (f : State → Bool) : Bool :=
  match exec c s with
  | .next t => f t
  | .fault _ | .refused _ => false

def px : Pixel := ⟨1, 2, 3⟩

def good : Instr := .line false [px]

/-- A profile of one pixel by two strips, so that a test runs few lines. -/
def tiny : Profile :=
  ⟨1, 16, 80, 100, 300, .adaptive, 0, false, 0, true, 0, .sync, 1, false, 0, ⟨0, 2048, 4095⟩, .d10, ⟨1023, 1023, 1023⟩, true⟩

def limits : Limits := ⟨208333, 500000, 1, 0⟩

/-- A profile within `limits`. -/
def lawful : Profile :=
  ⟨640, 480, 200000, 208333, 500000, .adaptive, 0, false, 0, true, 2, .sync, 1, true, 500, ⟨0, 2048, 4095⟩, .d10,
    ⟨1023, 1023, 1023⟩, true⟩

/-- A CLEAN source under a profile, the generator in BLANK_MIN at tick 1000. -/
def live (p : Profile) : State :=
  { State.reset with
    timeBase := 1000
    pc := { ProfileCtl.powerOn with limits := some limits, active := some p }
    sp := { SourcePort.powerOn with state := .clean, signal := true }
    otg := { OutputTiming.powerOn with
      mode := some p.pacing, timing := .blankMin, tLast := 950, tminTimer := .running 1050,
      repeatTimer := .running 1250 } }

/-- A part asked to execute one request, tag 7. -/
def asked (type : Byte) (payload : List Byte) (s : State) : State :=
  { s with ml := { s.ml with slots := [⟨type, 7, payload, .none⟩] } }

/-- A source in a state with a score. -/
def moved (st : SourceState) (score : Nat) (s : State) : State := { s with sp := { s.sp with state := st, score := score } }

/-- A taken frame in progress. -/
def taking : State := after .frameStart (live tiny)

/-- Its first strip but one line. -/
def sevenLines : State := afterAll (List.replicate 7 good) taking

/-- All its lines. -/
def sixteenLines : State := afterAll (List.replicate 16 good) taking

/-- The generator in a timing state. -/
def timed (t : Timing) (s : State) : State := { s with otg := { s.otg with timing := t } }

/-- A frame condition put in place. -/
def conditioned (c : FrameCond) (s : State) : State := { s with sp := { s.sp with cond := c } }

/-- The time moved to a tick. -/
def atTick (n : Time) (s : State) : State := { s with timeBase := n }

/-- Fields of the generator put in place. -/
def generating (f : OutputTiming → OutputTiming) (s : State) : State := { s with otg := f s.otg }

/-- A tune set pending. -/
def tuning (t : TuneSet) (s : State) : State := { s with pc := { s.pc with tune := t } }

/-- In SCAN with a strip next. -/
def scanning (k : Nat) (s : State) : State :=
  { s with otg := { s.otg with timing := .scan, tLast := 1000, nextStrip := k }, timeBase := 1000 + BitVec.ofNat 40 (40 * k) }

def noCapture : State := { State.reset with pf := { PacketFilter.powerOn with
  entries := (PacketFilter.powerOn.entries.set 0 ⟨true, 0x8202, 0xFFFF⟩).set 1 ⟨true, 0x8000, 0xF000⟩ } }

/-- A FIXED profile with lock on. -/
def lockTiny : Profile := { tiny with pacing := .fixed, fixedInterval := 200, lock := true }

/-- A frame one line short of its first strip, with Q known to be 1, in the open window. -/
def racing : State :=
  let s := timed .blankOpen sevenLines
  { s with pool := { s.pool with q := some 1 } }

/-- The request's first reply. -/
def firstReply (s : State) : Option Reply := s.ml.replies.head?

/-! The commands that cannot be delivered, and the table -/

theorem line_wellFormed (e : Bool) (p : List Pixel) : (Instr.line e p).wellFormed = decide (p.length ≤ 65535) := rfl

theorem packet_wellFormed (a b : Byte) (p : List Byte) :
    (Instr.packet a b p).wellFormed = decide (p.length ≤ 255) := rfl

theorem test_line_too_long : (Instr.line false (List.replicate 65536 px)).wellFormed = false := by
  rw [line_wellFormed, List.length_replicate]
  rfl

theorem test_line_longest : (Instr.line true (List.replicate 65535 px)).wellFormed = true := by
  rw [line_wellFormed, List.length_replicate]
  rfl

theorem test_packet_too_long : (Instr.packet 1 1 (List.replicate 256 0)).wellFormed = false := by
  rw [packet_wellFormed, List.length_replicate]
  rfl

theorem test_packet_longest : (Instr.packet 1 1 (List.replicate 255 0)).wellFormed = true := by
  rw [packet_wellFormed, List.length_replicate]
  rfl

theorem test_no_row_has_bits : ∀ w < 16, decodeTableWord 8 w = none := by decide

/-! The manual's worked figures -/

/-- The worked cases of the race threshold (section 3.4). -/
theorem test_race_threshold :
    raceThreshold { tiny with height := 2160, scanTime := 670000, raceMargin := 2 } 790050 = 44 ∧
    raceThreshold { tiny with height := 1080, scanTime := 335000 } 395000 = 22 ∧
    raceThreshold { tiny with height := 2160, scanTime := 800000, raceMargin := 2 } 790050 = 3 ∧
    raceThreshold { tiny with height := 480, scanTime := 100000, raceMargin := 16 } 1000000 = 60 ∧
    raceThreshold { tiny with height := 2160, scanTime := 670000, raceMargin := 2 } 987562 = 90 := by decide

def planProfile : Profile := { tiny with winMin := 694444, winMax := 2083333, repeatPlan := true }

/-- The worked cases of the repeat plan (section 3.5). -/
theorem test_repeat_plan :
    [2000000, 2500000, 3333333, 5000000, 16777216].map (fun ti => planOf (some planProfile) (some ti)) =
      [(false, 0, 0), (true, 2, 1250000), (true, 2, 1666666), (true, 3, 1666666), (true, 9, 1864135)] := by decide

def lockProfile : Profile :=
  { planProfile with pacing := .fixed, fixedInterval := 1666667, lock := true, lockGuard := 50000 }

/-- The first row, and the corrections of intervals 49 to 51, of the worked lock sequence (chapter 3). -/
theorem test_lock_sequence :
    phaseError lockProfile 900000 = -716667 ∧ correction lockProfile .acquire (-716667) = -13020 ∧
    clampFixed lockProfile (1666800 - 13020) = 1653780 ∧ fixedLower lockProfile = 1640626 ∧
    fixedUpper lockProfile = 1692708 ∧ correction lockProfile .acquire (-91574) = -11447 ∧
    correction lockProfile .acquire (-78554) = -9819 ∧ correction lockProfile .acquire (-67107) = -8388 := by decide

/-- The worked pixel of section 6.3, at both depths, with and without the mask 1008. -/
theorem test_pixel_path :
    let bank := List.replicate 128 ⟨0, 0, 0⟩ ++ [⟨2100, 0, 0⟩, ⟨2140, 0, 0⟩]
    lutMap bank Three.c0 513 = 2110 ∧ reduceDepth .d10 2110 = 528 ∧ reduceDepth .d8 2110 = 132 ∧
    maskComponent .d10 1008 528 = 528 ∧ maskComponent .d8 1008 132 = 128 := by decide

/-- The blank colour (0, 2048, 4095) leaves as (0, 512, 1023) at depth 10. -/
theorem test_blank_colour : blankPixel tiny.settings = ⟨0, 512, 1023⟩ := by decide

/-- Each channel takes its own component, entry and mask, and the blank colour its own value past the table. -/
theorem test_channels :
    let set : ScanSettings := { tiny.settings with lut := true, mask := ⟨1023, 1020, 1008⟩, blank := ⟨4, 84, 100⟩ }
    colourPixel set (List.replicate 257 ⟨40, 80, 160⟩) ⟨7, 8, 9⟩ = ⟨10, 20, 32⟩ ∧ blankPixel set = ⟨1, 20, 16⟩ := by decide

/-- The worked exchange of chapter 11: the clamped race_margin, and the reply's bytes. -/
theorem test_tune_exchange :
    check .tuneProfile (asked 0x15 ([0, 0, 1, 0x14, 1, 1] ++ List.replicate 22 0) (live tiny))
      (fun t => t.pc.tune.raceMargin = some 16 && t.pc.tune.tear = some .splice && t.pc.tune.race = none &&
        (firstReply t).map Reply.bytes = some [0x80, 7, 3, 0, 0, 0, 1]) = true := by decide

/-- The same request one byte short is refused MALFORMED, and no row but REQUEST_REFUSED answers it. -/
theorem test_tune_short :
    check .requestRefused (asked 0x15 (List.replicate 27 0) (live tiny))
      (fun t => (firstReply t).map Reply.bytes = some [0x80, 7, 2, 0, 1, 0]) = true := by decide

/-- The packet of tick 2000 of the worked capture sequence takes entry 1. -/
theorem test_packet_hits_entry_one :
    check (.packet 0x83 0x01 (List.replicate 10 5)) noCapture
      (fun t => (t.pf.captures[0]).isNone && (t.pf.captures[1]).isSome) = true := by decide

/-- R96: no hold under an attached source; a racing frame that reaches Q starts a NEW refresh of its own slot (R74). -/
theorem test_racing_refresh :
    (let s := after good { timed .blankOpen sevenLines with
        pool := { sevenLines.pool with q := some 1 } }
     s.otg.timing = .scan ∧ s.ps.lastKind = some .new ∧ s.pool.onScreen = some 0 ∧ s.pool.filling = some 0) := by
  decide

/-- R35, R36, R37: the sixteenth damaged or stray event in a row detaches a source from score 0. -/
theorem test_sixteen_stray_ends :
    ((afterAll (List.replicate 15 .frameEnd) (live tiny)).sp.score,
      (afterAll (List.replicate 15 .frameEnd) (live tiny)).sp.state,
      (afterAll (List.replicate 16 .frameEnd) (live tiny)).sp.score,
      (afterAll (List.replicate 16 .frameEnd) (live tiny)).sp.state) = (120, .guarded, 128, .detached) := by decide

/-- R29, R6: a truncating Frame Start takes frame 2; the first frame's record is closed as truncated. -/
theorem test_truncation :
    check .frameStart taking (fun t => t.sp.frameCounter = 2 && t.sp.score = 8 &&
      t.hr.map (fun r => (r.frameNo, r.truncated)) = [(1, true), (2, false)]) = true := by decide

/-- R165: a third message overruns into the marker, with its tag. -/
theorem test_overrun :
    (afterAll (([0x01, 1, 0, 0, 0x01, 2, 0, 0, 0x01, 3, 0, 0] : List Byte).map Instr.byteReceived)
      State.reset).ml.overrun = some 3 := by decide

/-! Witnesses: each hypothesis of an obligation, met by a concrete state -/

theorem witness_IdleStep :
    (let s : State := { State.reset with resetAsserted := true }
     s.pending = [] ∧ s.resetAsserted = true) ∧
    (State.reset.pending = [] ∧ State.reset.running ∧ dueEvents State.reset = []) ∧
    (let s : State := { live tiny with timeBase := 1050 }
     s.pending = [] ∧ dueEvents s ≠ []) := by
  unfold State.running
  decide

theorem witness_CommandsWithoutEffect :
    ((Instr.packet 1 1 (List.replicate 256 0)).wellFormed = false ∧
      Instr.frameEnd.wellFormed = true ∧ (after .powerOnReset (live tiny)).resetAsserted = true ∧
      Instr.frameEnd ≠ .powerOnReset ∧ Instr.frameEnd ≠ .resetNRelease) ∧
    (let s := State.reset
     tminDue s = false ∧ repeatDue s = false ∧ fixedDue s = false ∧ stripDue s = false ∧ scanEndDue s = false ∧
     gapDue s = false ∧ deferredDue s = false ∧ overrunDue s = false ∧ replySentDue s = false ∧
     noticeSentDue s = false) ∧
    (let s := asked 0x01 [] State.reset
     Instr.getStatus ∈ requestRows ∧ (∀ r, s.granted = some r → requestRow r ≠ .getStatus) ∧ s.granted ≠ none) := by
  refine ⟨⟨test_packet_too_long, rfl, rfl, by decide, by decide⟩, by decide, by decide, ?_, by decide⟩
  intro r hr
  obtain rfl := Option.some.inj hr
  decide

theorem witness_ScoreStaysInBand :
    let s : State := { moved .watch 63 (live tiny) with pending := [.frameEnd] }
    s.bandHolds ∧ ∃ t, step s = .next t ∧ t.sp.state = .guarded := by
  exact ⟨(⟨by decide, by decide⟩ : 32 ≤ 63 ∧ 63 ≤ 63), _, rfl, by decide⟩

theorem witness_RingStaysConsecutive :
    let s : State := { taking with pending := [.frameStart] }
    s.ringHolds ∧ ∃ t, step s = .next t ∧ t.hr.length = 2 := by
  refine ⟨⟨by decide, trivial, ?_⟩, _, rfl, by decide⟩
  intro r hr
  obtain rfl := Option.some.inj hr
  decide

theorem lawful_profileHolds (s : State) (h : s.pc = (live lawful).pc) (h' : s.otg = (live lawful).otg)
    (h'' : s.sp.state = .clean) : s.profileHolds := by
  unfold State.profileHolds
  rw [h, h', h'']
  refine ⟨by decide, ?_, ?_, by decide, by decide, by decide, by decide, by decide, by decide⟩
  · intro p hp
    obtain rfl := Option.some.inj hp
    exact ⟨limits, rfl, by unfold Profile.meets; decide⟩
  · intro p hp
    cases hp

theorem witness_ActiveProfileStaysLawful :
    let s : State := { live lawful with pending := [.signalLost] }
    s.profileHolds ∧ s.detachHolds ∧ ∃ t, step s = .next t ∧ t.sp.state = .detached := by
  refine ⟨lawful_profileHolds _ rfl rfl rfl, by unfold State.detachHolds; decide, _, rfl, by decide⟩

theorem witness_RolesStayConsistent :
    let s : State := { taking with pending := [.frameStart] }
    s.poolHolds ∧ s.fillingHolds ∧ s.pool.filling ≠ none ∧ ∃ t, step s = .next t := by
  refine ⟨?_, by unfold State.fillingHolds; decide, by decide, _, rfl⟩
  unfold State.poolHolds SlotPool.rolesHold
  decide

theorem identityBank_length : identityBank.length = 257 := by simp [identityBank, bankSize]

theorem witness_CapacitiesHold :
    let s : State := { taking with pending := [good] }
    Store.wf s.pool.store = true ∧ s.banksHold ∧ s.linkHolds ∧ s.filterHolds ∧
      ∃ t, step s = .next t ∧ t.pool.store ≠ [] := by
  refine ⟨rfl, ⟨identityBank_length, identityBank_length⟩, ⟨by decide, by decide, ?_, ?_⟩, ?_, _, rfl, by decide⟩
  · intro t ht
    cases ht
  · intro i c hc
    have : ∀ i : Fin 5, taking.ml.notices[i] = none := by decide
    rw [show ({ taking with pending := [good] } : State).ml.notices[i] = taking.ml.notices[i] from rfl, this i] at hc
    cases hc
  · intro i c hc
    have : ∀ i : Fin 4, taking.pf.captures[i] = none := by decide
    rw [show ({ taking with pending := [good] } : State).pf.captures[i] = taking.pf.captures[i] from rfl, this i] at hc
    cases hc

theorem witness_DeferredRepliesAreKept :
    let s : State := { State.reset with pending := [.lutCommit] }
    s.deferredHolds ∧ ∃ t, step s = .next t := by
  refine ⟨?_, _, rfl⟩
  refine ⟨by simp [State.reset, MessageLink.powerOn, OutputTiming.powerOn],
    by simp [State.reset, MessageLink.powerOn, ColourStage.powerOn],
    by simp [State.reset, MessageLink.powerOn, OutputTiming.powerOn], ?_, by decide⟩
  intro k
  cases k <;> simp [State.reset, MessageLink.powerOn, MessageLink.deferred]

theorem witness_PacingAndLockHold :
    let s : State := { live lawful with pending := [.frameStart] }
    s.pacingHolds ∧ s.profileHolds ∧ s.lockHolds ∧ ∃ t, step s = .next t := by
  refine ⟨by unfold State.pacingHolds; decide, lawful_profileHolds _ rfl rfl rfl, ⟨by decide, ?_⟩, _, rfl⟩
  intro p hp
  obtain rfl := Option.some.inj hp
  decide

theorem witness_FreeSlotAlwaysFound :
    taking.fillingHolds ∧ taking.pool.filling = some 0 := by
  refine ⟨by unfold State.fillingHolds; decide, by decide⟩

theorem witness_OnlyTheirCommandsChange :
    exec .getIdentity (asked 0x01 [] (live tiny)) = .next (after .getIdentity (asked 0x01 [] (live tiny))) ∧
    Instr.getIdentity ≠ .powerOnReset := ⟨rfl, by decide⟩

theorem witness_BanksOnlyExchange :
    (∃ t, exec .lutWrite (asked 0x20 [0, 0, 1, 0, 0, 0] State.reset) = .next t) ∧
    (∃ t, exec .lutCommit (asked 0x21 [] State.reset) = .next t) := ⟨⟨_, rfl⟩, ⟨_, rfl⟩⟩

theorem witness_FatesAreFinal :
    exec .frameStart (live tiny) = .next taking ∧ taking.hr ≠ [] := ⟨rfl, by decide⟩

/-! Witnesses: requests -/

def ask (type : Byte) (payload : List Byte) : Request := ⟨type, 7, payload, .none⟩

theorem witness_GetIdentityAnswers : (asked 0x01 [] State.reset).serves 0x01 (ask 0x01 []) := by
  unfold State.serves State.running
  decide

theorem witness_ReadRequestsAnswer :
    (asked 0x02 [] (live tiny)).serves 0x02 (ask 0x02 []) ∧
    (asked 0x40 [255] taking).serves 0x40 (ask 0x40 [255]) ∧
    (asked 0x22 [2, 0, 0, 1, 0] State.reset).serves 0x22 (ask 0x22 [2, 0, 0, 1, 0]) ∧
    (asked 0x22 [1, 0, 1, 1, 1] State.reset).serves 0x22 (ask 0x22 [1, 0, 1, 1, 1]) := by
  unfold State.serves State.running
  decide

theorem witness_GetProfileAnswers :
    ((asked 0x16 [] (live tiny)).serves 0x16 (ask 0x16 []) ∧ (asked 0x16 [] (live tiny)).pc.active = some tiny) ∧
    ((asked 0x16 [] State.reset).serves 0x16 (ask 0x16 []) ∧ (asked 0x16 [] State.reset).pc.active = none) := by
  unfold State.serves State.running
  decide

theorem witness_SetNoticesAnswers :
    (asked 0x03 [31] State.reset).serves 0x03 (ask 0x03 [31]) ∧
    (asked 0x03 [32] State.reset).serves 0x03 (ask 0x03 [32]) := by
  unfold State.serves State.running
  decide

/-- A part that holds a proposal. -/
def holding (p : Profile) (s : State) : State := { s with pc := { s.pc with propState := .held, proposal := some p } }

/-- A part with the configuration fault. -/
def faulty (s : State) : State := { s with pc := { s.pc with faulted := true } }

theorem witness_SequenceCheckAndClearFault :
    (let s := asked 0x21 [] (holding lawful (live lawful))
     s.serves 0x21 (ask 0x21 []) ∧ s.pc.propState = .held) ∧
    (let s := asked 0x21 [] (faulty (live lawful))
     s.serves 0x21 (ask 0x21 []) ∧ s.pc.propState ≠ .held ∧ s.pc.faulted = true) ∧
    (asked 0x14 [] (faulty State.reset)).serves 0x14 (ask 0x14 []) := by
  unfold State.serves State.running
  decide

theorem witness_SetPanelLimitsAnswers :
    let s := asked 0x10 (leBytes 4 208333 ++ leBytes 4 500000 ++ leBytes 4 1 ++ leBytes 4 0) State.reset
    s.serves 0x10 (ask 0x10 (leBytes 4 208333 ++ leBytes 4 500000 ++ leBytes 4 1 ++ leBytes 4 0)) ∧ s.passesCheck ∧
      check .setPanelLimits s (fun t => t.pc.limits = some limits) = true := by
  unfold State.serves State.running State.passesCheck
  decide

/-- The limits set, no profile. -/
def limited : State := { State.reset with pc := { ProfileCtl.powerOn with limits := some limits } }

theorem witness_ProposeProfileAnswers :
    (let s := asked 0x11 lawful.bytes State.reset
     s.serves 0x11 (ask 0x11 lawful.bytes) ∧ s.passesCheck ∧ s.pc.limits = none) ∧
    (let s := asked 0x11 lawful.bytes { limited with pc := { limited.pc with propState := .confirmed } }
     s.serves 0x11 (ask 0x11 lawful.bytes) ∧ s.passesCheck ∧ s.pc.limits = some limits ∧ s.pc.propState = .confirmed) ∧
    (let s := asked 0x11 tiny.bytes limited
     s.serves 0x11 (ask 0x11 tiny.bytes) ∧ s.passesCheck ∧ s.pc.limits = some limits ∧ s.pc.propState ≠ .confirmed ∧
       (profileFailure limits (readProfile tiny.bytes)).isSome = true) ∧
    (let s := asked 0x11 lawful.bytes limited
     s.serves 0x11 (ask 0x11 lawful.bytes) ∧ s.passesCheck ∧ s.pc.limits = some limits ∧ s.pc.propState ≠ .confirmed ∧
       profileFailure limits (readProfile lawful.bytes) = none) := by
  unfold State.serves State.running State.passesCheck
  decide

theorem witness_ProfileRecordRoundTrip :
    lawful.bytes.length = 48 ∧ profileFailure limits (readProfile lawful.bytes) = none ∧
      (readProfile lawful.bytes).toProfile = lawful := by decide

theorem witness_ConfirmProfileDefers :
    ((asked 0x12 [] (live tiny)).serves 0x12 (ask 0x12 []) ∧ (asked 0x12 [] (live tiny)).pc.propState ≠ .held) ∧
    (let s := asked 0x12 [] (holding tiny (timed .scan (live tiny)))
     s.serves 0x12 (ask 0x12 []) ∧ s.pc.propState = .held ∧ s.otg.timing = .scan) := by
  unfold State.serves State.running
  decide

theorem witness_ApplicationRestartsCycle :
    (let s := asked 0x12 [] (holding planProfile (live tiny))
     s.serves 0x12 (ask 0x12 []) ∧ s.pc.propState = .held ∧ s.pc.proposal = some planProfile ∧ s.pc.active = some tiny ∧
       s.otg.timing ∈ [Timing.blankMin, .blankOpen, .blank] ∧ s.otg.pendingReset = false ∧
       tiny.width = planProfile.width ∧ tiny.height = planProfile.height) ∧
    (let s := asked 0x12 [] (holding lawful (timed .blank taking))
     s.serves 0x12 (ask 0x12 []) ∧ s.pc.propState = .held ∧ s.pc.proposal = some lawful ∧ s.pc.active = some tiny ∧
       s.otg.timing ∈ [Timing.blankMin, .blankOpen, .blank] ∧ s.otg.pendingReset = false ∧
       ¬ (tiny.width = lawful.width ∧ tiny.height = lawful.height)) := by
  unfold State.serves State.running
  decide

/-- An interval sample and a fill sample entered at this very moment, their windows of two. -/
def sampled (s : State) : State :=
  { s with pu := { s.pu with
    intervals := [5, 6], fills := [7, 8], fi := some 7, sampledNow := true, filledNow := true } }

/-- The point meets samples of the same moment, a locked generator, and a foreign frame in progress; another profile of the
same geometry leaves the window or keeps it. -/
theorem witness_ApplicationRestartsCycle_sampled :
    (let s := asked 0x12 [] (holding lawful (generating (fun o => { o with lock := .track })
        (sampled (conditioned .foreign (live lockTiny)))))
     s.serves 0x12 (ask 0x12 []) ∧ s.pc.propState = .held ∧ s.pc.proposal = some lawful ∧ s.pc.active = some lockTiny ∧
       s.otg.timing ∈ [Timing.blankMin, .blankOpen, .blank] ∧ s.otg.pendingReset = false ∧ s.otg.lock ≠ .freeRun ∧
       ¬ (lockTiny.width = lawful.width ∧ lockTiny.height = lawful.height) ∧ s.pu.sampledNow = true ∧
       s.pu.filledNow = true) ∧
    (let s := asked 0x12 [] (holding { tiny with raceMargin := 1 } (sampled (live tiny)))
     s.serves 0x12 (ask 0x12 []) ∧ s.pc.propState = .held ∧ s.pc.proposal = some { tiny with raceMargin := 1 } ∧
       s.pc.active = some tiny ∧ s.otg.timing ∈ [Timing.blankMin, .blankOpen, .blank] ∧ s.otg.pendingReset = false) ∧
    (tiny.pacing = planProfile.pacing ∧ tiny.winMin ≠ planProfile.winMin) := by
  unfold State.serves State.running
  decide

/-- R50, R52, R54: a tick later no sample is of the moment of an emptying. -/
theorem test_tick_ages_samples :
    (let t := tick (sampled (live tiny))
     t.timeBase = 1001 ∧ t.pu.sampledNow = false ∧ t.pu.filledNow = false ∧ t.pu.intervals = [5, 6] ∧
       t.pu.fills = [7, 8]) := by decide

/-- The two orders of an emptying and a sample of the same moment, and a sample of another moment (R52, R54). -/
theorem test_emptied :
    emptied true true [5, 6] = [6] ∧ emptied false true [5, 6] = [] ∧ emptied true false [5, 6] = [] ∧
    emptied true true [] = [] := by decide

theorem witness_FirstApplicationStartsOutput :
    (let s := asked 0x12 [] (holding lawful limited)
     s.serves 0x12 (ask 0x12 []) ∧ s.pc.propState = .held ∧ s.pc.proposal = some lawful ∧ s.pc.active = none ∧
       s.otg.timing = .idle ∧ s.sp.state = .unarmed ∧ s.pc.tune = TuneSet.empty ∧ s.cs.shadowPending = false ∧
       s.sp.signal = false ∧ lawful.pacing = .adaptive) ∧
    (let s := asked 0x12 [] (holding lockProfile (after .signalRestored limited))
     s.serves 0x12 (ask 0x12 []) ∧ s.pc.propState = .held ∧ s.pc.proposal = some lockProfile ∧ s.pc.active = none ∧
       s.otg.timing = .idle ∧ s.sp.state = .unarmed ∧ s.pc.tune = TuneSet.empty ∧ s.cs.shadowPending = false ∧
       s.sp.signal = true ∧ lockProfile.pacing = .fixed) := by
  unfold State.serves State.running
  decide

theorem witness_WithdrawProfileAnswers :
    (asked 0x13 [] (holding lawful limited)).serves 0x13 (ask 0x13 []) := by
  unfold State.serves State.running
  decide

theorem witness_TuneProfileAnswers :
    (let s := asked 0x15 (List.replicate 28 0) State.reset
     s.serves 0x15 (ask 0x15 (List.replicate 28 0)) ∧ s.passesCheck ∧ s.pc.active = none) ∧
    (let s := asked 0x15 (2 :: List.replicate 27 0) (live tiny)
     s.serves 0x15 (ask 0x15 (2 :: List.replicate 27 0)) ∧ s.passesCheck ∧ s.pc.active = some tiny ∧
       (firstFailure (tuneChecks (2 :: List.replicate 27 0))).isSome = true) ∧
    (let s := asked 0x15 (1 :: 1 :: List.replicate 26 0) (live tiny)
     s.serves 0x15 (ask 0x15 (1 :: 1 :: List.replicate 26 0)) ∧ s.passesCheck ∧ s.pc.active = some tiny ∧
       firstFailure (tuneChecks (1 :: 1 :: List.replicate 26 0)) = none) := by
  unfold State.serves State.running State.passesCheck
  decide

/-- A part with a commit pending. -/
def committing (s : State) : State :=
  { s with cs := { s.cs with shadowPending := true }, ml := { s.ml with defLut := .waiting 9 } }

theorem witness_LutWriteAnswers :
    (let s := asked 0x20 [0, 0, 0, 0] (committing State.reset)
     s.serves 0x20 (ask 0x20 [0, 0, 0, 0]) ∧ s.passesCheck ∧ s.cs.shadowPending = true) ∧
    (let s := asked 0x20 [1, 1, 0, 0] State.reset
     s.serves 0x20 (ask 0x20 [1, 1, 0, 0]) ∧ s.passesCheck ∧ s.cs.shadowPending = false ∧
       256 < fieldAt [1, 1, 0, 0] 0 2) ∧
    (let s := asked 0x20 [0, 1, 0, 0] State.reset
     s.serves 0x20 (ask 0x20 [0, 1, 0, 0]) ∧ s.passesCheck ∧ s.cs.shadowPending = false ∧
       fieldAt [0, 1, 0, 0] 0 2 ≤ 256 ∧ fieldAt [0, 1, 0, 0] 2 2 = 0) ∧
    (let s := asked 0x20 [0, 1, 1, 0, 0, 0] State.reset
     s.serves 0x20 (ask 0x20 [0, 1, 1, 0, 0, 0]) ∧ s.passesCheck ∧ s.cs.shadowPending = false ∧
       fieldAt [0, 1, 1, 0, 0, 0] 0 2 ≤ 256 ∧ 1 ≤ fieldAt [0, 1, 1, 0, 0, 0] 2 2 ∧
       fieldAt [0, 1, 1, 0, 0, 0] 2 2 ≤ 771) := by
  unfold State.serves State.running State.passesCheck
  decide

theorem witness_LutCommitAnswers :
    (let s := asked 0x21 [] (committing (live tiny))
     s.serves 0x21 (ask 0x21 []) ∧ s.passesCheck ∧ s.cs.shadowPending = true) ∧
    (let s := asked 0x21 [] State.reset
     s.serves 0x21 (ask 0x21 []) ∧ s.passesCheck ∧ s.cs.shadowPending = false ∧ s.otg.timing = .idle) ∧
    (let s := asked 0x21 [] (live tiny)
     s.serves 0x21 (ask 0x21 []) ∧ s.passesCheck ∧ s.cs.shadowPending = false ∧ s.otg.timing ≠ .idle) := by
  unfold State.serves State.running State.passesCheck
  decide

theorem witness_FilterRequestsAnswer :
    (let p : List Byte := [4, 0, 0, 0, 0, 0]
     (asked 0x30 p State.reset).serves 0x30 (ask 0x30 p) ∧ (asked 0x30 p State.reset).passesCheck ∧ 3 < fieldAt p 0 1) ∧
    (let p : List Byte := [3, 2, 0, 0, 0, 0]
     (asked 0x30 p State.reset).serves 0x30 (ask 0x30 p) ∧ (asked 0x30 p State.reset).passesCheck ∧ fieldAt p 0 1 ≤ 3 ∧
       1 < fieldAt p 1 1) ∧
    (let p : List Byte := [3, 1, 0, 0, 0, 0]
     (asked 0x30 p State.reset).serves 0x30 (ask 0x30 p) ∧ (asked 0x30 p State.reset).passesCheck ∧
       (3 : Fin 4).val = fieldAt p 0 1 ∧ fieldAt p 1 1 ≤ 1) ∧
    ((asked 0x31 [4] noCapture).serves 0x31 (ask 0x31 [4]) ∧ 3 < fieldAt [4] 0 1) ∧
    ((asked 0x31 [3] noCapture).serves 0x31 (ask 0x31 [3]) ∧ (3 : Fin 4).val = fieldAt [3] 0 1) := by
  unfold State.serves State.running State.passesCheck
  decide

/-- A detached source, its detach time set. -/
def detached : State := after .signalLost (live tiny)

theorem witness_ReattachSourceAnswers :
    ((asked 0x50 [] (live tiny)).serves 0x50 (ask 0x50 []) ∧ (asked 0x50 [] (live tiny)).sp.state ≠ .detached) ∧
    ((asked 0x50 [] detached).serves 0x50 (ask 0x50 []) ∧ (asked 0x50 [] detached).sp.state = .detached ∧
      (asked 0x50 [] detached).otg.lock = .freeRun) := by
  unfold State.serves State.running
  decide

/-- A part with an application and a commit pending in SCAN. -/
def crowded : State :=
  let s := committing (timed .scan (live lawful))
  { s with
    pc := { s.pc with propState := .confirmed, proposal := some lawful }
    otg := { s.otg with pendingApp := true }
    ml := { s.ml with defProfile := .waiting 8 } }

theorem witness_PipelineResetAccepted :
    ((asked 0x51 [] State.reset).serves 0x51 (ask 0x51 []) ∧ (asked 0x51 [] State.reset).pc.active = none) ∧
    (let s := asked 0x51 [] { live tiny with otg := { (live tiny).otg with timing := .scan, pendingReset := true } }
     s.serves 0x51 (ask 0x51 []) ∧ s.pc.active ≠ none ∧ s.otg.pendingReset = true) ∧
    (let s := asked 0x51 [] crowded
     s.serves 0x51 (ask 0x51 []) ∧ s.pc.active ≠ none ∧ s.otg.pendingReset = false ∧ s.otg.timing = .scan ∧
       s.profileHolds ∧ s.ml.defProfile = .waiting 8 ∧ s.ml.defLut = .waiting 9 ∧ s.otg.pendingApp = true ∧
       s.cs.shadowPending = true ∧ s.ml.replies.length ≤ 2) := by
  refine ⟨by unfold State.serves State.running; decide, by unfold State.serves State.running; decide,
    by unfold State.serves State.running; decide, by decide, by decide, by decide, ?_, by decide⟩
  refine ⟨by decide, ?_, ?_, by decide, by decide, by decide, by decide, by decide, by decide⟩ <;>
  · intro p hp
    obtain rfl := Option.some.inj hp
    exact ⟨limits, rfl, by unfold Profile.meets; decide⟩

/-- A Pipeline Reset in SCAN with an application and a commit pending or not. -/
def crowdedBy (app lut : Bool) (replies : List Reply) : State :=
  let s := timed .scan (live lawful)
  asked 0x51 [] { s with
    pc := { s.pc with propState := if app then .confirmed else .none, proposal := if app then some lawful else none }
    otg := { s.otg with pendingApp := app }
    cs := { s.cs with shadowPending := lut }
    ml := { s.ml with
      defProfile := if app then .waiting 8 else .empty, defLut := if lut then .waiting 9 else .empty, replies := replies } }

theorem crowdedBy_profileHolds (app lut : Bool) (replies : List Reply) : (crowdedBy app lut replies).profileHolds := by
  have meets : ∀ p, some lawful = some p → ∃ l, some limits = some l ∧ p.meets l := by
    intro p hp
    obtain rfl := Option.some.inj hp
    exact ⟨limits, rfl, by unfold Profile.meets; decide⟩
  have h : (crowdedBy app false []).profileHolds := by
    refine ⟨by cases app <;> decide, meets, ?_, by cases app <;> decide, by cases app <;> decide,
      by cases app <;> decide, by cases app <;> decide, by cases app <;> decide, fun _ => rfl⟩
    cases app
    · intro p hp
      cases hp
    · exact meets
  exact h

/-- Neither is pending, one of them, and both with one free entry left. -/
theorem witness_PipelineResetAccepted_replies :
    (∀ app lut : Bool,
     let s := crowdedBy app lut []
     s.serves 0x51 (ask 0x51 []) ∧ s.profileHolds ∧ s.otg.pendingApp = app ∧ s.cs.shadowPending = lut ∧
       (app = true → s.ml.defProfile = .waiting 8) ∧ (lut = true → s.ml.defLut = .waiting 9)) ∧
    (let s := crowdedBy true true (List.replicate 3 ⟨1, .ok, 0, []⟩)
     s.serves 0x51 (ask 0x51 []) ∧ s.profileHolds ∧ s.ml.replies.length = 3) := by
  refine ⟨fun app lut => ⟨?_, crowdedBy_profileHolds _ _ _, rfl, rfl, ?_, ?_⟩, ?_, crowdedBy_profileHolds _ _ _, rfl⟩
  · unfold State.serves State.running
    cases app <;> cases lut <;> decide
  · rintro rfl
    rfl
  · rintro rfl
    rfl
  · unfold State.serves State.running
    decide

theorem witness_ResetPointEmptiesPath :
    (let s := asked 0x51 [] (committing (live lawful))
     s.serves 0x51 (ask 0x51 []) ∧ s.pc.active = some lawful ∧ s.otg.pendingReset = false ∧ s.otg.timing ≠ .scan ∧
       s.profileHolds ∧ s.sp.signal = true ∧ s.cs.shadowPending = true ∧ s.ml.defLut = .waiting 9 ∧
       s.ml.replies.length ≤ 2) ∧
    (let s := asked 0x51 [] { live lawful with sp := { (live lawful).sp with signal := false } }
     s.serves 0x51 (ask 0x51 []) ∧ s.pc.active = some lawful ∧ s.otg.pendingReset = false ∧ s.otg.timing ≠ .scan ∧
       s.profileHolds ∧ s.sp.signal = false ∧ s.cs.shadowPending = false) := by
  refine ⟨⟨by unfold State.serves State.running; decide, by decide, by decide, by decide,
    lawful_profileHolds _ rfl rfl rfl, by decide⟩, by unfold State.serves State.running; decide, by decide, by decide,
    by decide, lawful_profileHolds _ rfl rfl rfl, by decide⟩

/-- The reset point meets samples of the same moment and a locked generator, and moves the source out of GUARDED. -/
theorem witness_ResetPointEmptiesPath_sampled :
    let s := asked 0x51 [] (sampled (moved .guarded 70 (generating (fun o => { o with lock := .track })
      (timed .blankOpen (live lawful)))))
    s.serves 0x51 (ask 0x51 []) ∧ s.pc.active = some lawful ∧ s.otg.pendingReset = false ∧ s.otg.timing ≠ .scan ∧
      s.sp.signal = true ∧ s.sp.state ≠ .clean ∧ s.otg.lock ≠ .freeRun ∧ s.pu.sampledNow = true ∧
      s.pu.filledNow = true := by
  unfold State.serves State.running
  decide

/-! Witnesses: the message link -/

def queued (r : Request) (s : State) : State := { s with ml := { s.ml with slots := [r] } }

theorem witness_ArbiterGrants :
    (let r : Request := ⟨0x99, 7, [], .malformed⟩
     (queued r State.reset).running ∧ (queued r State.reset).granted = some r ∧ r.entry = .malformed) ∧
    (let r : Request := ⟨0x99, 7, [], .tooLong⟩
     (queued r State.reset).running ∧ (queued r State.reset).granted = some r ∧ r.entry = .tooLong) ∧
    (let r : Request := ⟨0x99, 7, [], .none⟩
     (queued r State.reset).running ∧ (queued r State.reset).granted = some r ∧ r.entry = .none ∧
       lengthFits r.type.toNat r.payload = none) ∧
    (let r : Request := ⟨0x01, 7, [0], .none⟩
     (queued r State.reset).running ∧ (queued r State.reset).granted = some r ∧ r.entry = .none ∧
       lengthFits r.type.toNat r.payload = some false) ∧
    (let s : State := { State.reset with ml := { MessageLink.powerOn with overrun := some 3 } }
     s.running ∧ s.ml.replies.length < 4 ∧ s.ml.doneOrder = [] ∧ s.ml.overrun = some 3) ∧
    (let s : State := { State.reset with ml := { MessageLink.powerOn with
       doneOrder := [.lutCommit], defLut := .completed 3 .ok } }
     s.running ∧ s.ml.replies.length < 4 ∧ s.ml.doneOrder = [DeferredKind.lutCommit] ∧
       s.ml.deferred .lutCommit = .completed 3 .ok) := by
  unfold State.running
  decide

/-- An assembler in a state with bytes of a partial message, the last of them received at tick 0. -/
def assembling (a : AsmState) (bytes : List Byte) (now : Time) : State :=
  { State.reset with timeBase := now, ml := { MessageLink.powerOn with asm := a, partialMsg := bytes, lastByte := some 0 } }

theorem witness_AssemblerTakesByte :
    (State.reset.running ∧ gapDue State.reset = false ∧ State.reset.ml.asm = .waiting) ∧
    (let s := assembling .discarding [] 4000
     s.running ∧ gapDue s = false ∧ s.ml.asm = .discarding) ∧
    (let s := assembling .header [1] 4000
     s.running ∧ gapDue s = false ∧ s.ml.asm = .header ∧ (s.ml.partialMsg ++ [7]).length < 4) ∧
    (let s := assembling .header [0x20, 7, 1] 4000
     s.running ∧ gapDue s = false ∧ s.ml.asm = .header ∧ 2048 < declaredLength (s.ml.partialMsg ++ [8]) ∧
       declaredLength (s.ml.partialMsg ++ [0]) = 1) ∧
    (let s := assembling .header [0x20, 7, 0] 4000
     s.running ∧ gapDue s = false ∧ s.ml.asm = .header ∧ declaredLength (s.ml.partialMsg ++ [0]) = 0 ∧
       declaredLength (s.ml.partialMsg ++ [8]) = 2048) ∧
    (let s := assembling .payload [3, 7, 2, 0] 4000
     s.running ∧ gapDue s = false ∧ s.ml.asm = .payload ∧
       (s.ml.partialMsg ++ [1]).length < 4 + declaredLength (s.ml.partialMsg ++ [1])) ∧
    (let s := assembling .payload [3, 7, 1, 0] 4000
     s.running ∧ gapDue s = false ∧ s.ml.asm = .payload ∧
       4 + declaredLength (s.ml.partialMsg ++ [1]) ≤ (s.ml.partialMsg ++ [1]).length) ∧
    (let s := assembling .header [3, 7] 4001
     s.running ∧ s.ml.lastByte = some 0 ∧ 4000 < elapsed s.timeBase 0 ∧ s.ml.asm ∈ [AsmState.header, .payload] ∧
       2 ≤ s.ml.partialMsg.length) ∧
    (let s := assembling .header [3] 4001
     s.running ∧ s.ml.lastByte = some 0 ∧ 4000 < elapsed s.timeBase 0 ∧ s.ml.asm ∈ [AsmState.header, .payload] ∧
       s.ml.partialMsg.length < 2) := by
  unfold State.running
  decide

/-- A byte and a break that find a gap run out: in a header with type and tag, with type alone, and in DISCARDING. -/
theorem witness_AssemblerTakesByte_late :
    (let s := assembling .header [3, 7] 4001
     s.running ∧ gapDue s = true ∧ s.ml.asm ∈ [AsmState.header, .payload] ∧ 2 ≤ s.ml.partialMsg.length) ∧
    (let s := assembling .header [3] 4001
     s.running ∧ gapDue s = true ∧ s.ml.partialMsg.length < 2) ∧
    (let s := assembling .discarding [] 4001
     s.running ∧ gapDue s = true ∧ s.ml.asm ∉ [AsmState.header, .payload]) := by
  unfold State.running
  decide

/-- R163: the byte after a gap is the first of a new message, and the old one is handed over MALFORMED. -/
theorem test_late_byte :
    check (.byteReceived 9) (assembling .header [3, 7] 4001) (fun t =>
      t.ml.partialMsg = [9] && t.ml.slots = [⟨3, 7, [], .malformed⟩]) = true := by decide

theorem witness_MessageIsAssembled :
    State.reset.running ∧ State.reset.ml.asm = .waiting ∧ ([31] : List Byte).length ≤ 2048 ∧
      2048 < 2049 ∧ 2049 < 65536 ∧
      (afterAll ([0x03, 7, 1, 0, 31].map Instr.byteReceived) State.reset).ml.slots = [⟨0x03, 7, [31], .none⟩] := by
  unfold State.running
  decide

/-- A completed commit reply waiting beside as many queued replies. -/
def done (n : Nat) : State :=
  { State.reset with ml := { MessageLink.powerOn with
    doneOrder := [.lutCommit], defLut := .completed 3 .ok, replies := List.replicate n ⟨7, .ok, 0, []⟩ } }

theorem done_deferredHolds (n : Nat) : (done n).deferredHolds := by
  refine ⟨by simp [done, State.reset, MessageLink.powerOn, OutputTiming.powerOn],
    by simp [done, State.reset, MessageLink.powerOn, ColourStage.powerOn],
    by simp [done, State.reset, MessageLink.powerOn, OutputTiming.powerOn], ?_, by simp [done]⟩
  intro k
  cases k <;> simp [done, State.reset, MessageLink.powerOn, MessageLink.deferred]

/-- The claims with three queued replies, where one entry is free, and with four, where none is; and the notices of a
disabled kind, of one with no pending copy, and of one at the top of its count. -/
theorem witness_TransmitterChooses_claims :
    ((done 3).deferredHolds ∧ (settle (done 3)).ml.doneOrder = []) ∧
    ((done 4).deferredHolds ∧ (settle (done 4)).ml.doneOrder = [.lutCommit]) ∧
    State.reset.ml.enables[(Notice.lockState .track).kind] = false ∧
    (let s : State := { State.reset with ml := { MessageLink.powerOn with enables := Vector.replicate 5 true } }
     s.ml.enables[(Notice.lockState .track).kind] = true ∧ s.ml.notices[(Notice.lockState .track).kind] = none) ∧
    (let s : State := { State.reset with ml := { MessageLink.powerOn with
       enables := Vector.replicate 5 true, notices := MessageLink.powerOn.notices.set 1 (some ⟨.lockState .track, 255⟩) } }
     s.ml.enables[(Notice.lockState .track).kind] = true ∧
       s.ml.notices[(Notice.lockState .track).kind] = some ⟨.lockState .track, 255⟩) :=
  ⟨⟨done_deferredHolds 3, by decide⟩, ⟨done_deferredHolds 4, by decide⟩, by decide, by decide, by decide⟩

theorem witness_TransmitterChooses :
    (let s : State := { State.reset with timeBase := 2400, ml := { MessageLink.powerOn with
       tx := .reply 0, replies := [⟨7, .ok, 0, []⟩] } }
     s.running ∧ s.ml.tx = .reply 0 ∧ s.ml.replies = [⟨7, .ok, 0, []⟩] ∧
       s.timeBase = plusTicks 0 (400 * (Reply.mk 7 .ok 0 []).bytes.length)) ∧
    (let m : NoticeMsg := ⟨.lockState .track, 1⟩
     let s : State := { State.reset with
       timeBase := plusTicks 0 (400 * m.bytes.length), ml := { MessageLink.powerOn with tx := .notice m 0 } }
     s.running ∧ s.ml.tx = .notice m 0 ∧ s.timeBase = plusTicks 0 (400 * m.bytes.length)) ∧
    (let s : State := { State.reset with ml := { MessageLink.powerOn with
       enables := Vector.replicate 5 true, notices := MessageLink.powerOn.notices.set 4 (some ⟨.lockState .track, 1⟩) } }
     s.ml.doneOrder = [] ∧ s.ml.tx = .idle ∧ s.ml.replies = [] ∧ s.ml.enables[(4 : Fin 5)] = true ∧
       s.ml.notices[(4 : Fin 5)] = some ⟨.lockState .track, 1⟩ ∧
       ∀ j < (4 : Fin 5), s.ml.enables[j] = true → s.ml.notices[j] = none) ∧
    (let s : State := { State.reset with ml := { MessageLink.powerOn with replies := [⟨7, .ok, 0, []⟩] } }
     s.ml.tx = .idle ∧ s.ml.replies ≠ []) ∧
    (State.reset.ml.tx = .idle ∧ State.reset.ml.replies = [] ∧
      ∀ i : Fin 5, State.reset.ml.enables[i] = true → State.reset.ml.notices[i] = none) := by
  unfold State.running
  decide

/-! Witnesses: the source port and the filter -/

theorem witness_SignalRestoredSetsFlag : detached.running := rfl

theorem witness_SignalLostDetaches :
    (State.reset.running ∧ State.reset.sp.state = .unarmed) ∧ (detached.running ∧ detached.sp.state = .detached) ∧
    (taking.running ∧ taking.sp.state.attached = true ∧ taking.poolHolds ∧ taking.fillingHolds) := by
  unfold State.running State.poolHolds SlotPool.rolesHold State.fillingHolds
  decide

/-- Signal Lost in a foreign frame, and with the filling frame on screen; in both the lock is out of FREE_RUN. -/
theorem witness_SignalLostDetaches_frames :
    (let s := generating (fun o => { o with lock := .track }) (conditioned .foreign (live lockTiny))
     s.running ∧ s.sp.state.attached = true ∧ s.poolHolds ∧ s.fillingHolds ∧ s.sp.cond = .foreign ∧
       s.otg.lock ≠ .freeRun) ∧
    (let s := generating (fun o => { o with lock := .track, planCount := 2 }) (after good { timed .blankOpen sevenLines with
       pool := { sevenLines.pool with q := some 1 } })
     s.running ∧ s.sp.state.attached = true ∧ s.poolHolds ∧ s.fillingHolds ∧ s.sp.cond = .taken ∧
       s.pool.filling = some 0 ∧ s.pool.onScreen = some 0 ∧ 0 < s.otg.planCount) := by
  unfold State.running State.poolHolds SlotPool.rolesHold State.fillingHolds
  refine ⟨?_, ?_⟩ <;> decide

/-- R77: a run of planned repeats loses its plan with the windows, and the backstop is loaded, t_last + Tmax. -/
theorem test_plan_run_ends :
    check .signalLost (generating (fun o => { o with planCount := 2 }) (live tiny))
      (fun t => t.otg.planCount = 0 && t.otg.repeatTimer = .running 1250) = true := by decide

theorem witness_FrameStartTakesSlot :
    (live tiny).running ∧ (live tiny).sp.state.attached = true ∧ (live tiny).pool.filling = none ∧
      (live tiny).sp.cond ∈ [FrameCond.none, .ignored, .foreign] := by
  unfold State.running
  decide

/-- The forms that find an ignored frame and a foreign frame, with the bad strips of its close, in progress. -/
theorem witness_FrameStartTakesSlot_passed :
    (let s := conditioned .ignored (live tiny)
     s.running ∧ s.sp.state.attached = true ∧ s.pool.filling = none ∧
       s.sp.cond ∈ [FrameCond.none, .ignored, .foreign]) ∧
    (let s := afterAll [good, .line true [px, px], .line false [px]] (after .frameStart (live { tiny with width := 2 }))
     s.running ∧ s.sp.state.attached = true ∧ s.pool.filling = none ∧ s.sp.cond = .foreign ∧
       s.sp.cond ∈ [FrameCond.none, .ignored, .foreign] ∧ s.hr.length = 1) := by
  unfold State.running
  decide

/-- A reference to an earlier frame. -/
def referred (time : Time) (foreign : Bool) (s : State) : State :=
  { s with sp := { s.sp with prevRef := some ⟨time, foreign⟩ } }

/-- A sample is formed, by the fourth of which a run of planned repeats takes a new plan and the lock drops; or it is not,
the reference being foreign or absent. -/
theorem witness_FrameStartTakesSlot_sampled :
    (let s0 := referred 600 false (generating (fun o => { o with lock := .track, planCount := 3 }) (live planProfile))
     let s : State := { s0 with pu := { s0.pu with intervals := [9000000, 9000000, 9000000] } }
     s.running ∧ s.sp.state.attached = true ∧ s.pool.filling = none ∧ s.sp.cond = .none ∧ s.samples ∧
       s.sampledWindow = [9000000, 9000000, 9000000, 400] ∧ 0 < s.otg.planCount ∧ s.otg.lock ≠ .freeRun) ∧
    ¬ (referred 600 true (live tiny)).samples ∧ ¬ (live tiny).samples := by
  refine ⟨⟨rfl, by decide, by decide, by decide, ⟨⟨600, false⟩, rfl, rfl⟩, by decide, by decide, by decide⟩, ?_, ?_⟩
  · rintro ⟨ref, h, hf⟩
    obtain rfl := Option.some.inj h
    cases hf
  · rintro ⟨ref, h, -⟩
    cases h

theorem witness_FrameStartTruncates :
    (let s := moved .guarded 119 taking
     s.running ∧ s.sp.state.attached = true ∧ s.sp.cond = .taken ∧ s.pool.filling = some 0 ∧ s.sp.score ≤ 255 ∧
       s.poolHolds ∧ s.sp.score + 8 < 128) ∧
    (let s := moved .guarded 120 taking
     s.running ∧ s.sp.state.attached = true ∧ s.sp.cond = .taken ∧ s.pool.filling = some 0 ∧ s.sp.score ≤ 255 ∧
       s.poolHolds ∧ 128 ≤ s.sp.score + 8) := by
  unfold State.running State.poolHolds SlotPool.rolesHold
  constructor <;> decide

/-- The truncated frame on screen, a move from WATCH to GUARDED with the lock out of FREE_RUN, and a sample. -/
theorem witness_FrameStartTruncates_forms :
    (let s := after good racing
     s.running ∧ s.sp.state.attached = true ∧ s.sp.cond = .taken ∧ s.pool.filling = some 0 ∧ s.sp.score ≤ 255 ∧
       s.poolHolds ∧ s.sp.score + 8 < 128 ∧ s.pool.onScreen = some 0) ∧
    (let s := generating (fun o => { o with lock := .track }) (moved .watch 60 taking)
     s.running ∧ s.sp.state.attached = true ∧ s.sp.cond = .taken ∧ s.pool.filling = some 0 ∧ s.sp.score ≤ 255 ∧
       s.poolHolds ∧ s.sp.score + 8 < 128 ∧ bandOf (min 255 (s.sp.score + 8)) ≠ s.sp.state ∧
       (bandOf (min 255 (s.sp.score + 8))).healthy = false ∧ s.otg.lock ≠ .freeRun ∧ s.pool.onScreen ≠ some 0) ∧
    taking.samples := by
  unfold State.running State.poolHolds SlotPool.rolesHold
  exact ⟨by decide, by decide, ⟨_, rfl, by decide⟩⟩

theorem witness_UntakenFramesPass :
    State.reset.running ∧ [px].length ≤ 65535 ∧ State.reset.sp.state = .unarmed ∧
    (conditioned .ignored (live tiny)).running ∧ (conditioned .ignored (live tiny)).sp.state ≠ .unarmed ∧
    (conditioned .ignored (live tiny)).sp.cond = .ignored ∧ (conditioned .foreign (live tiny)).running ∧
    (conditioned .foreign (live tiny)).sp.state ≠ .unarmed ∧ (conditioned .foreign (live tiny)).sp.cond = .foreign := by
  unfold State.running
  decide

/-- A clean observed frame about to end, after some clean ones. -/
def observed (run : Nat) : State :=
  { detached with sp := { detached.sp with cond := .observed, obsClean := true, lineCount := 16, cleanRun := run } }

theorem witness_DetachedFramesAreObserved :
    (detached.running ∧ detached.sp.state = .detached ∧ [px].length ≤ 65535 ∧ detached.sp.cond = .none) ∧
    ((observed 14).running ∧ (observed 14).sp.cond = .observed ∧ (observed 14).sp.obsClean = true ∧
      (observed 14).sp.lineCount = (observed 14).prof.height ∧ (observed 14).sp.cleanRun ≠ 15) ∧
    ((observed 15).running ∧ (observed 15).sp.cond = .observed ∧ (observed 15).sp.obsClean = true ∧
      (observed 15).sp.lineCount = (observed 15).prof.height ∧ (observed 15).sp.cleanRun = 15 ∧
      (observed 15).otg.lock = .freeRun) ∧
    (let s : State := { observed 15 with sp := { (observed 15).sp with lineCount := 15 } }
     s.running ∧ s.sp.state = .detached ∧ s.sp.cond = .observed ∧
       ¬ (s.sp.obsClean = true ∧ s.sp.lineCount = s.prof.height)) := by
  unfold State.running
  decide

theorem witness_StrayEventsRaiseScore :
    (let s := moved .guarded 119 (live tiny)
     s.running ∧ s.sp.state.attached = true ∧ s.sp.cond = .none ∧ [px].length ≤ 65535 ∧ s.sp.score ≤ 127 ∧
       good ∈ [Instr.line false [px], .frameEnd] ∧ s.sp.score + 8 < 128) ∧
    (let s := moved .guarded 120 (live tiny)
     s.running ∧ s.sp.state.attached = true ∧ s.sp.cond = .none ∧ [px].length ≤ 65535 ∧ s.sp.score ≤ 127 ∧
       Instr.frameEnd ∈ [Instr.line false [px], .frameEnd] ∧ 128 ≤ s.sp.score + 8 ∧ s.poolHolds) := by
  unfold State.running State.poolHolds SlotPool.rolesHold
  decide

/-- The score leaves WATCH, the lock out of FREE_RUN. -/
theorem witness_StrayEventsRaiseScore_moves :
    let s := generating (fun o => { o with lock := .track }) (moved .watch 56 (live lockTiny))
    s.running ∧ s.sp.state.attached = true ∧ s.sp.cond = .none ∧ s.sp.score ≤ 127 ∧
      bandOf (s.sp.score + 8) ≠ s.sp.state ∧ (bandOf (s.sp.score + 8)).healthy = false ∧ s.otg.lock ≠ .freeRun := by
  unfold State.running
  decide

theorem witness_LineIsStored :
    (taking.running ∧ taking.sp.state.attached = true ∧ taking.sp.cond = .taken ∧ taking.pool.filling = some 0 ∧
      taking.sp.lineCount < taking.prof.height ∧ [px].length ≤ 65535 ∧ [px].length = taking.prof.width ∧
      taking.sp.lineCount % 8 ≠ 7) ∧
    (sevenLines.running ∧ sevenLines.sp.state.attached = true ∧ sevenLines.sp.cond = .taken ∧
      sevenLines.pool.filling = some 0 ∧ sevenLines.sp.lineCount < sevenLines.prof.height ∧
      sevenLines.sp.lineCount ≠ 0 ∧ sevenLines.sp.lineCount % 8 = 7 ∧ (sevenLines.slot 0).fill = .filling ∧
      sevenLines.pool.q = none) ∧
    (Store.wf sevenLines.pool.store = true ∧ (2159 : Nat) < 2160) := by
  unfold State.running
  decide

/-- The same frame under a profile, in a timing state with a strip next, Q known to the scheduler too. -/
def racingIn (p : Profile) (t : Timing) (k : Nat) (watch : Bool) : State :=
  let s := generating (fun o => { o with timing := t, nextStrip := k })
    (afterAll (List.replicate 7 good) (after .frameStart (live p)))
  { s with pool := { s.pool with q := some 1 }, ps := { s.ps with q := some 1, watchOpen := watch } }

/-- What every form of that strip has in common. -/
def readyToRace (s : State) : Prop :=
  s.running ∧ s.sp.state.healthy = true ∧ s.sp.cond = .taken ∧ s.pool.filling = some 0 ∧
    s.sp.lineCount < s.prof.height ∧ s.sp.lineCount % 8 = 7 ∧ [px].length ≤ 65535 ∧ s.poolHolds ∧
    (s.slot 0).eligible = false ∧ s.prof.race = true ∧ s.pool.q = some 1 ∧ 1 ≤ (s.slot 0).filled + 1 ∧ 0 ∈ s.pool.cands

def spliceTiny : Profile := { tiny with tear := .splice }

/-- One measurement short of a move of the lock, at a phase. -/
def almost (l : Lock) (phase : Time) (s : State) : State :=
  { s with
    otg := { s.otg with lock := l, tLast := s.timeBase - phase }
    pu := { s.pu with armed := true, good := 7, bad := 2, ti := some 200 } }

theorem witness_RacingFrameStartsRefresh :
    (readyToRace racing ∧ racing.otg.timing = .blankOpen ∧ racing.otg.mode = some .adaptive ∧
      racing.ps.blankActive = false ∧ racing.pc.tune = TuneSet.empty) ∧
    (let s := tuning { TuneSet.empty with lut := some false } racing
     readyToRace s ∧ s.otg.timing = .blankOpen ∧ s.otg.mode = some .adaptive ∧ s.ps.blankActive = false ∧
       s.pc.tune ≠ TuneSet.empty ∧ s.pc.active = some tiny) ∧
    (let s := racingIn tiny .blankMin 0 false
     readyToRace s ∧ s.otg.timing ∈ [Timing.idle, .blankMin, .blank]) ∧
    (let s : State := { racing with ps := { racing.ps with blankActive := true } }
     readyToRace s ∧ s.otg.timing = .blankOpen ∧ s.ps.blankActive = true) := by
  unfold readyToRace State.running State.poolHolds SlotPool.rolesHold
  refine ⟨?_, ?_, ?_, ?_⟩ <;> decide

/-- The strip in SCAN: the watch closed, past the splice limit, at it with no candidate that fits, and with one. -/
theorem witness_RacingFrameStartsRefresh_scan :
    (let s := racingIn tiny .scan 1 true
     readyToRace s ∧ s.otg.timing = .scan ∧ ¬ (s.ps.watchOpen = true ∧ s.prof.tear = .splice)) ∧
    (let s := racingIn spliceTiny .scan 2 true
     readyToRace s ∧ s.otg.timing = .scan ∧ s.ps.watchOpen = true ∧ s.prof.tear = .splice ∧
       s.prof.spliceLimit < s.otg.nextStrip) ∧
    (let s := racingIn spliceTiny .scan 1 true
     readyToRace s ∧ s.otg.timing = .scan ∧ s.ps.watchOpen = true ∧ s.prof.tear = .splice ∧
       s.otg.nextStrip ≤ s.prof.spliceLimit ∧
       (s.raceStrip 0 false [px]).measured.spliceCandidate s.otg.nextStrip = none) ∧
    (let s := racingIn spliceTiny .scan 0 true
     readyToRace s ∧ s.otg.timing = .scan ∧ s.ps.watchOpen = true ∧ s.prof.tear = .splice ∧
       s.otg.nextStrip ≤ s.prof.spliceLimit ∧
       (s.raceStrip 0 false [px]).measured.spliceCandidate s.otg.nextStrip = some 0) := by
  unfold readyToRace State.running State.poolHolds SlotPool.rolesHold
  refine ⟨?_, ?_, ?_, ?_⟩ <;> decide

/-- The measurement of that strip moves the lock: the eighth good one to TRACK, the third bad one back to ACQUIRE. -/
theorem witness_RacingFrameStartsRefresh_lock :
    (let s := almost .acquire 200 (racingIn lockTiny .blank 0 false)
     readyToRace s ∧ s.otg.timing ∈ [Timing.idle, .blankMin, .blank] ∧
       (s.raceStrip 0 false [px]).measured.otg.lock = .track) ∧
    (let s := almost .track 150 (racingIn lockTiny .blank 0 false)
     readyToRace s ∧ s.otg.timing ∈ [Timing.idle, .blankMin, .blank] ∧
       (s.raceStrip 0 false [px]).measured.otg.lock = .acquire) := by
  unfold readyToRace State.running State.poolHolds SlotPool.rolesHold
  refine ⟨?_, ?_⟩ <;> decide

theorem witness_ForeignFramesAreAborted :
    (taking.running ∧ taking.sp.state.attached = true ∧ taking.sp.cond = .taken ∧ taking.pool.filling = some 0 ∧
      taking.poolHolds ∧ [px, px].length ≤ 65535 ∧ taking.sp.lineCount = 0 ∧
      [px, px].length ≠ taking.prof.width ∧ taking.sp.lineCount ≠ taking.prof.height ∧ taking.pool.onScreen ≠ some 0) ∧
    (sixteenLines.running ∧ sixteenLines.sp.state.attached = true ∧ sixteenLines.sp.cond = .taken ∧
      sixteenLines.pool.filling = some 0 ∧ sixteenLines.poolHolds ∧
      sixteenLines.prof.height ≤ sixteenLines.sp.lineCount) ∧
    (let s := after good racing
     s.running ∧ s.sp.state.attached = true ∧ s.sp.cond = .taken ∧ s.pool.filling = some 0 ∧ s.poolHolds ∧
       s.sp.lineCount ≠ s.prof.height ∧ s.pool.onScreen = some 0) := by
  unfold State.running State.poolHolds SlotPool.rolesHold
  refine ⟨?_, ?_, ?_⟩ <;> decide

theorem witness_FrameEndCompletes :
    sixteenLines.running ∧ sixteenLines.sp.state.attached = true ∧ sixteenLines.sp.cond = .taken ∧
      sixteenLines.sp.lineCount = sixteenLines.prof.height ∧ sixteenLines.pool.filling = some 0 ∧
      (sixteenLines.slot 0).firstLine = some 1000 ∧ sixteenLines.poolHolds ∧ sixteenLines.sp.score ≤ 127 ∧
      (sixteenLines.slot 0).bad = 0 := by
  unfold State.running State.poolHolds SlotPool.rolesHold
  decide

/-- The completing frame becomes eligible: in the open window, under a lock about to move, and in SCAN with the watch open,
at the splice limit and past it. -/
theorem witness_FrameEndCompletes_eligible :
    (let s := timed .blankOpen sixteenLines
     s.poolHolds ∧ s.pool.onScreen ≠ some 0 ∧ (s.slot 0).eligible = false ∧ s.otg.timing = .blankOpen ∧
       s.otg.mode = some .adaptive ∧ s.ps.blankActive = false ∧ s.pc.tune = TuneSet.empty) ∧
    (let s := almost .acquire 200 (timed .blank (afterAll (List.replicate 16 good) (after .frameStart (live lockTiny))))
     s.poolHolds ∧ s.pool.onScreen ≠ some 0 ∧ (s.slot 0).eligible = false ∧ s.otg.timing ≠ .blankOpen ∧
       (bandOf (s.sp.score - 1)).healthy = true ∧ s.measured.otg.lock = .track) ∧
    (∀ k ∈ [1, 2],
     let s0 := scanning k (afterAll (List.replicate 16 good) (after .frameStart (live spliceTiny)))
     let s : State := { s0 with ps := { s0.ps with watchOpen := true } }
     s.poolHolds ∧ s.pool.onScreen ≠ some 0 ∧ (s.slot 0).eligible = false ∧ s.otg.timing = .scan ∧
       s.ps.watchOpen = true ∧ s.prof.tear = .splice ∧
       (k = 1 → s.otg.nextStrip ≤ s.prof.spliceLimit) ∧ (k = 2 → s.prof.spliceLimit < s.otg.nextStrip)) := by
  unfold State.poolHolds SlotPool.rolesHold
  refine ⟨?_, ?_, ?_⟩ <;> decide

/-- A dropped frame: one bad strip in GUARDED. -/
theorem witness_FrameEndCompletes_dropped :
    let s := moved .guarded 127 (afterAll (.line true [px] :: List.replicate 15 good) taking)
    s.running ∧ s.sp.state.attached = true ∧ s.sp.cond = .taken ∧ s.sp.lineCount = s.prof.height ∧
      s.pool.filling = some 0 ∧ (s.slot 0).firstLine = some 1000 ∧ s.poolHolds ∧ s.sp.score ≤ 127 ∧
      s.sp.state = .guarded ∧ (s.slot 0).bad ≠ 0 := by
  unfold State.running State.poolHolds SlotPool.rolesHold
  decide

/-- All lines of a frame, its first strip damaged, with an older frame ready in slot 1. -/
def damaged : State :=
  let s := afterAll (.line true [px] :: List.replicate 15 good) (after .frameStart (live lockTiny))
  let older : SlotRec := ⟨.complete, some 0, 2, 0, false, some 0, some 0, false, false, true⟩
  { s with pool := { s.pool with slots := s.pool.slots.set 1 older, ready := some 1, cands := [1, 0] } }

/-- The damaged frame takes the source out of WATCH, the lock out of FREE_RUN and an older frame ready. -/
theorem witness_FrameEndCompletes_falls :
    let s := generating (fun o => { o with lock := .track, timing := .blank }) (moved .watch 63 damaged)
    s.running ∧ s.sp.state.attached = true ∧ s.sp.cond = .taken ∧ s.sp.lineCount = s.prof.height ∧
      s.pool.filling = some 0 ∧ (s.slot 0).firstLine = some 1000 ∧ s.poolHolds ∧ s.sp.score ≤ 127 ∧
      (s.slot 0).bad ≠ 0 ∧ s.pool.ready = some 1 ∧ s.pool.onScreen ≠ some 0 ∧ (s.slot 0).eligible = false ∧
      bandOf (s.sp.score + 8) ≠ s.sp.state ∧ (bandOf (s.sp.score + 8)).healthy = false ∧ s.otg.lock ≠ .freeRun := by
  unfold State.running State.poolHolds SlotPool.rolesHold
  decide

theorem witness_PacketIsCaptured :
    noCapture.running ∧ (List.replicate 29 (0 : Byte)).length ≤ 255 ∧ 28 < (List.replicate 29 (0 : Byte)).length ∧
    (∀ i : Fin 4, ¬ (noCapture.pf.entries[i].enabled = true ∧
      ((0x01 : Byte) ++ (0x01 : Byte) ^^^ noCapture.pf.entries[i].code) &&& noCapture.pf.entries[i].mask = 0)) ∧
    (noCapture.pf.entries[(1 : Fin 4)].enabled = true ∧
      ((0x83 : Byte) ++ (0x01 : Byte) ^^^ noCapture.pf.entries[(1 : Fin 4)].code) &&&
        noCapture.pf.entries[(1 : Fin 4)].mask = 0) ∧
    (∀ j < (1 : Fin 4), ¬ (noCapture.pf.entries[j].enabled = true ∧
      ((0x83 : Byte) ++ (0x01 : Byte) ^^^ noCapture.pf.entries[j].code) &&& noCapture.pf.entries[j].mask = 0)) ∧
    noCapture.pf.captures[(1 : Fin 4)] = none ∧
    (after (.packet 0x83 0x01 [5]) noCapture).pf.captures[(1 : Fin 4)] = some ⟨0x83, 0x01, [5], 0, 0, true⟩ := by
  unfold State.running
  decide

/-! Witnesses: the generator and the scheduler -/

theorem witness_QuietExpiries :
    (let s := timed .scan { live tiny with timeBase := 1050 }
     s.running ∧ tminDue s = true ∧ s.otg.timing = .scan) ∧
    (let s := { live tiny with timeBase := 1050 }
     s.running ∧ tminDue s = true ∧ s.otg.timing = .blankMin ∧ s.otg.keptRepeat = false ∧
       ∀ k ∈ s.pool.cands, (s.slot k).eligible = false) ∧
    (let s := { live tiny with timeBase := 1250 }
     s.running ∧ repeatDue s = true ∧ s.otg.timing ∈ [Timing.scan, .blankMin]) ∧
    (let s0 := timed .blankOpen (after good sevenLines)
     let s : State := { s0 with timeBase := 1250, otg := { s0.otg with planCount := 1 } }
     s.running ∧ repeatDue s = true ∧ s.otg.timing = .blankOpen ∧ 0 < s.otg.planCount ∧ s.pool.filling = some 0 ∧
       0 < (s.slot 0).filled ∧ (s.slot 0).eligible = false) ∧
    (let s0 := timed .scan (live tiny)
     let s : State := { s0 with otg := { s0.otg with fixedTimer := .running 1000 } }
     s.running ∧ fixedDue s = true ∧ s.otg.timing = .scan) := by
  unfold State.running
  decide

/-- A planned repeat kept before the window opens on a frame that is on its way. -/
def keptRepeating (planCount : Nat) (s : State) : State :=
  generating (fun o => { o with keptRepeat := true, planCount := planCount }) s

theorem witness_QuietExpiries_kept :
    let s := keptRepeating 1 (atTick 1050 (after good sevenLines))
    s.running ∧ tminDue s = true ∧ s.otg.timing = .blankMin ∧ s.otg.keptRepeat = true ∧ ¬ s.opensOnFrame ∧
      0 < s.otg.planCount ∧ s.pool.filling = some 0 ∧ 0 < (s.slot 0).filled ∧ (s.slot 0).eligible = false := by
  unfold State.running State.opensOnFrame
  refine ⟨?_, ?_, ?_, ?_, ?_, ?_⟩ <;> decide

theorem opens_frame {s : State} (h : s.opensOnFrame) : s.opensWithRefresh false := .inl ⟨h, rfl⟩

theorem opens_kept {s : State} {b : Bool} (h : ¬ s.opensOnFrame) (k : s.otg.keptRepeat = true) (g : s.repeatGoes b) :
    s.opensWithRefresh b := .inr ⟨h, k, g⟩

theorem goes_backstop {s : State} (h : s.otg.planCount = 0) : s.repeatGoes false := .inl ⟨h, rfl⟩

theorem goes_planned {s : State} (h : 0 < s.otg.planCount)
    (g : ∀ k, s.pool.filling = some k → (s.slot k).filled = 0 ∨ (s.slot k).eligible = true) : s.repeatGoes true :=
  .inr ⟨h, rfl, g⟩

theorem tmin_starts {s : State} {b : Bool}
    (h : s.otg.mode = some .adaptive ∧ tminDue s = true ∧ s.otg.timing = .blankMin) (g : s.opensWithRefresh b) :
    s.expiryStarts .tminExpiry b := .inl ⟨h.1, rfl, h.2.1, h.2.2, g⟩

theorem repeat_starts {s : State} {b : Bool}
    (h : s.otg.mode = some .adaptive ∧ repeatDue s = true ∧ s.otg.timing = .blankOpen) (g : s.repeatGoes b) :
    s.expiryStarts .repeatTimerExpiry b := .inr (.inl ⟨h.1, rfl, h.2.1, h.2.2, g⟩)

/-- The held frame's successor waits at a Tmin expiry. -/
def framed : State := atTick 1050 (after .frameEnd sixteenLines)

theorem framed_opens : framed.opensOnFrame := ⟨⟨0, by decide, by decide⟩, by decide⟩

theorem live_opensNot (f : OutputTiming → OutputTiming) (n : Time) :
    ¬ (generating f (atTick n (live tiny))).opensOnFrame := by
  rintro ⟨⟨k, h, -⟩, -⟩
  cases h

theorem witness_ExpiriesStartRefresh :
    (framed.running ∧ framed.expiryStarts .tminExpiry false ∧ framed.pc.tune = TuneSet.empty) ∧
    (keptRepeating 0 (atTick 1050 (live tiny))).expiryStarts .tminExpiry false ∧
    (keptRepeating 2 (atTick 1050 (live tiny))).expiryStarts .tminExpiry true ∧
    (timed .blankOpen (atTick 1250 (live tiny))).expiryStarts .repeatTimerExpiry false ∧
    (timed .blankOpen (keptRepeating 1 (atTick 1250 (live tiny)))).expiryStarts .repeatTimerExpiry true ∧
    (generating (fun o => { o with fixedTimer := .running 1000 }) (timed .blank (live lockProfile))).expiryStarts
      .fixedTimerExpiry false :=
  ⟨⟨by unfold State.running; decide, tmin_starts (by decide) (opens_frame framed_opens), by decide⟩,
    tmin_starts (by decide) (opens_kept (live_opensNot _ _) rfl (goes_backstop rfl)),
    tmin_starts (by decide) (opens_kept (live_opensNot _ _) rfl (goes_planned (by decide) (by decide))),
    repeat_starts (by decide) (goes_backstop rfl),
    repeat_starts (by decide) (goes_planned (by decide) (by decide)),
    .inr (.inr ⟨rfl, rfl, by decide, rfl, rfl⟩)⟩

/-- A frame of two strips filled in 40 ticks has been seen, so Q is 1. -/
def paced (s : State) : State :=
  { s with
    pu := { s.pu with fills := [40], fi := some 40, q := some 1, lastQ := some 1 }
    pool := { s.pool with q := some 1 }
    ps := { s.ps with q := some 1 } }

/-- Tune fields are pending at an expiry, the first set changing race_margin and with it Q, the second not. -/
theorem witness_ExpiriesStartRefresh_tuned :
    (let s := tuning { TuneSet.empty with raceMargin := some 1 } (paced framed)
     s.expiryStarts .tminExpiry false ∧ s.pc.tune ≠ TuneSet.empty ∧ s.poolHolds ∧ s.pacingHolds ∧
       s.pc.active = some tiny ∧ computeQ (some (tiny.withTune s.pc.tune)) s.pu.fi ≠ s.pu.q) ∧
    (let s := tuning { TuneSet.empty with spliceLimit := some 90 } (paced framed)
     s.expiryStarts .tminExpiry false ∧ s.pc.tune ≠ TuneSet.empty ∧ s.poolHolds ∧ s.pacingHolds ∧
       s.pc.active = some tiny ∧ (tiny.withTune s.pc.tune).spliceLimit = 1) := by
  refine ⟨⟨tmin_starts (by decide) (opens_frame ⟨⟨0, ?_, ?_⟩, ?_⟩), by decide, ?_, ?_, by decide, by decide⟩,
    tmin_starts (by decide) (opens_frame ⟨⟨0, ?_, ?_⟩, ?_⟩), by decide, ?_, ?_, by decide, by decide⟩
  · decide
  · decide
  · decide
  · unfold State.poolHolds SlotPool.rolesHold
    decide
  · unfold State.pacingHolds
    decide
  · decide
  · decide
  · decide
  · unfold State.poolHolds SlotPool.rolesHold
    decide
  · unfold State.pacingHolds
    decide

/-- A fixed expiry whose tune set lowers the margin, so that the refresh start's own publication makes the frame with one
strip eligible. -/
def metStart : State :=
  let p := { lockTiny with raceMargin := 1 }
  let s := timed .blank (afterAll (List.replicate 8 good) (after .frameStart (live p)))
  tuning { TuneSet.empty with raceMargin := some 0 } (generating (fun o => { o with fixedTimer := .running 1000 })
    { s with
      pu := { s.pu with fills := [40], fi := some 40, q := some 2, lastQ := some 2 }
      pool := { s.pool with q := some 2 }
      ps := { s.ps with q := some 2 } })

/-- R13, R20: a profile of the same geometry is applied, and the Q that it publishes marks the frame with one strip. -/
theorem test_application_marks :
    (let s := timed .blankOpen (afterAll (List.replicate 8 good) (after .frameStart (live { tiny with raceMargin := 1 })))
     let s := asked 0x12 [] (holding tiny { s with pu := { s.pu with fills := [40], fi := some 40, q := some 2, lastQ := some 2 } })
     (s.slot 0).eligible = false ∧ check .confirmProfile s (fun t => (t.slot 0).eligible) = true) := by decide

/-- The merge raises an eligibility event, which meets the refresh start. -/
theorem witness_ExpiriesStartRefresh_met :
    metStart.running ∧ metStart.expiryStarts .fixedTimerExpiry false ∧ metStart.poolHolds ∧ metStart.pacingHolds ∧
      metStart.pc.tune ≠ TuneSet.empty ∧
      (let p := { lockTiny with raceMargin := 1 }
       let m := { metStart with pc := { metStart.pc with active := some (p.withTune metStart.pc.tune), tune := TuneSet.empty } }
       metStart.pc.active = some p ∧ (m.slot 0).eligible = false ∧ ((m.marked (some 1)).slot 0).eligible = true ∧
         computeQ (some (p.withTune metStart.pc.tune)) metStart.pu.fi = some 1) := by
  refine ⟨?_, .inr (.inr ⟨?_, rfl, ?_, ?_, rfl⟩), ?_, ?_, ?_, ?_, ?_, ?_, ?_⟩
  · unfold State.running
    decide
  · decide
  · decide
  · decide
  · unfold State.poolHolds SlotPool.rolesHold
    decide
  · unfold State.pacingHolds
    decide
  · decide
  · decide
  · decide
  · decide
  · decide

/-- An admitted FREE_RUN state at a refresh start, its measurement armed by the one at 900. -/
def admittedRun : State :=
  let s := generating (fun o => { o with lock := .freeRun, tLast := 1000 }) (live lockTiny)
  { s with pu := { s.pu with ti := some 200, admitted := true, armed := true, nextFixed := 150 } }

/-- R60, R70, R81: the event taken first finds FREE_RUN and measures nothing, and the mark is set for the new interval; taken
after the refresh start it is measured under ACQUIRE. -/
theorem test_event_meets_refresh_start :
    (let t := takeStart true true true 900 admittedRun
     t.otg.lock = .acquire ∧ t.pu.armed = true ∧ t.otg.fixedTimer = .running 1150) ∧
    (let t := takeStart true true false 900 admittedRun
     t.otg.lock = .acquire ∧ t.pu.armed = false ∧ t.otg.fixedTimer = .running 1150) := by decide

theorem witness_StripReadSendsStrip :
    (let s := scanning 0 (live tiny)
     s.running ∧ stripDue s = true ∧ ¬ (s.ps.watchOpen = true ∧ s.prof.tear = .splice)) ∧
    (let s := scanning 1 (live tiny)
     s.running ∧ stripDue s = true ∧ ¬ (s.ps.watchOpen = true ∧ s.prof.tear = .splice)) ∧
    (let s0 := scanning 1 (live { spliceTiny with spliceLimit := 0 })
     let s : State := { s0 with ps := { s0.ps with watchOpen := true } }
     s.running ∧ stripDue s = true ∧ s.ps.watchOpen = true ∧ s.prof.tear = .splice ∧ s.prof.spliceLimit < s.otg.nextStrip) ∧
    (let s0 := scanning 1 (live spliceTiny)
     let s : State := { s0 with ps := { s0.ps with watchOpen := true } }
     s.running ∧ stripDue s = true ∧ s.ps.watchOpen = true ∧ s.prof.tear = .splice ∧
       s.otg.nextStrip ≤ s.prof.spliceLimit ∧ s.spliceCandidate s.otg.nextStrip = none) := by
  unfold State.running
  decide

/-- A scan of the held frame 0 with a newer complete frame 1 waiting, under the SPLICE policy, strip 1 next. -/
def splicing : State :=
  let s := scanning 1 (live { tiny with tear := .splice })
  let shown : SlotRec := ⟨.complete, some 1, 2, 0, false, some 0, some 0, true, true, true⟩
  let newer : SlotRec := ⟨.complete, some 2, 2, 0, false, some 0, some 0, false, false, true⟩
  { s with
    ps := { s.ps with watchOpen := true, lastKind := some .repeated }
    pool := { s.pool with
      slots := (s.pool.slots.set 0 shown).set 1 newer
      held := some 0
      onScreen := some 0
      ready := some 1
      cands := [1] } }

theorem witness_StripReadSplices :
    splicing.running ∧ stripDue splicing = true ∧ splicing.poolHolds ∧ 0 < splicing.otg.nextStrip ∧
      splicing.ps.watchOpen = true ∧ splicing.prof.tear = .splice ∧ splicing.otg.nextStrip ≤ splicing.prof.spliceLimit ∧
      splicing.spliceCandidate splicing.otg.nextStrip = some 1 := by
  unfold State.running State.poolHolds SlotPool.rolesHold
  decide

/-- The frame on screen was truncated: it is ABORTED and no frame is held. -/
def splicingAborted : State :=
  let shown : SlotRec := ⟨.aborted, some 1, 1, 0, true, some 0, none, true, true, true⟩
  { splicing with pool := { splicing.pool with slots := splicing.pool.slots.set 0 shown, held := none } }

theorem witness_StripReadSplices_aborted :
    splicingAborted.running ∧ stripDue splicingAborted = true ∧ splicingAborted.poolHolds ∧
      0 < splicingAborted.otg.nextStrip ∧ splicingAborted.ps.watchOpen = true ∧ splicingAborted.prof.tear = .splice ∧
      splicingAborted.otg.nextStrip ≤ splicingAborted.prof.spliceLimit ∧
      splicingAborted.spliceCandidate splicingAborted.otg.nextStrip = some 1 ∧
      splicingAborted.pool.onScreen = some 0 ∧ (splicingAborted.slot 0).fill = .aborted := by
  unfold State.running State.poolHolds SlotPool.rolesHold
  decide

/-- The scan of a racing frame at its end. -/
def raced : State :=
  let s := after good racing
  { s with timeBase := 1080, otg := { s.otg with nextStrip := 2 } }

/-- A scan that ends now with the on-screen slot in each fill state that it may have. -/
theorem witness_ScanEndHandlesScreen :
    (raced.running ∧ scanEndDue raced = true ∧ raced.poolHolds ∧ raced.otg.pendingApp = false ∧
      raced.otg.pendingReset = false ∧ raced.otg.mode = some .adaptive ∧ raced.otg.minPassed = false ∧
      raced.pool.onScreen = some 0 ∧ (raced.slot 0).fill = .filling) ∧
    (let s := after .frameStart raced
     s.running ∧ scanEndDue s = true ∧ s.poolHolds ∧ s.otg.pendingApp = false ∧ s.otg.pendingReset = false ∧
       s.otg.mode = some .adaptive ∧ s.otg.minPassed = false ∧ s.pool.onScreen = some 0 ∧
       (s.slot 0).fill = .aborted) ∧
    (let s := atTick 1080 (generating (fun o => { o with nextStrip := 2 }) splicing)
     s.running ∧ scanEndDue s = true ∧ s.poolHolds ∧ s.otg.pendingApp = false ∧ s.otg.pendingReset = false ∧
       s.otg.mode = some .adaptive ∧ s.otg.minPassed = false ∧ s.pool.onScreen = some 0 ∧
       (s.slot 0).fill = .complete) := by
  unfold State.running State.poolHolds SlotPool.rolesHold
  refine ⟨?_, ?_, ?_⟩ <;> decide

/-- A scan of nothing that ends now. -/
def ending (p : Profile) (f : OutputTiming → OutputTiming) : State := generating f (scanning 2 (live p))

theorem ending_poolHolds (p : Profile) (f : OutputTiming → OutputTiming) : (ending p f).poolHolds := by
  have h : (live tiny).pool.rolesHold := by
    unfold SlotPool.rolesHold
    decide
  exact ⟨h, fun _ => ⟨rfl, rfl⟩⟩

theorem ending_opensNot (f : OutputTiming → OutputTiming) : ¬ (ending tiny f).screenEnded.opensOnFrame := by
  rintro ⟨⟨k, h, -⟩, -⟩
  cases h

/-- Tmin has passed: nothing follows, a kept backstop, a kept planned repeat, an eligible frame, and a planned repeat that an
arriving frame skips; and the two ends under FIXED. -/
theorem witness_ScanEndHandlesScreen_next :
    (let s := ending tiny fun o => { o with minPassed := true }
     scanEndDue s = true ∧ s.poolHolds ∧ ¬ s.screenEnded.opensOnFrame ∧ s.otg.keptRepeat = false) ∧
    (let s := ending tiny fun o => { o with minPassed := true, keptRepeat := true }
     scanEndDue s = true ∧ s.poolHolds ∧ s.screenEnded.opensWithRefresh false) ∧
    (let s := ending tiny fun o => { o with minPassed := true, keptRepeat := true, planCount := 1 }
     scanEndDue s = true ∧ s.poolHolds ∧ s.screenEnded.opensWithRefresh true) ∧
    (let s := atTick 1080 (generating (fun o => { o with nextStrip := 2, minPassed := true }) splicing)
     scanEndDue s = true ∧ s.poolHolds ∧ s.screenEnded.opensWithRefresh false) ∧
    (let s := generating (fun o => { o with minPassed := true, keptRepeat := true, planCount := 1 })
       (scanning 2 (after good sevenLines))
     scanEndDue s = true ∧ s.poolHolds ∧ ¬ s.screenEnded.opensOnFrame ∧ s.otg.keptRepeat = true ∧
       0 < s.otg.planCount ∧ s.pool.filling = some 0 ∧ 0 < (s.slot 0).filled ∧ (s.slot 0).eligible = false) ∧
    (∀ kept : Bool,
     let s := ending lockTiny fun o => { o with keptFixed := kept }
     scanEndDue s = true ∧ s.poolHolds ∧ s.otg.mode = some .fixed ∧ s.otg.keptFixed = kept) := by
  refine ⟨⟨by decide, ending_poolHolds _ _, ending_opensNot _, rfl⟩,
    ⟨by decide, ending_poolHolds _ _, opens_kept (ending_opensNot _) rfl (goes_backstop rfl)⟩,
    ⟨by decide, ending_poolHolds _ _, opens_kept (ending_opensNot _) rfl (goes_planned (by decide) (by decide))⟩,
    ⟨by decide, ?_, opens_frame ⟨⟨1, by decide, by decide⟩, by decide⟩⟩, ⟨by decide, ?_, ?_, by decide⟩,
    fun kept => ⟨by cases kept <;> decide, ending_poolHolds _ _, rfl, rfl⟩⟩
  · unfold State.poolHolds SlotPool.rolesHold
    decide
  · unfold State.poolHolds SlotPool.rolesHold
    decide
  · unfold State.opensOnFrame
    decide

/-- A reset, an application, and both wait for this scan end, their replies deferred. -/
def endingPoints (reset app : Bool) : State :=
  let s := ending tiny fun o => { o with pendingReset := reset, pendingApp := app }
  { s with
    pc := { s.pc with
      propState := if app then .confirmed else .none, proposal := if app then some planProfile else none }
    ml := { s.ml with
      defReset := if reset then .waiting 5 else .empty, defProfile := if app then .waiting 6 else .empty } }

theorem witness_ScanEndHandlesScreen_points :
    ∀ reset ∈ [false, true], ∀ app ∈ [false, true],
      let s := endingPoints reset app
      s.running ∧ scanEndDue s = true ∧ s.poolHolds ∧ s.pc.active = some tiny ∧ s.otg.pendingReset = reset ∧
        s.otg.pendingApp = app ∧ s.ml.doneOrder = [] ∧ s.ml.replies.length ≤ 2 ∧
        (app = true → s.pc.proposal = some planProfile ∧ s.ml.defProfile = .waiting 6) ∧
        (reset = true → s.ml.defReset = .waiting 5) := by
  unfold State.running State.poolHolds SlotPool.rolesHold
  decide

theorem witness_RaceThresholdIsLeast : 1 ≤ tiny.strips := by decide

theorem witness_RepeatPlanDividesInterval :
    planProfile.pacing = .adaptive ∧ planProfile.repeatPlan = true ∧ planProfile.winMax < 16777216 ∧
      208333 ≤ planProfile.winMin ∧ 2 * planProfile.winMin ≤ planProfile.winMax := by decide

theorem witness_LockArithmetic :
    lockProfile.lockGuard ≤ lockProfile.fixedInterval / 4 ∧ lockProfile.winMin ≤ lockProfile.fixedInterval ∧
      lockProfile.fixedInterval ≤ lockProfile.winMax ∧
      (900000 : Int) ≤ (lockProfile.fixedInterval : Int) + (lockProfile.fixedInterval : Int) / 4 ∧
      2 ≤ (lockProfile.fixedInterval : Int) := by decide

/-- The values where the clauses on the reduced depths meet, and a value at which both masks apply. -/
theorem witness_ColourPathRounds :
    4093 < 4094 ∧ 4094 ≤ 4095 ∧ 4087 < 4088 ∧ 4088 ≤ 4095 ∧ 255 ≤ 1023 ∧ 512 % 4 = 0 ∧
      reduceDepth .d10 4093 = 1023 ∧ reduceDepth .d8 4087 = 255 := by decide

end Sys2Proof.Tests
end

section
/-! The pacing arithmetic (chapter 3): the race threshold, the repeat plan, and the lock's phase error, correction and hold.
The model gives the base of the race threshold and the factor of the repeat plan by closed forms; each is shown least by
one equivalence, "at most b exactly when b satisfies the condition". -/

namespace Sys2Proof.Machine

/-- Nq of R55: the fill time that the base has to cover. -/
def fillToCover (p : Profile) (fi : Nat) : Int := (p.strips : Int) * fi - ((p.strips : Int) - 1) * p.scanTime

/-- The base of R55, before the margin and the limit S. -/
def raceBase (nq : Int) (fi : Nat) : Nat := if nq ≤ 0 then 1 else max 1 ((nq.toNat + fi - 1) / fi)

theorem raceThreshold_eq_min_base (p : Profile) (fi : Nat) :
    raceThreshold p fi = min p.strips (raceBase (fillToCover p fi) fi + p.raceMargin) := rfl

theorem one_le_raceBase (nq : Int) (fi : Nat) : 1 ≤ raceBase nq fi := by
  unfold raceBase
  split
  · exact Nat.le_refl 1
  · exact Nat.le_max_left _ _

/-- The rounded-up quotient is the least multiplier of at least 1 that covers `nq`. -/
theorem raceBase_le_iff {nq : Int} {fi b : Nat} (hfi : fi = 0 → nq ≤ 0) (hb : 1 ≤ b) :
    raceBase nq fi ≤ b ↔ nq ≤ (b : Int) * fi := by
  unfold raceBase
  split
  next hnq => exact iff_of_true hb (hnq.trans (by positivity))
  next hnq =>
    have hpos : 0 < fi := Nat.pos_of_ne_zero fun h => hnq (hfi h)
    calc max 1 ((nq.toNat + fi - 1) / fi) ≤ b ↔ (nq.toNat + fi - 1) / fi ≤ b := by simp [hb]
      _ ↔ nq.toNat ≤ fi * b := by rw [← Nat.ceilDiv_eq_add_pred_div, ceilDiv_le_iff_le_mul hpos]
      _ ↔ nq ≤ (b : Int) * fi := by rw [Int.toNat_le, Nat.mul_comm]; push_cast; rfl

/-- With no fill time there is nothing to cover. -/
theorem fillToCover_nonpos_of_zero {p : Profile} (hS : 1 ≤ p.strips) {fi : Nat} (hfi : fi = 0) :
    fillToCover p fi ≤ 0 := by
  have hprod : 0 ≤ ((p.strips : Int) - 1) * p.scanTime := mul_nonneg (by omega) (by positivity)
  simpa [fillToCover, hfi] using hprod

/-- Settles O57: the base of R55 is least by `raceBase_le_iff`. -/
theorem raceThresholdIsLeast : Obligations.RaceThresholdIsLeast := by
  intro p fi hS
  have hbase := one_le_raceBase (fillToCover p fi) fi
  have hleast {b : Nat} (hb : 1 ≤ b) := raceBase_le_iff (b := b) (fillToCover_nonpos_of_zero (fi := fi) hS) hb
  refine ⟨⟨rfl, rfl, rfl⟩, raceThreshold p fi, rfl, ?_, ?_, raceBase (fillToCover p fi) fi,
    raceThreshold_eq_min_base p fi, hbase, (hleast hbase).mp le_rfl, fun b hb hcover => ?_⟩
  · rw [raceThreshold_eq_min_base]
    omega
  · rw [raceThreshold_eq_min_base]
    exact Nat.min_le_left _ _
  · lift b to Nat using (by omega)
    exact_mod_cast (hleast (by omega)).mpr hcover

/-- The repeat plan where R58 sets none. -/
theorem planOf_inactive {p : Option Profile} {ti : Option Nat}
    (h : ∀ q t, p = some q → ti = some t → ¬ (q.pacing = .adaptive ∧ q.repeatPlan = true ∧ q.winMax < t)) :
    planOf p ti = (false, 0, 0) := by
  cases p with
  | none => rfl
  | some q =>
    cases ti with
    | none => rfl
    | some t => exact if_neg (h q t rfl rfl)

/-- The repeat plan where R58 sets one. -/
theorem planOf_active {p : Profile} {ti : Nat} (hmode : p.pacing = .adaptive) (hon : p.repeatPlan = true)
    (hslow : p.winMax < ti) :
    planOf (some p) (some ti) = (true, planFactor ti p.winMax, ti / planFactor ti p.winMax) :=
  if_pos ⟨hmode, hon, hslow⟩

theorem two_le_planFactor (ti tmax : Nat) : 2 ≤ planFactor ti tmax := Nat.le_max_left _ _

/-- The plan's factor is the least of at least 2 whose part of the interval fits under Tmax. -/
theorem planFactor_le_iff {ti tmax k : Nat} (hk : 2 ≤ k) : planFactor ti tmax ≤ k ↔ ti / k ≤ tmax :=
  calc max 2 (ti / (tmax + 1) + 1) ≤ k ↔ ti / (tmax + 1) < k := by simp [hk]
    _ ↔ ti < k * (tmax + 1) := Nat.div_lt_iff_lt_mul (Nat.succ_pos tmax)
    _ ↔ ti / k < tmax + 1 := by rw [Nat.div_lt_iff_lt_mul (by omega : 0 < k), Nat.mul_comm]
    _ ↔ ti / k ≤ tmax := Nat.lt_succ_iff

/-- Above Tmax the interval holds Tmax + 1 at least k - 1 times. -/
theorem pred_planFactor_mul_le {ti tmax : Nat} (hslow : tmax < ti) : (planFactor ti tmax - 1) * (tmax + 1) ≤ ti := by
  have hone : 1 ≤ ti / (tmax + 1) := (Nat.one_le_div_iff (Nat.succ_pos tmax)).mpr hslow
  have hfactor : planFactor ti tmax - 1 = ti / (tmax + 1) := by
    unfold planFactor
    omega
  rw [hfactor]
  exact Nat.div_mul_le_self ti (tmax + 1)

/-- A part of the planned interval is no shorter than Tmin, where Tmax is at least twice Tmin. -/
theorem winMin_le_planned {ti tmin tmax : Nat} (hslow : tmax < ti) (hwin : 2 * tmin ≤ tmax) :
    tmin ≤ ti / planFactor ti tmax := by
  have hk := two_le_planFactor ti tmax
  rw [Nat.le_div_iff_mul_le (by omega)]
  calc tmin * planFactor ti tmax ≤ tmin * (2 * (planFactor ti tmax - 1)) := Nat.mul_le_mul_left _ (by omega)
    _ = (planFactor ti tmax - 1) * (2 * tmin) := by ring
    _ ≤ (planFactor ti tmax - 1) * (tmax + 1) := Nat.mul_le_mul_left _ (by omega)
    _ ≤ ti := pred_planFactor_mul_le hslow

/-- The longest interval of R53 over the shortest Tmax of a plan. -/
theorem planFactor_le_41 {ti tmin tmax : Nat} (hti : ti ≤ 16777216) (hmin : 208333 ≤ tmin) (hwin : 2 * tmin ≤ tmax) :
    planFactor ti tmax ≤ 41 := by
  rw [planFactor_le_iff (by omega)]
  omega

/-- Settles O58: the factor of R58 is least by `planFactor_le_iff`. -/
theorem repeatPlanDividesInterval : Obligations.RepeatPlanDividesInterval := by
  refine ⟨fun p ti h => planOf_inactive h, fun p ti hmode hon hslow hti hmin hwin => ?_⟩
  have hk := two_le_planFactor ti p.winMax
  have hfits := (planFactor_le_iff hk).mp le_rfl
  refine ⟨_, _, planOf_active hmode hon hslow, hk, hfits, fun j hj hlt => ?_, planFactor_le_41 hti hmin hwin, rfl,
    winMin_le_planned hslow hwin, hfits⟩
  exact Nat.lt_of_not_le fun hj' => Nat.not_le_of_lt hlt ((planFactor_le_iff hj).mpr hj')

/-- The phase against its target Tf - G, before the fold (R61). -/
def unfoldedError (p : Profile) (phase : Nat) : Int := (phase : Int) - ((p.fixedInterval : Int) - p.lockGuard)

theorem phaseError_of_late {p : Profile} {phase : Nat} (h : ((p.fixedInterval / 2 : Nat) : Int) < unfoldedError p phase) :
    phaseError p phase = unfoldedError p phase - p.fixedInterval := if_pos h

theorem phaseError_of_early {p : Profile} {phase : Nat}
    (h : unfoldedError p phase ≤ -((p.fixedInterval / 2 : Nat) : Int))
    (hlate : ¬ ((p.fixedInterval / 2 : Nat) : Int) < unfoldedError p phase) :
    phaseError p phase = unfoldedError p phase + p.fixedInterval := (if_neg hlate).trans (if_pos h)

theorem phaseError_of_near {p : Profile} {phase : Nat}
    (hlow : -((p.fixedInterval / 2 : Nat) : Int) < unfoldedError p phase)
    (hhigh : unfoldedError p phase ≤ ((p.fixedInterval / 2 : Nat) : Int)) :
    phaseError p phase = unfoldedError p phase := (if_neg hhigh.not_gt).trans (if_neg hlow.not_ge)

/-- One fold brings the error of a phase of at most five quarters of Tf within half an interval. -/
theorem phaseError_within_half {p : Profile} {phase : Nat} (hguard : p.lockGuard ≤ p.fixedInterval / 4)
    (hphase : (phase : Int) ≤ (p.fixedInterval : Int) + (p.fixedInterval : Int) / 4) :
    -((p.fixedInterval / 2 : Nat) : Int) - 1 ≤ phaseError p phase ∧
      phaseError p phase ≤ ((p.fixedInterval / 2 : Nat) : Int) + 1 := by
  have hdef : unfoldedError p phase = (phase : Int) - ((p.fixedInterval : Int) - p.lockGuard) := rfl
  by_cases hlate : ((p.fixedInterval / 2 : Nat) : Int) < unfoldedError p phase
  · rw [phaseError_of_late hlate]
    omega
  · by_cases hearly : unfoldedError p phase ≤ -((p.fixedInterval / 2 : Nat) : Int)
    · rw [phaseError_of_early hearly hlate]
      omega
    · rw [phaseError_of_near (not_le.mp hearly) (not_lt.mp hlate)]
      omega

/-- What the correction of R62 is, for whatever Cmax the lock state gives. -/
theorem correction_bounds {p : Profile} {l : Lock} {cmax : Int} (hcmax : (maxCorrection p l : Int) = cmax) (d : Int) :
    correction p l d ≤ cmax ∧ -cmax ≤ correction p l d ∧ (-4 ≤ d → d ≤ 3 → correction p l d = 0) ∧
      (-cmax ≤ (d + 4) / 8 → (d + 4) / 8 ≤ cmax → 8 * correction p l d ≤ d + 4 ∧ d + 4 < 8 * correction p l d + 8) ∧
      (cmax < (d + 4) / 8 → correction p l d = cmax) ∧ ((d + 4) / 8 < -cmax → correction p l d = -cmax) := by
  have hheld : correction p l d = max (-cmax) (min cmax ((d + 4) / 8)) := by rw [← hcmax]; rfl
  have hnonneg : 0 ≤ cmax := hcmax ▸ Int.natCast_nonneg _
  rw [hheld]
  refine ⟨?_, ?_, ?_, ?_, ?_, ?_⟩ <;> omega

/-- With Tf in the window, the bounds of the next fixed interval stand in order around it (R63). -/
theorem fixedLower_le_fixedUpper {p : Profile} (hmin : p.winMin ≤ p.fixedInterval) (hmax : p.fixedInterval ≤ p.winMax) :
    fixedLower p ≤ fixedUpper p := by
  unfold fixedLower fixedUpper
  omega

theorem clampFixed_mem_bounds {p : Profile} (hbounds : fixedLower p ≤ fixedUpper p) (x : Int) :
    fixedLower p ≤ clampFixed p x ∧ clampFixed p x ≤ fixedUpper p := by
  unfold clampFixed
  omega

theorem clampFixed_of_mem_bounds {p : Profile} {x : Int} (hlow : (fixedLower p : Int) ≤ x) (hhigh : x ≤ fixedUpper p) :
    (clampFixed p x : Int) = x := by
  rw [clampFixed, min_eq_right hhigh, max_eq_right hlow, Int.toNat_of_nonneg (by omega)]

theorem fixedLower_cast (p : Profile) :
    (fixedLower p : Int) = max (p.winMin : Int) (p.fixedInterval - p.fixedInterval / 64) := by
  unfold fixedLower
  omega

theorem fixedUpper_cast (p : Profile) :
    (fixedUpper p : Int) = min (p.winMax : Int) (p.fixedInterval + p.fixedInterval / 64) := by
  unfold fixedUpper
  omega

/-- Settles O59: the fold of R61 by its three cases, the correction of R62 and the hold of R63. -/
theorem lockArithmetic : Obligations.LockArithmetic := by
  refine ⟨fun p phase => ⟨phaseError_of_late, phaseError_of_early, phaseError_of_near,
    fun hguard hphase _ => phaseError_within_half hguard hphase⟩, fun p l d => ?_, fun p x hmin hmax => ?_⟩
  · refine correction_bounds ?_ d
    cases l <;> rfl
  · obtain ⟨hlow, hhigh⟩ := clampFixed_mem_bounds (fixedLower_le_fixedUpper hmin hmax) x
    refine ⟨(Nat.le_max_left _ _).trans hlow, hhigh.trans (Nat.min_le_left _ _), (Nat.le_max_right _ _).trans hlow,
      hhigh.trans (Nat.min_le_right _ _), fun hxlow hxhigh => ?_⟩
    exact clampFixed_of_mem_bounds ((fixedLower_cast p).trans_le hxlow) (hxhigh.trans_eq (fixedUpper_cast p).symm)

end Sys2Proof.Machine
end

section
/-! The colour stage (chapter 6). The outcome of LUT Write rests on three facts: a granted request that passes the sequence
check is carried out by its own rule, the refusals of R121 come in the rule's order, and a bank written from a start index
is given entry by entry. -/

namespace Sys2Proof.Machine

/-- A row whose request is served carries it out, and the link settles (R166). -/
theorem execRequest_of_serves {type : Nat} {f : Request → State → State} {s : State} {r : Request}
    (h : s.serves type r) : execRequest type f s = .next (settle (f r (takeRequest s))) := by
  obtain ⟨hrun, hgranted, htype, hentry⟩ := h
  exact execRequest_of_granted hrun hgranted (by simp [Request.reaches, htype, hentry])

theorem takeRequest_passesCheck {s : State} (h : s.passesCheck) : (takeRequest s).passesCheck := h

/-- With no HELD proposal and no fault, the request's own rule applies (R133). -/
theorem sequenceCheck_of_passesCheck {f : Request → State → State} {r : Request} {s : State} (h : s.passesCheck) :
    sequenceCheck f r s = f r s := by
  obtain ⟨hnotHeld, hnoFault⟩ := h
  simp [sequenceCheck, hnotHeld, hnoFault]

/-- A reply pushed once its request has left the slot is the answer the statements speak of. -/
theorem pushReply_takeRequest (s : State) (rep : Reply) : pushReply rep (takeRequest s) = s.answered rep := rfl

/-- A LUT Write that is served and passes the sequence check is carried out by its own rule (R121, R133). -/
theorem exec_lutWrite {s : State} {r : Request} (h : s.serves 0x20 r) (hcheck : s.passesCheck) :
    exec .lutWrite s = .next (settle (lutWrite r (takeRequest s))) :=
  calc exec .lutWrite s = .next (settle (sequenceCheck lutWrite r (takeRequest s))) := execRequest_of_serves h
    _ = .next (settle (lutWrite r (takeRequest s))) := by
      rw [sequenceCheck_of_passesCheck (takeRequest_passesCheck hcheck)]

/-- While a commit is pending, LUT Write is refused CONFLICT (R121). -/
theorem lutWrite_of_shadowPending {r : Request} {s : State} (h : s.cs.shadowPending = true) :
    lutWrite r s = answer r .conflict s := by
  simp [lutWrite, h]

/-- A start index above 256 fails field 1 (R121). -/
theorem lutWrite_of_start_gt {r : Request} {s : State} (h : s.cs.shadowPending = false)
    (hstart : 256 < fieldAt r.payload 0 2) : lutWrite r s = answerField r .badField 1 s := by
  simp [lutWrite, h, hstart]

/-- A count of 0 or above 771 fails field 2 (R121). -/
theorem lutWrite_of_count_out_of_range {r : Request} {s : State} (h : s.cs.shadowPending = false)
    (hstart : fieldAt r.payload 0 2 ≤ 256) (hn : fieldAt r.payload 2 2 = 0 ∨ 771 < fieldAt r.payload 2 2) :
    lutWrite r s = answerField r .badField 2 s := by
  simp [lutWrite, h, hstart.not_gt, hn]

/-- A lawful LUT Write writes the shadow bank and answers the number of entries written (R121). -/
theorem lutWrite_of_lawful {r : Request} {s : State} (h : s.cs.shadowPending = false)
    (hstart : fieldAt r.payload 0 2 ≤ 256) (hlow : 1 ≤ fieldAt r.payload 2 2) (hhigh : fieldAt r.payload 2 2 ≤ 771) :
    lutWrite r s =
      answerWith r (leBytes 2 (lutWritten (fieldAt r.payload 0 2) (fieldAt r.payload 2 2)))
        (s.setCs { s.cs with
          shadow := writeBank r.payload (fieldAt r.payload 0 2)
            (lutWritten (fieldAt r.payload 0 2) (fieldAt r.payload 2 2)) s.cs.shadow }) := by
  have hn : ¬ (fieldAt r.payload 2 2 = 0 ∨ 771 < fieldAt r.payload 2 2) := by omega
  simp [lutWrite, h, hstart.not_gt, hn]

@[simp] theorem writeBank_length (bs : List Byte) (start count : Nat) (bank : List Colour) :
    (writeBank bs start count bank).length = bank.length := List.length_mapIdx

/-- An entry of the written range holds its group of three values; every other entry is as it was (R121). -/
theorem writeBank_getElem? (bs : List Byte) (start count : Nat) {bank : List Colour} {i : Nat} (hi : i < bank.length) :
    (writeBank bs start count bank)[i]? =
      if start ≤ i ∧ i < start + count then some (lutGroup bs (i - start)) else bank[i]? := by
  rw [writeBank, List.getElem?_mapIdx, List.getElem?_eq_getElem hi]
  split <;> rfl

/-- Settles O30: the refusals of R121 in order, then the written bank entry by entry. -/
theorem lutWriteAnswers : Obligations.LutWriteAnswers := by
  intro s r hserves hcheck start n
  rw [exec_lutWrite hserves hcheck]
  refine ⟨fun hpending => ?_, fun hfree => ⟨fun hstart => ?_, fun hstart hn => ?_, fun hstart hlow hhigh => ?_⟩⟩
  · rw [lutWrite_of_shadowPending (s := takeRequest s) hpending, answer, pushReply_takeRequest]
  · rw [lutWrite_of_start_gt (s := takeRequest s) hfree hstart, answerField, pushReply_takeRequest]
  · rw [lutWrite_of_count_out_of_range (s := takeRequest s) hfree hstart hn, answerField, pushReply_takeRequest]
  · refine ⟨writeBank r.payload start (lutWritten start n) s.cs.shadow, ?_, writeBank_length .., fun i hi => ?_⟩
    · rw [lutWrite_of_lawful (s := takeRequest s) hfree hstart hlow hhigh]
      rfl
    · exact writeBank_getElem? r.payload start (lutWritten start n) (by simpa using hi)

end Sys2Proof.Machine
end

section
/-! The requests of the profile controller that leave the timing alone (chapter 7): the sequence check with Clear Fault,
Withdraw Profile and Get Profile. Each outcome is given once as an equation of the operation, in a state whose request has
left its slot; a served request then answers by it. -/

namespace Sys2Proof.Machine

/-- A change of the profile controller made once the request has left its slot, then its reply: the answer on the changed
state. -/
theorem pushReply_setPc_takeRequest (s : State) (pc : ProfileCtl) (rep : Reply) :
    pushReply rep ((takeRequest s).setPc pc) = { s with pc := pc }.answered rep := rfl

/-- A configuration request that meets a HELD proposal discards it and sets the fault (R133). -/
theorem sequenceCheck_of_held {f : Request → State → State} {r : Request} {s : State} (h : s.pc.propState = .held) :
    sequenceCheck f r s =
      answer r .sequence (s.setPc { s.pc with propState := .none, proposal := none, faulted := true }) := if_pos h

/-- With no HELD proposal, a fault refuses a configuration request (R133). -/
theorem sequenceCheck_of_faulted {f : Request → State → State} {r : Request} {s : State}
    (hnotHeld : s.pc.propState ≠ .held) (hfault : s.pc.faulted = true) :
    sequenceCheck f r s = answer r .faulted s := (if_neg hnotHeld).trans (if_pos hfault)

/-- The two refusals of the sequence check, as every configuration request that is served draws them (R133). -/
theorem execRequest_sequenceCheck_refuses {type : Nat} {f : Request → State → State} {s : State} {r : Request}
    (h : s.serves type r) :
    (s.pc.propState = .held →
      execRequest type (sequenceCheck f) s = .next (settle ({ s with pc := { s.pc with
        propState := .none, proposal := none, faulted := true } }.answered ⟨r.tag, .sequence, 0, []⟩))) ∧
    (s.pc.propState ≠ .held → s.pc.faulted = true →
      execRequest type (sequenceCheck f) s = .next (settle (s.answered ⟨r.tag, .faulted, 0, []⟩))) := by
  rw [execRequest_of_serves h]
  refine ⟨fun hheld => ?_, fun hnotHeld hfault => ?_⟩
  · rw [sequenceCheck_of_held (s := takeRequest s) hheld, answer, pushReply_setPc_takeRequest]
    rfl
  · rw [sequenceCheck_of_faulted (s := takeRequest s) hnotHeld hfault, answer, pushReply_takeRequest]

/-- A Clear Fault that is served clears the fault, whatever it was (R134). -/
theorem exec_clearFault {s : State} {r : Request} (h : s.serves 0x14 r) :
    exec .clearFault s =
      .next (settle ({ s with pc := { s.pc with faulted := false } }.answered ⟨r.tag, .ok, 0, []⟩)) :=
  calc exec .clearFault s = .next (settle (clearFault r (takeRequest s))) := execRequest_of_serves h
    _ = _ := by rw [clearFault, answer, pushReply_setPc_takeRequest]; rfl

/-- Settles O21: each of the six rows runs the sequence check before its own rule, so one lemma refuses for all of them. -/
theorem sequenceCheckAndClearFault : Obligations.SequenceCheckAndClearFault := by
  refine ⟨fun row hrow s r hserves => ?_, fun s r hserves => exec_clearFault hserves⟩
  simp only [List.mem_cons, List.not_mem_nil, or_false] at hrow
  obtain rfl | rfl | rfl | rfl | rfl | rfl := hrow
  · exact execRequest_sequenceCheck_refuses (f := setPanelLimits) hserves
  · exact execRequest_sequenceCheck_refuses (f := proposeProfile) hserves
  · exact execRequest_sequenceCheck_refuses (f := tuneProfile) hserves
  · exact execRequest_sequenceCheck_refuses (f := lutWrite) hserves
  · exact execRequest_sequenceCheck_refuses (f := lutCommit) hserves
  · exact execRequest_sequenceCheck_refuses (f := setFilter) hserves

/-- A HELD proposal is discarded, and the fault stays as it is (R137). -/
theorem withdrawProfile_of_held {r : Request} {s : State} (h : s.pc.propState = .held) :
    withdrawProfile r s = answer r .ok (s.setPc { s.pc with propState := .none, proposal := none }) := if_pos h

/-- With no HELD proposal there is nothing to withdraw (R137). -/
theorem withdrawProfile_of_not_held {r : Request} {s : State} (h : s.pc.propState ≠ .held) :
    withdrawProfile r s = answer r .noProposal s := if_neg h

/-- Settles O28, by the proposal state. -/
theorem withdrawProfileAnswers : Obligations.WithdrawProfileAnswers := by
  intro s r hserves
  have hexec : exec .withdrawProfile s = .next (settle (withdrawProfile r (takeRequest s))) :=
    execRequest_of_serves hserves
  rw [hexec]
  split
  next hheld =>
    rw [withdrawProfile_of_held (s := takeRequest s) hheld, answer, pushReply_setPc_takeRequest]
    rfl
  next hnotHeld =>
    rw [withdrawProfile_of_not_held (s := takeRequest s) hnotHeld, answer, pushReply_takeRequest]

/-- The active profile is read out (R143). -/
theorem getProfile_of_active {r : Request} {s : State} {p : Profile} (h : s.pc.active = some p) :
    getProfile r s = answerWith r p.bytes s := by
  simp [getProfile, h]

/-- With no active profile there is nothing to read (R143). -/
theorem getProfile_of_inactive {r : Request} {s : State} (h : s.pc.active = none) :
    getProfile r s = answer r .noProfile s := by
  simp [getProfile, h]

/-- Settles O19, by whether a profile is active. -/
theorem getProfileAnswers : Obligations.GetProfileAnswers := by
  intro s r hserves
  have hexec : exec .getProfile s = .next (settle (getProfile r (takeRequest s))) := execRequest_of_serves hserves
  rw [hexec]
  refine ⟨fun p hactive => ?_, fun hnone => ?_⟩
  · rw [getProfile_of_active (s := takeRequest s) hactive, answerWith, pushReply_takeRequest]
  · rw [getProfile_of_inactive (s := takeRequest s) hnone, answer, pushReply_takeRequest]

end Sys2Proof.Machine
end

section
/-! The packet filter (chapter 8): which entry a packet hits, and what the hit writes. The hit is characterised once, by
the entries that match; a capture then has one equation for unchanged content and one for new content. -/

namespace Sys2Proof.Machine

/-- An entry matches in the words of R147: it is enabled, and the masked difference of identity and code is 0. -/
theorem FilterEntry.hits_iff (e : FilterEntry) (identity : BitVec 16) :
    e.hits identity = true ↔ e.enabled = true ∧ (identity ^^^ e.code) &&& e.mask = 0 := by
  simp [FilterEntry.hits]

/-- No entry is hit exactly when none matches (R147). -/
theorem PacketFilter.hit_eq_none_iff (f : PacketFilter) (identity : BitVec 16) :
    f.hit identity = none ↔ ∀ i : Fin 4, ¬ f.entries[i].hits identity = true := by
  simp [PacketFilter.hit]

/-- The entry that is hit is the lowest-numbered one that matches (R147). -/
theorem PacketFilter.hit_eq_some_iff (f : PacketFilter) (identity : BitVec 16) (i : Fin 4) :
    f.hit identity = some i ↔
      f.entries[i].hits identity = true ∧ ∀ j < i, ¬ f.entries[j].hits identity = true := by
  rw [PacketFilter.hit, ← Fin.find?_eq_find?_finRange, Fin.find?_eq_some_iff]
  simp

/-- The content of a record is a packet's when type, version and payload agree (R148). -/
theorem Capture.sameContent_iff (c : Capture) (ptype version : Byte) (payload : List Byte) :
    c.sameContent ptype version payload = true ↔ c.ptype = ptype ∧ c.version = version ∧ c.payload = payload := by
  simp [Capture.sameContent, and_assoc]

/-- A packet above 28 bytes reaches no entry (R147). -/
theorem packetEvent_of_long {ptype version : Byte} {payload : List Byte} {s : State} (h : 28 < payload.length) :
    packetEvent ptype version payload s = s := if_pos h

/-- A packet that hits no entry is discarded (R147). -/
theorem packetEvent_of_hit_none {ptype version : Byte} {payload : List Byte} {s : State}
    (h : s.pf.hit (packetIdentity ptype version) = none) : packetEvent ptype version payload s = s := by
  simp [packetEvent, h]

/-- A packet of at most 28 bytes that hits an entry is captured there (R147). -/
theorem packetEvent_of_hit_some {ptype version : Byte} {payload : List Byte} {s : State} {i : Fin 4}
    (hlen : payload.length ≤ 28) (h : s.pf.hit (packetIdentity ptype version) = some i) :
    packetEvent ptype version payload s = capturePacket i ptype version payload s := by
  simp [packetEvent, maxPacket, hlen.not_gt, h]

/-- Unchanged content: the stamps alone are replaced (R148). -/
theorem capturePacket_of_sameContent {i : Fin 4} {ptype version : Byte} {payload : List Byte} {s : State} {c : Capture}
    (hrec : s.pf.captures[i] = some c) (hsame : c.sameContent ptype version payload = true) :
    capturePacket i ptype version payload s =
      setCapture i (some { c with arrival := s.timeBase, frameCounter := s.sp.frameCounter }) s := by
  simp only [capturePacket, hrec, hsame, if_true]
  rfl

/-- An absent record or new content: the whole packet is written with the changed flag set, and the notice carries the
changed set of the filter after the write (R148, R149). -/
theorem capturePacket_of_newContent {i : Fin 4} {ptype version : Byte} {payload : List Byte} {s : State}
    (hnew : ∀ c, s.pf.captures[i] = some c → ¬ c.sameContent ptype version payload = true) :
    let t := setCapture i (some ⟨ptype, version, payload, s.timeBase, s.sp.frameCounter, true⟩) s
    capturePacket i ptype version payload s = raise (.packetChanged t.pf.changedSet) t := by
  unfold capturePacket
  split
  next c hrec => exact if_neg (hnew c hrec)
  next => rfl

/-- A lawful packet takes its effect at the filter, and the link settles (R26, R147). -/
theorem exec_packet {ptype version : Byte} {payload : List Byte} {s : State} (hrun : s.running)
    (hok : payload.length ≤ 255) :
    exec (.packet ptype version payload) s = .next (settle (packetEvent ptype version payload s)) :=
  calc exec (.packet ptype version payload) s
    _ = execPacket ptype version payload s := rfl
    _ = whileRunning (fun s => .next (settle (packetEvent ptype version payload s))) s := if_pos (decide_eq_true hok)
    _ = .next (settle (packetEvent ptype version payload s)) := by rw [whileRunning_eq, hrun]; rfl

/-- Settles O51: the length check, then the hit by `PacketFilter.hit_eq_some_iff`, then the two cases of R148. -/
theorem packetIsCaptured : Obligations.PacketIsCaptured := by
  intro s ptype version payload hrun hok identity matched captured
  have hmatched (i : Fin 4) : matched i ↔ s.pf.entries[i].hits identity = true := (FilterEntry.hits_iff _ _).symm
  rw [exec_packet hrun hok]
  refine ⟨?_, fun hlen i hi hlow => ?_⟩
  · rintro (hlong | hnone)
    · rw [packetEvent_of_long hlong]
    · have hhit : s.pf.hit identity = none :=
        (s.pf.hit_eq_none_iff identity).mpr fun i hi => hnone i ((hmatched i).mpr hi)
      rw [packetEvent_of_hit_none hhit]
  · have hhit : s.pf.hit identity = some i :=
      (s.pf.hit_eq_some_iff identity i).mpr
        ⟨(hmatched i).mp hi, fun j hj hits => hlow j hj ((hmatched j).mpr hits)⟩
    rw [packetEvent_of_hit_some hlen hhit]
    refine ⟨fun c hrec htype hversion hpayload => ?_, fun hnew => ?_⟩
    · rw [capturePacket_of_sameContent hrec ((c.sameContent_iff ..).mpr ⟨htype, hversion, hpayload⟩)]
      rfl
    · rw [capturePacket_of_newContent fun c hrec hsame => hnew c hrec ((c.sameContent_iff ..).mp hsame)]
      rfl

end Sys2Proof.Machine
end

section
/-! The message link (chapter 10): the identity of the part, and the notice enables. The one field of an enable set is its
byte, and the pending copies that Set Notices keeps are those whose flag in that byte is set. -/

namespace Sys2Proof.Machine

/-- The identity reads 0x60 0x1D, which is 7520 little-endian, then the letter A and the version 1 (R171, R173). -/
theorem identityBody_bytes : identityBody = [0x60, 0x1D, 0x41, 0x01] := by decide

/-- Settles O17: Get Identity has no check of its own, so a served request is answered with the identity. -/
theorem getIdentityAnswers : Obligations.GetIdentityAnswers := by
  intro s r hserves
  calc exec .getIdentity s
    _ = .next (settle (answerWith r identityBody (takeRequest s))) := execRequest_of_serves hserves
    _ = .next (settle (s.answered ⟨r.tag, .ok, 0, [0x60, 0x1D, 0x41, 0x01]⟩)) := by
      rw [answerWith, pushReply_takeRequest, identityBody_bytes]

/-- A field of one byte is the byte's value (R173). -/
theorem fieldAt_singleton (b : Byte) : fieldAt [b] 0 1 = b.toNat := by
  simp [fieldAt, leNat]

@[simp] theorem enablesOf_getElem (set : Nat) (i : Fin 5) : (enablesOf set)[i] = set.testBit i.val := by
  simp [enablesOf]

/-- Under an enable set, the copies that stay pending are those of the kinds whose flag is set (R170). -/
theorem keptNotices_enablesOf (set : Nat) (n : Vector (Option NoticeMsg) 5) :
    keptNotices (enablesOf set) n = Vector.ofFn fun i : Fin 5 => if set.testBit i.val then n[i] else none := by
  simp only [keptNotices, enablesOf_getElem]

/-- An enable set of 32 or above has a flag outside the five kinds and fails field 1 (R170). -/
theorem setNotices_of_extra_flag {r : Request} {s : State} (h : 32 ≤ fieldAt r.payload 0 1) :
    setNotices r s = answerField r .badField 1 s := if_pos h

/-- A lawful enable set replaces the enables and keeps the copies of the kinds it enables (R170). -/
theorem setNotices_of_lawful {r : Request} {s : State} (h : ¬ 32 ≤ fieldAt r.payload 0 1) :
    setNotices r s = answer r .ok (s.setMl { s.ml with
      enables := enablesOf (fieldAt r.payload 0 1)
      notices := keptNotices (enablesOf (fieldAt r.payload 0 1)) s.ml.notices }) := if_neg h

/-- Enables and notices changed once the request has left its slot, then its reply: the answer on the changed state. -/
theorem pushReply_setNotices_takeRequest (s : State) (on : Vector Bool 5) (n : Vector (Option NoticeMsg) 5) (rep : Reply) :
    pushReply rep ((takeRequest s).setMl { (takeRequest s).ml with enables := on, notices := n }) =
      { s with ml := { s.ml with enables := on, notices := n } }.answered rep := rfl

/-- Settles O20, by whether the byte has a flag outside the five kinds. -/
theorem setNoticesAnswers : Obligations.SetNoticesAnswers := by
  intro s r b hserves hpayload
  have hset : fieldAt r.payload 0 1 = b.toNat := by rw [hpayload, fieldAt_singleton]
  have hexec : exec .setNotices s = .next (settle (setNotices r (takeRequest s))) := execRequest_of_serves hserves
  rw [hexec]
  split
  next hextra => rw [setNotices_of_extra_flag (hset ▸ hextra), answerField, pushReply_takeRequest]
  next hlawful =>
    rw [setNotices_of_lawful (hset ▸ hlawful), hset, answer, pushReply_setNotices_takeRequest, keptNotices_enablesOf]
    rfl

end Sys2Proof.Machine
end

section
/-! The score and the history ring (chapters 2 and 9): each invariant reads a few items of the state, so it is stated once
as a congruence on them, and the commands that change those items are treated one by one. -/

namespace Sys2Proof.Machine

/-- A configuration request leaves what its own rule, its two refusals and the profile controller's change leave. -/
theorem sequenceCheck_keeps {β : Type} (g : State → β) (hpc : ∀ (s : State) (x : ProfileCtl), g (s.setPc x) = g s)
    (hanswer : ∀ (r : Request) (st : Status) (s : State), g (answer r st s) = g s) {f : Request → State → State}
    {r : Request} {s : State} (hf : g (f r s) = g s) : g (sequenceCheck f r s) = g s := by
  obtain h | h | h := sequenceCheck_cases f r s
  · rw [h, hanswer, hpc]
  · rw [h, hanswer]
  · rw [h, hf]

@[simp] theorem sequenceCheck_sp {f : Request → State → State} {r : Request} {s : State} (hf : (f r s).sp = s.sp) :
    (sequenceCheck f r s).sp = s.sp := sequenceCheck_keeps State.sp (by simp) (by simp) hf

@[simp] theorem sequenceCheck_hr {f : Request → State → State} {r : Request} {s : State} (hf : (f r s).hr = s.hr) :
    (sequenceCheck f r s).hr = s.hr := sequenceCheck_keeps State.hr (by simp) (by simp) hf

/-- The band of R36 that a source state allows; UNARMED has score 0. -/
def SourceState.allows (st : SourceState) (score : Nat) : Prop :=
  match st with
  | .unarmed => score = 0
  | .clean => score ≤ 31
  | .watch => 32 ≤ score ∧ score ≤ 63
  | .guarded => 64 ≤ score ∧ score ≤ 127
  | .detached => 128 ≤ score ∧ score ≤ 255

theorem bandHolds_iff (s : State) : s.bandHolds ↔ s.sp.state.allows s.sp.score := Iff.rfl

theorem bandHolds_congr {s t : State} (hstate : t.sp.state = s.sp.state) (hscore : t.sp.score = s.sp.score)
    (h : s.bandHolds) : t.bandHolds := by
  rw [bandHolds_iff, hstate, hscore]
  exact h

/-- No state allows a score above 255. -/
theorem SourceState.allows_le {st : SourceState} {score : Nat} (h : st.allows score) : score ≤ 255 := by
  cases st <;> simp only [SourceState.allows] at h <;> omega

/-- A score up to 255 lies in the band of its own state. -/
theorem bandOf_allows {score : Nat} (h : score ≤ 255) : (bandOf score).allows score := by
  unfold bandOf
  repeat' split
  all_goals simp only [SourceState.allows]; omega

theorem scoreUp_le (x : Nat) : scoreUp x ≤ 255 := Nat.min_le_left _ _

theorem scoreDown_le (x : Nat) : scoreDown x ≤ x := Nat.sub_le _ _

/-- A change of the score under an attached source: the new score, and the state whose band holds it (R35, R36). -/
theorem changeScore_sets {f : Nat → Nat} {s : State} (h : s.sp.state.attached = true) :
    (changeScore f s).sp.state = bandOf (f s.sp.score) ∧ (changeScore f s).sp.score = f s.sp.score := by
  simp only [changeScore, h, if_true]
  split
  next hband => simp [hband]
  next => simp

/-- Out of an attached source there is no score to change (R35). -/
theorem changeScore_of_not_attached {f : Nat → Nat} {s : State} (h : s.sp.state.attached = false) :
    changeScore f s = s := by
  simp [changeScore, h]

theorem changeScore_bandHolds {f : Nat → Nat} (hf : ∀ x ≤ 255, f x ≤ 255) {s : State} (h : s.bandHolds) :
    (changeScore f s).bandHolds := by
  cases hatt : s.sp.state.attached with
  | false => rwa [changeScore_of_not_attached hatt]
  | true =>
    obtain ⟨hstate, hscore⟩ := changeScore_sets (f := f) hatt
    rw [bandHolds_iff, hstate, hscore]
    exact bandOf_allows (hf _ (SourceState.allows_le h))

theorem scoreUp_bandHolds {s : State} (h : s.bandHolds) : (changeScore scoreUp s).bandHolds :=
  changeScore_bandHolds (fun x _ => scoreUp_le x) h

theorem strayEvent_bandHolds {s : State} (h : s.bandHolds) : (strayEvent s).bandHolds := by
  simp only [strayEvent]
  split
  · exact scoreUp_bandHolds h
  · exact scoreUp_bandHolds h
  · exact scoreUp_bandHolds h
  · exact bandHolds_congr (by simp) (by simp) h
  · exact h

theorem closeByStart_bandHolds {s : State} (h : s.bandHolds) : (closeByStart s).bandHolds := by
  simp only [closeByStart]
  split
  case h_5 => exact scoreUp_bandHolds (bandHolds_congr (by simp) (by simp) h)
  all_goals exact bandHolds_congr (by simp) (by simp) h

theorem lineEvent_bandHolds (e : Bool) (p : List Pixel) {s : State} (h : s.bandHolds) : (lineEvent e p s).bandHolds := by
  simp only [lineEvent]
  split
  · exact h
  · split
    case h_1 => exact strayEvent_bandHolds h
    all_goals exact bandHolds_congr (by simp) (by simp) h

theorem endFrame_bandHolds {s : State} (h : s.bandHolds) : (endFrame s).bandHolds :=
  bandHolds_congr (by simp) (by simp) h

theorem completeFrame_bandHolds {s : State} (h : s.bandHolds) : (completeFrame s).bandHolds := by
  simp only [completeFrame]
  split
  · refine endFrame_bandHolds (changeScore_bandHolds ?_ (bandHolds_congr ?_ ?_ h))
    · intro x hx
      split
      · exact (scoreDown_le x).trans hx
      · exact scoreUp_le x
    all_goals split <;> simp
  · exact endFrame_bandHolds h

theorem reattach_bandHolds (s : State) : (reattach s).bandHolds := by
  simp [bandHolds_iff, SourceState.allows]

theorem observedEnd_bandHolds {s : State} (h : s.bandHolds) : (observedEnd s).bandHolds := by
  simp only [observedEnd]
  repeat' split
  · exact reattach_bandHolds _
  all_goals exact bandHolds_congr (by simp) (by simp) h

theorem frameEndEvent_bandHolds {s : State} (h : s.bandHolds) : (frameEndEvent s).bandHolds := by
  simp only [frameEndEvent]
  repeat' split
  · exact bandHolds_congr (by simp) (by simp) h
  · exact strayEvent_bandHolds h
  · exact completeFrame_bandHolds h
  · exact bandHolds_congr (by simp [foreignAtEnd]) (by simp [foreignAtEnd]) h
  · exact bandHolds_congr (by simp) (by simp) h
  · exact bandHolds_congr (by simp) (by simp) h
  · exact observedEnd_bandHolds h

theorem signalLostEvent_bandHolds {s : State} (h : s.bandHolds) : (signalLostEvent s).bandHolds := by
  have hunarmed (hst : s.sp.state = .unarmed) : s.sp.score = 0 := by
    simpa [bandHolds_iff, hst, SourceState.allows] using h
  simp only [signalLostEvent]
  split
  case h_5 hst => exact bandHolds_congr (by simp) (by simp) h
  all_goals simp_all [bandHolds_iff, SourceState.allows]

theorem armSource_bandHolds (s : State) : (armSource s).bandHolds := by
  simp only [armSource]
  split <;> simp [bandHolds_iff, SourceState.allows]

theorem applyFrames_bandHolds (old : Option Profile) (geo : Bool) {s : State} (h : s.bandHolds) :
    (applyFrames old geo s).bandHolds := by
  simp only [applyFrames]
  split
  · exact armSource_bandHolds _
  · split
    · exact bandHolds_congr (by simp) (by simp) h
    · exact h

theorem applyProfile_bandHolds {s : State} (h : s.bandHolds) : (applyProfile s).bandHolds := by
  simp only [applyProfile]
  split
  · exact h
  next p _ =>
    have hframes := applyFrames_bandHolds s.pc.active (geometryDiffers s.pc.active p)
      (s := s.setPc { s.pc with active := some p, proposal := none, propState := .none }) h
    split <;> exact bandHolds_congr (by simp) (by simp) hframes

theorem resetSource_bandHolds (s : State) : (resetSource s).bandHolds := by
  simp only [resetSource]
  repeat' split
  all_goals simp_all [bandHolds_iff, SourceState.allows]

theorem resetPoint_bandHolds (s : State) : (resetPoint s).bandHolds :=
  bandHolds_congr (by simp [resetPoint]) (by simp [resetPoint]) (resetSource_bandHolds (resetPool s))

theorem endScan_bandHolds {s : State} (h : s.bandHolds) : (endScan s).bandHolds := by
  simp only [endScan]
  repeat' split
  · exact applyProfile_bandHolds (resetPoint_bandHolds _)
  · exact resetPoint_bandHolds _
  · exact applyProfile_bandHolds (bandHolds_congr (by simp) (by simp) h)
  · exact bandHolds_congr (by simp) (by simp) h
  · exact bandHolds_congr (by simp) (by simp) h

theorem confirmProfile_bandHolds (r : Request) {s : State} (h : s.bandHolds) : (confirmProfile r s).bandHolds := by
  simp only [confirmProfile]
  repeat' split
  · exact bandHolds_congr (by simp) (by simp) h
  · exact applyProfile_bandHolds (bandHolds_congr (by simp) (by simp) h)
  · exact bandHolds_congr (by simp) (by simp) h

theorem pipelineReset_bandHolds (r : Request) {s : State} (h : s.bandHolds) : (pipelineReset r s).bandHolds := by
  simp only [pipelineReset]
  split
  · exact bandHolds_congr (by simp) (by simp) h
  · repeat' split
    · exact bandHolds_congr (by simp) (by simp) h
    · exact bandHolds_congr (by simp) (by simp) h
    · exact resetPoint_bandHolds _

theorem reattachSource_bandHolds (r : Request) {s : State} (h : s.bandHolds) : (reattachSource r s).bandHolds := by
  simp only [reattachSource]
  split
  · exact bandHolds_congr (by simp) (by simp) (reattach_bandHolds s)
  · exact bandHolds_congr (by simp) (by simp) h

/-- The commands that set or change the score keep it in the band; every other effect leaves state and score. -/
theorem bandHolds_keeps : Keeps State.bandHolds := by
  constructor
  case powerOn => exact fun s _ => rfl
  case startDetached => exact fun s _ h => bandHolds_congr (by split <;> simp) (by split <;> simp) h
  case startObserved => exact fun s _ _ h => bandHolds_congr (by simp) (by simp) (closeByStart_bandHolds h)
  case startTaken => exact fun s k _ _ _ h => bandHolds_congr (by simp) (by simp) (closeByStart_bandHolds h)
  case line => exact fun e p s h => lineEvent_bandHolds e p h
  case frameEnd => exact fun s h => frameEndEvent_bandHolds h
  case signalLost => exact fun s h => signalLostEvent_bandHolds h
  case scanEnd => exact fun s _ h => endScan_bandHolds h
  case confirmProfile => exact fun s r _ h => confirmProfile_bandHolds r (s := takeRequest s) h
  case reattachSource => exact fun s r _ h => reattachSource_bandHolds r (s := takeRequest s) h
  case pipelineReset => exact fun s r _ h => pipelineReset_bandHolds r (s := takeRequest s) h
  all_goals simp [Kept, bandHolds_iff]

/-- Settles O6: every effect keeps the score in the band, so every step does. -/
theorem scoreStaysInBand : Obligations.ScoreStaysInBand :=
  fun _ _ hs hstep => step_kept bandHolds_keeps hstep hs

/-- The frame numbers of the ring, oldest first. -/
def State.ringNumbers (s : State) : List FrameNo := s.hr.map FrameRec.frameNo

/-- The conditions of R153 on a list of frame numbers that ends at a counter. -/
def endsAt (l : List FrameNo) (n : FrameNo) : Prop :=
  l.length ≤ 32 ∧ consecutive l ∧ ∀ m, l.getLast? = some m → m = n

theorem ringHolds_iff (s : State) : s.ringHolds ↔ endsAt s.ringNumbers s.sp.frameCounter := by
  simp only [State.ringHolds, endsAt, State.ringNumbers, List.length_map, List.getLast?_map, Option.map_eq_some_iff,
    forall_exists_index, and_imp, forall_apply_eq_imp_iff₂]

theorem ringHolds_congr {s t : State} (hring : t.hr.map FrameRec.frameNo = s.hr.map FrameRec.frameNo)
    (hcounter : t.sp.frameCounter = s.sp.frameCounter) (h : s.ringHolds) : t.ringHolds := by
  rw [ringHolds_iff, State.ringNumbers, hring, hcounter]
  exact (ringHolds_iff s).mp h

theorem consecutive_tail {a : FrameNo} {l : List FrameNo} (h : consecutive (a :: l)) : consecutive l := by
  cases l with
  | nil => trivial
  | cons b t => exact h.2

/-- A number one above the last may join at the end. -/
theorem consecutive_concat {l : List FrameNo} {n : FrameNo} (h : consecutive l)
    (hlast : ∀ m, l.getLast? = some m → m = n) : consecutive (l ++ [n + 1]) := by
  induction l with
  | nil => trivial
  | cons a l ih =>
    cases l with
    | nil => exact ⟨by rw [hlast a rfl], trivial⟩
    | cons b t => exact ⟨h.1, ih h.2 fun m hm => hlast m (by simpa using hm)⟩

theorem endsAt_nil (n : FrameNo) : endsAt [] n := ⟨by simp, trivial, by simp⟩

theorem endsAt_tail {l : List FrameNo} {n : FrameNo} (h : endsAt l n) : endsAt (l.drop 1) n := by
  obtain ⟨hlen, hcons, hlast⟩ := h
  cases l with
  | nil => exact endsAt_nil n
  | cons a l =>
    refine ⟨Nat.le_of_succ_le hlen, consecutive_tail hcons, fun m hm => hlast m ?_⟩
    cases l with
    | nil => simp at hm
    | cons b t => simpa using hm

theorem endsAt_concat {l : List FrameNo} {n : FrameNo} (h : endsAt l n) (hroom : l.length < 32) :
    endsAt (l ++ [n + 1]) (n + 1) := by
  obtain ⟨_, hcons, hlast⟩ := h
  refine ⟨by simpa using hroom, consecutive_concat hcons hlast, fun m hm => ?_⟩
  simpa using hm.symm

/-- A taken frame's record joins a ring whose oldest record has left when it was full (R153, R154). -/
theorem endsAt_ringJoin {ring : List FrameRec} {n : FrameNo} {r : FrameRec} (h : endsAt (ring.map FrameRec.frameNo) n)
    (hr : r.frameNo = n + 1) : endsAt ((ringJoin ring r).map FrameRec.frameNo) (n + 1) := by
  simp only [ringJoin, List.map_append, List.map_cons, List.map_nil, hr]
  split
  next hroom => exact endsAt_concat h (by simpa [ringSize] using hroom)
  next hfull =>
    rw [List.map_drop]
    refine endsAt_concat (endsAt_tail h) ?_
    have hlen := h.1
    simp only [List.length_map, List.length_drop] at hlen ⊢
    omega

/-- A ring that has been emptied meets its conditions (R153, R160). -/
theorem ringHolds_of_nil {s : State} (h : s.hr = []) : s.ringHolds := by
  rw [ringHolds_iff, State.ringNumbers, h]
  exact endsAt_nil _

/-- A taken Frame Start numbers the frame and creates its record (R29, R154). -/
theorem takeFrame_ring (k : Slot) (s : State) :
    (takeFrame k s).hr = ringJoin s.hr (FrameRec.taken (s.sp.frameCounter + 1) k s.timeBase) ∧
    (takeFrame k s).sp.frameCounter = s.sp.frameCounter + 1 := by
  simp [takeFrame, createRecord]

theorem takeFrame_ringHolds (k : Slot) {s : State} (h : s.ringHolds) : (takeFrame k s).ringHolds := by
  obtain ⟨hring, hcounter⟩ := takeFrame_ring k s
  rw [ringHolds_iff, State.ringNumbers, hring, hcounter]
  exact endsAt_ringJoin ((ringHolds_iff s).mp h) rfl

/-- The reset point empties the ring (R160). -/
@[simp] theorem resetPoint_hr (s : State) : (resetPoint s).hr = [] := by
  simp [resetPoint]

theorem applyProfile_ringHolds {s : State} (h : s.ringHolds) : (applyProfile s).ringHolds :=
  ringHolds_congr (by simp) (by simp) h

theorem endScan_ringHolds {s : State} (h : s.ringHolds) : (endScan s).ringHolds := by
  simp only [endScan]
  repeat' split
  · exact applyProfile_ringHolds (ringHolds_of_nil (resetPoint_hr _))
  · exact ringHolds_of_nil (resetPoint_hr _)
  all_goals exact ringHolds_congr (by simp) (by simp) h

theorem confirmProfile_ringHolds (r : Request) {s : State} (h : s.ringHolds) : (confirmProfile r s).ringHolds := by
  simp only [confirmProfile]
  repeat' split
  all_goals exact ringHolds_congr (by simp) (by simp) h

theorem pipelineReset_ringHolds (r : Request) {s : State} (h : s.ringHolds) : (pipelineReset r s).ringHolds := by
  simp only [pipelineReset]
  split
  · exact ringHolds_congr (by simp) (by simp) h
  · repeat' split
    · exact ringHolds_congr (by simp) (by simp) h
    · exact ringHolds_congr (by simp) (by simp) h
    · exact ringHolds_of_nil (resetPoint_hr _)

/-- Only a taken Frame Start adds a record, with its number; the reset point empties the ring; every other effect leaves
numbers and counter. -/
theorem ringHolds_keeps : Keeps State.ringHolds := by
  constructor
  case powerOn => exact fun s _ => ringHolds_of_nil rfl
  case startDetached => exact fun s _ h => ringHolds_congr (by split <;> simp) (by split <;> simp) h
  case startTaken => exact fun s k _ _ _ h => takeFrame_ringHolds k (ringHolds_congr (by simp) (by simp) h)
  case scanEnd => exact fun s _ h => endScan_ringHolds h
  case confirmProfile => exact fun s r _ h => confirmProfile_ringHolds r (s := takeRequest s) h
  case pipelineReset => exact fun s r _ h => pipelineReset_ringHolds r (s := takeRequest s) h
  all_goals simp [Kept, ringHolds_iff, State.ringNumbers]

/-- Settles O7: every effect keeps the ring consecutive, so every step does. -/
theorem ringStaysConsecutive : Obligations.RingStaysConsecutive :=
  fun _ _ hs hstep => step_kept ringHolds_keeps hstep hs

end Sys2Proof.Machine
end

section
/-! What an event can do to the ring, the banks and the deferred replies. The shared operations of chapters 1 to 5 are made of
a few updates: of blocks that those items do not read, a report on a record, the emptying of the ring, a raised notice, and the exchange of the banks.
`Moved` is the closure under them; that each operation stays in it is said once, and a property that the updates keep is
kept by every operation. -/

namespace Sys2Proof.Machine

/-- A report on a record keeps its number, slot and first-line time, and its fate once it is other than PENDING. -/
def ReportLawful (f : FrameRec → FrameRec) : Prop :=
  ∀ r, (f r).frameNo = r.frameNo ∧ (f r).slot = r.slot ∧ (f r).firstLine = r.firstLine ∧
    (r.fate = .pending ∨ (f r).fate = r.fate)

/-- `t` comes from `s` by the updates of which the shared operations are made. -/
inductive Moved (s : State) : State → Prop
  | refl : Moved s s
  | setPool {t : State} (x : SlotPool) : Moved s t → Moved s (t.setPool x)
  | setSp {t : State} (x : SourcePort) : Moved s t → Moved s (t.setSp x)
  | setPu {t : State} (x : PacingUnit) : Moved s t → Moved s (t.setPu x)
  | setPs {t : State} (x : Scheduler) : Moved s t → Moved s (t.setPs x)
  | setPc {t : State} (x : ProfileCtl) : Moved s t → Moved s (t.setPc x)
  | setPanel {t : State} (x : PanelPort) : Moved s t → Moved s (t.setPanel x)
  | setChoices {t : State} (x : Nat) : Moved s t → Moved s (t.setChoices x)
  | setOtg {t : State} (x : OutputTiming) (happ : x.pendingApp = t.otg.pendingApp)
      (hreset : x.pendingReset = t.otg.pendingReset) : Moved s t → Moved s (t.setOtg x)
  | copySettings {t : State} : Moved s t → Moved s (copySettings t)
  | bankExchange {t : State} : Moved s t → Moved s (bankExchange t)
  | onRecord {t : State} (n : FrameNo) (f : FrameRec → FrameRec) (hf : ReportLawful f) :
      Moved s t → Moved s (onRecord n f t)
  | raise {t : State} (n : Notice) : Moved s t → Moved s (raise n t)
  | emptyRing {t : State} : Moved s t → Moved s (t.setHr [])

variable {s t : State}

@[simp] theorem moved_refl : Moved s s := .refl

@[simp] theorem setPool_moved (x : SlotPool) (h : Moved s t) : Moved s (t.setPool x) := .setPool x h

@[simp] theorem setSp_moved (x : SourcePort) (h : Moved s t) : Moved s (t.setSp x) := .setSp x h

@[simp] theorem setPu_moved (x : PacingUnit) (h : Moved s t) : Moved s (t.setPu x) := .setPu x h

@[simp] theorem setPs_moved (x : Scheduler) (h : Moved s t) : Moved s (t.setPs x) := .setPs x h

@[simp] theorem setPc_moved (x : ProfileCtl) (h : Moved s t) : Moved s (t.setPc x) := .setPc x h

@[simp] theorem setPanel_moved (x : PanelPort) (h : Moved s t) : Moved s (t.setPanel x) := .setPanel x h

@[simp] theorem setChoices_moved (x : Nat) (h : Moved s t) : Moved s (t.setChoices x) := .setChoices x h

@[simp] theorem setOtg_moved (x : OutputTiming) (happ : x.pendingApp = t.otg.pendingApp)
    (hreset : x.pendingReset = t.otg.pendingReset) (h : Moved s t) : Moved s (t.setOtg x) := .setOtg x happ hreset h

@[simp] theorem copySettings_moved (h : Moved s t) : Moved s (copySettings t) := .copySettings h

@[simp] theorem bankExchange_moved (h : Moved s t) : Moved s (bankExchange t) := .bankExchange h

@[simp] theorem onRecord_moved (n : FrameNo) (f : FrameRec → FrameRec) (hf : ReportLawful f) (h : Moved s t) :
    Moved s (onRecord n f t) := .onRecord n f hf h

@[simp] theorem raise_moved (n : Notice) (h : Moved s t) : Moved s (raise n t) := .raise n h

theorem withFate_lawful (fate : Fate) : ReportLawful (FrameRec.withFate fate) := by
  intro r
  unfold FrameRec.withFate
  split <;> simp_all

theorem presentedAt_lawful (t : Time) (first fromTop : Bool) : ReportLawful (FrameRec.presentedAt t first fromTop) :=
  fun _ => ⟨rfl, rfl, rfl, .inr rfl⟩

theorem splicedAt_lawful (t : Time) (j : Nat) (first : Bool) : ReportLawful (FrameRec.splicedAt t j first) :=
  fun _ => ⟨rfl, rfl, rfl, .inr rfl⟩

theorem substitutedOne_lawful : ReportLawful FrameRec.substitutedOne := fun _ => ⟨rfl, rfl, rfl, .inr rfl⟩

@[simp] theorem reportFate_moved (n : FrameNo) (fate : Fate) (h : Moved s t) : Moved s (reportFate n fate t) :=
  .onRecord n _ (withFate_lawful fate) h

@[simp] theorem reportCompletion_moved (n : FrameNo) (x : Time) (h : Moved s t) : Moved s (reportCompletion n x t) :=
  .onRecord n _ (fun _ => ⟨rfl, rfl, rfl, .inr rfl⟩) h

@[simp] theorem reportClose_moved (n : FrameNo) (bad : Nat) (truncated : Bool) (h : Moved s t) :
    Moved s (reportClose n bad truncated t) := .onRecord n _ (fun _ => ⟨rfl, rfl, rfl, .inr rfl⟩) h

@[simp] theorem reportSlotFate_moved (r : SlotRec) (fate : Fate) (h : Moved s t) : Moved s (reportSlotFate r fate t) := by
  simp only [reportSlotFate]
  split <;> simp [h]

@[simp] theorem freeSlot_moved (k : Slot) (fate : Fate) (h : Moved s t) : Moved s (freeSlot k fate t) := by
  simp [freeSlot, h]

@[simp] theorem freeSlots_moved (ks : List Slot) (fate : Fate) (h : Moved s t) : Moved s (freeSlots ks fate t) := by
  induction ks generalizing t with
  | nil => exact h
  | cons k ks ih => exact ih (freeSlot_moved k fate h)

@[simp] theorem abortFilling_moved (truncated : Bool) (h : Moved s t) : Moved s (abortFilling truncated t) := by
  simp only [abortFilling]
  repeat' split
  all_goals simp [h]

@[simp] theorem markEligible_moved (k : Slot) (h : Moved s t) : Moved s (markEligible k t) := by
  simp [markEligible, h]

@[simp] theorem countStrip_moved (bad : Bool) (h : Moved s t) : Moved s (countStrip bad t) := by
  simp only [countStrip]
  split <;> simp [h]

@[simp] theorem becomeReady_moved (k : Slot) (h : Moved s t) : Moved s (becomeReady k t) := by
  simp only [becomeReady]
  split <;> simp [h]

@[simp] theorem chooseSlot_moved (k : Slot) (h : Moved s t) : Moved s (chooseSlot k t) := by
  simp [chooseSlot, h]

@[simp] theorem repeatHeld_moved (k : Slot) (h : Moved s t) : Moved s (repeatHeld k t) := by
  simp [repeatHeld, h]

@[simp] theorem makeHeld_moved (k : Slot) (h : Moved s t) : Moved s (makeHeld k t) := by
  simp only [makeHeld]
  repeat' split
  · exact reportSlotFate_moved _ _ (by simp [h])
  · exact reportSlotFate_moved _ _ (freeSlot_moved _ _ (by simp [h]))
  · exact reportSlotFate_moved _ _ (by simp [h])

@[simp] theorem scanEndPool_moved (h : Moved s t) : Moved s (scanEndPool t) := by
  simp only [scanEndPool]
  repeat' split
  all_goals simp [h]

@[simp] theorem leaveScreen_moved (h : Moved s t) : Moved s (leaveScreen t) := by
  simp only [leaveScreen]
  repeat' split
  all_goals simp [h]

@[simp] theorem spliceSlot_moved (n : Slot) (h : Moved s t) : Moved s (spliceSlot n t) :=
  setPool_moved _ (freeSlots_moved _ _ (leaveScreen_moved h))

@[simp] theorem flushPool_moved (h : Moved s t) : Moved s (flushPool t) := by
  simp [flushPool, h]

@[simp] theorem resetPool_moved (h : Moved s t) : Moved s (resetPool t) := by
  simp [resetPool, h]

@[simp] theorem setLock_moved (l : Lock) (h : Moved s t) : Moved s (setLock l t) := by
  simp only [setLock]
  split
  · exact h
  · exact raise_moved _ (setPu_moved _ (setOtg_moved _ rfl rfl h))

@[simp] theorem dropLock_moved (h : Moved s t) : Moved s (dropLock t) := setLock_moved _ h

@[simp] theorem loadBackstop_moved (h : Moved s t) : Moved s (loadBackstop t) := by
  simp [loadBackstop, h]

@[simp] theorem takePlan_moved (h : Moved s t) : Moved s (takePlan t) := by
  simp only [takePlan]
  repeat' split
  all_goals simp [h]

@[simp] theorem setPlan_moved (h : Moved s t) : Moved s (setPlan t) := by
  simp [setPlan, h]

@[simp] theorem setAdmission_moved (h : Moved s t) : Moved s (setAdmission t) := by
  simp [setAdmission, h]

@[simp] theorem takeAdmission_moved (h : Moved s t) : Moved s (takeAdmission t) := by
  simp only [takeAdmission]
  split <;> simp [h]

@[simp] theorem intervalsChanged_moved (w : List Nat) (h : Moved s t) : Moved s (intervalsChanged w t) :=
  takeAdmission_moved (setAdmission_moved (takePlan_moved (setPlan_moved (setPu_moved _ h))))

@[simp] theorem addInterval_moved (x : Nat) (h : Moved s t) : Moved s (addInterval x t) := by
  simp [addInterval, h]

@[simp] theorem clearIntervals_moved (h : Moved s t) : Moved s (clearIntervals t) := by
  simp [clearIntervals, h]

@[simp] theorem emptyWindows_moved (i f : Bool) (h : Moved s t) : Moved s (emptyWindows i f t) := by
  simp [emptyWindows, h]

@[simp] theorem takeReport_moved (h : Moved s t) : Moved s (takeReport t) := by
  simp only [takeReport]
  repeat' split
  all_goals simp [h]

@[simp] theorem measureFrom_moved (x : Time) (h : Moved s t) : Moved s (measureFrom x t) := by
  simp only [measureFrom]
  split <;> simp [h]

@[simp] theorem phaseMeasure_moved (h : Moved s t) : Moved s (phaseMeasure t) := measureFrom_moved _ h

@[simp] theorem armMeasurement_moved (h : Moved s t) : Moved s (armMeasurement t) := by
  simp only [armMeasurement]
  split <;> simp [h]

theorem judgeAll_moved {event : State → State} (hev : ∀ u, Moved s u → Moved s (event u)) (h : Moved s t) :
    Moved s (judgeAll event t) := judgeAll_inv (Moved s) event hev (fun k _ => markEligible_moved k) t h

theorem publishQ_moved {event : State → State} (hev : ∀ u, Moved s u → Moved s (event u)) (h : Moved s t) :
    Moved s (publishQ event t) :=
  judgeAll_moved hev (setPs_moved _ (setPool_moved _ (setPu_moved _ h)))

theorem recomputeQ_moved {event : State → State} (hev : ∀ u, Moved s u → Moved s (event u)) (h : Moved s t) :
    Moved s (recomputeQ event t) := by
  simp only [recomputeQ]
  split
  · simp [h]
  · exact publishQ_moved hev (by simp [h])

@[simp] theorem resetPacing_moved (h : Moved s t) : Moved s (resetPacing t) := by
  simp [resetPacing, h]

@[simp] theorem setKind_moved (k : RefreshKind) (h : Moved s t) : Moved s (setKind k t) := by
  simp [setKind, h]

@[simp] theorem reportRefresh_moved (r : SlotRec) (h : Moved s t) : Moved s (reportRefresh r t) := by
  simp only [reportRefresh]
  split <;> simp [h, presentedAt_lawful]

@[simp] theorem blankUnderHold_moved (h : Moved s t) : Moved s (blankUnderHold t) := by
  have hkind : Moved s (setKind .blank (t.setPs { t.ps with blankActive := true })) := setKind_moved _ (setPs_moved _ h)
  simp only [blankUnderHold]
  split
  · exact raise_moved _ hkind
  · exact hkind

@[simp] theorem chooseRefresh_moved (h : Moved s t) : Moved s (chooseRefresh t) := by
  simp only [chooseRefresh]
  repeat' split
  · exact blankUnderHold_moved h
  · exact reportRefresh_moved _ (setKind_moved _ (chooseSlot_moved _ h))
  · exact reportRefresh_moved _ (setKind_moved _ (repeatHeld_moved _ h))
  · exact setKind_moved _ h

@[simp] theorem mergeTune_moved (h : Moved s t) : Moved s (mergeTune t) := by
  simp [mergeTune, h]

@[simp] theorem closeWatch_moved (h : Moved s t) : Moved s (closeWatch t) := by
  simp [closeWatch, h]

@[simp] theorem makeSplice_moved (j : Nat) (n : Slot) (h : Moved s t) : Moved s (makeSplice j n t) := by
  have hsplice : Moved s (closeWatch (spliceSlot n t)) := closeWatch_moved (spliceSlot_moved _ h)
  simp only [makeSplice]
  split
  · exact onRecord_moved _ _ (splicedAt_lawful _ _ _) hsplice
  · exact hsplice

@[simp] theorem spliceCheck_moved (j : Nat) (h : Moved s t) : Moved s (spliceCheck j t) := by
  simp only [spliceCheck]
  repeat' split
  all_goals simp [h]

@[simp] theorem checkInScan_moved (h : Moved s t) : Moved s (checkInScan t) := spliceCheck_moved _ h

@[simp] theorem eligibleInScan_moved (h : Moved s t) : Moved s (eligibleInScan t) := by
  simp [eligibleInScan, h]

@[simp] theorem publishMargin_moved (changed : Bool) (h : Moved s t) : Moved s (publishMargin changed t) := by
  simp only [publishMargin]
  split
  · exact recomputeQ_moved (fun _ => checkInScan_moved) h
  · exact h

@[simp] theorem mergeAndChoose_moved (h : Moved s t) : Moved s (mergeAndChoose t) := by
  have hchoices : Moved s (t.setChoices (t.choices + 2)) := setChoices_moved _ h
  simp only [mergeAndChoose]
  repeat' split
  · exact chooseRefresh_moved h
  · exact chooseRefresh_moved (publishMargin_moved _ (mergeTune_moved hchoices))
  · exact publishMargin_moved _ (chooseRefresh_moved (mergeTune_moved hchoices))
  · exact publishMargin_moved _ (mergeTune_moved (chooseRefresh_moved hchoices))

@[simp] theorem lockTest_moved (h : Moved s t) : Moved s (lockTest t) := by
  simp only [lockTest]
  split <;> simp [h]

@[simp] theorem loadRepeat_moved (planned : Bool) (h : Moved s t) : Moved s (loadRepeat planned t) := by
  simp only [loadRepeat]
  split <;> simp [h]

@[simp] theorem beginScan_moved (h : Moved s t) : Moved s (beginScan t) :=
  setPanel_moved _ (setOtg_moved _ rfl rfl h)

@[simp] theorem loadFixed_moved (expired : Bool) (h : Moved s t) : Moved s (loadFixed expired t) := by
  simp only [loadFixed]
  split <;> simp [h]

@[simp] theorem lockAndArm_moved (expired : Bool) (h : Moved s t) : Moved s (lockAndArm expired t) :=
  armMeasurement_moved (lockTest_moved (loadFixed_moved _ h))

@[simp] theorem takeStart_moved (expired event eventFirst : Bool) (x : Time) (h : Moved s t) :
    Moved s (takeStart expired event eventFirst x t) := by
  simp only [takeStart]
  split <;> simp [h]

@[simp] theorem refreshBy_moved (expired planned : Bool) (h : Moved s t) : Moved s (refreshBy expired planned t) :=
  bankExchange_moved (takeStart_moved _ _ _ _ (loadRepeat_moved _ (mergeAndChoose_moved (beginScan_moved h))))

@[simp] theorem refreshStart_moved (planned : Bool) (h : Moved s t) : Moved s (refreshStart planned t) :=
  refreshBy_moved _ _ h

@[simp] theorem repeatExpiryOpen_moved (h : Moved s t) : Moved s (repeatExpiryOpen t) := by
  simp only [repeatExpiryOpen]
  repeat' split
  all_goals simp [h]

@[simp] theorem enterBlankOpen_moved (h : Moved s t) : Moved s (enterBlankOpen t) := by
  have hopen : Moved s (t.setOtg { t.otg with timing := .blankOpen }) := setOtg_moved _ rfl rfl h
  simp only [enterBlankOpen]
  repeat' split
  · exact refreshStart_moved _ hopen
  · exact repeatExpiryOpen_moved (setOtg_moved _ rfl rfl hopen)
  · exact hopen

@[simp] theorem fixedRefresh_moved (h : Moved s t) : Moved s (fixedRefresh t) := refreshBy_moved _ _ h

@[simp] theorem eligibilityEvent_moved (h : Moved s t) : Moved s (eligibilityEvent t) := by
  simp only [eligibilityEvent]
  repeat' split
  all_goals simp [h]

@[simp] theorem fillsChanged_moved (w : List Nat) (h : Moved s t) : Moved s (fillsChanged eligibilityEvent w t) :=
  recomputeQ_moved (fun _ => eligibilityEvent_moved) (by simp [h])

@[simp] theorem sendStrip_moved (k : Nat) (src : StripSource) (h : Moved s t) : Moved s (sendStrip k src t) := by
  simp [sendStrip, h]

@[simp] theorem reportSubstitution_moved (k : Nat) (h : Moved s t) : Moved s (reportSubstitution k t) := by
  simp only [reportSubstitution]
  repeat' split
  all_goals simp [h, substitutedOne_lawful]

@[simp] theorem openWatch_moved (k : Nat) (h : Moved s t) : Moved s (openWatch k t) := by
  simp only [openWatch]
  split <;> simp [h]

@[simp] theorem readStrip_moved (k : Nat) (h : Moved s t) : Moved s (readStrip k t) := by
  have hnext : Moved s (t.setOtg { t.otg with nextStrip := k + 1 }) := setOtg_moved _ rfl rfl h
  have hsend {u : State} (hu : Moved s u) :
      Moved s (openWatch k (reportSubstitution k (sendStrip k ((spliceCheck k u).stripSource k) (spliceCheck k u)))) :=
    openWatch_moved _ (reportSubstitution_moved _ (sendStrip_moved _ _ (spliceCheck_moved _ hu)))
  simp only [readStrip]
  split
  · exact hsend (copySettings_moved hnext)
  · exact hsend hnext

@[simp] theorem moveSource_moved (st : SourceState) (score : Nat) (h : Moved s t) : Moved s (moveSource st score t) := by
  have hset : Moved s (t.setSp { t.sp with state := st, score := score }) := setSp_moved _ h
  simp only [moveSource]
  repeat' split
  · exact hset
  · exact raise_moved _ hset
  · exact dropLock_moved (raise_moved _ hset)

@[simp] theorem clearWindows_moved (h : Moved s t) : Moved s (clearWindows t) := by
  simp [clearWindows, h]

@[simp] theorem enterDetached_moved (score : Nat) (h : Moved s t) : Moved s (enterDetached score t) :=
  clearWindows_moved (setPs_moved _ (setSp_moved _ (moveSource_moved _ _ h)))

@[simp] theorem changeScore_moved (f : Nat → Nat) (h : Moved s t) : Moved s (changeScore f t) := by
  simp only [changeScore]
  repeat' split
  all_goals simp [h]

@[simp] theorem reattach_moved (h : Moved s t) : Moved s (reattach t) :=
  setPs_moved _ (setSp_moved _ (moveSource_moved _ _ h))

@[simp] theorem setCond_moved (c : FrameCond) (h : Moved s t) : Moved s (setCond c t) := by
  simp [setCond, h]

@[simp] theorem openFrame_moved (c : FrameCond) (h : Moved s t) : Moved s (openFrame c t) := by
  simp [openFrame, h]

@[simp] theorem observeFrame_moved (h : Moved s t) : Moved s (observeFrame t) := by
  simp [observeFrame, h]

@[simp] theorem endFrame_moved (h : Moved s t) : Moved s (endFrame t) := by
  simp [endFrame, h]

@[simp] theorem breakRun_moved (h : Moved s t) : Moved s (breakRun t) := by
  simp [breakRun, h]

@[simp] theorem closeByStart_moved (h : Moved s t) : Moved s (closeByStart t) := by
  simp only [closeByStart]
  split
  case h_5 => exact changeScore_moved _ (reportClose_moved _ _ _ (abortFilling_moved _ h))
  all_goals simp [h]

@[simp] theorem intervalSample_moved (h : Moved s t) : Moved s (intervalSample t) := by
  simp only [intervalSample]
  repeat' split
  all_goals simp [h]

@[simp] theorem takeSlot_moved (k : Slot) (n : FrameNo) (x : Time) (h : Moved s t) : Moved s (takeSlot k n x t) := by
  simp [takeSlot, h]

@[simp] theorem countLine_moved (h : Moved s t) : Moved s (countLine t) := by
  simp [countLine, h]

@[simp] theorem strayEvent_moved (h : Moved s t) : Moved s (strayEvent t) := by
  simp only [strayEvent]
  split <;> simp [h]

@[simp] theorem foreignFrame_moved (h : Moved s t) : Moved s (foreignFrame t) :=
  raise_moved _ (setSp_moved _ (clearWindows_moved (abortFilling_moved _ (reportFate_moved _ _ h))))

@[simp] theorem foreignAtLine_moved (h : Moved s t) : Moved s (foreignAtLine t) :=
  setCond_moved _ (foreignFrame_moved (setSp_moved _ h))

@[simp] theorem foreignAtEnd_moved (h : Moved s t) : Moved s (foreignAtEnd t) :=
  endFrame_moved (reportClose_moved _ _ _ (foreignFrame_moved h))

@[simp] theorem storeLine_moved (line : Nat) (pixels : List Pixel) (h : Moved s t) : Moved s (storeLine line pixels t) := by
  simp only [storeLine]
  split <;> simp [h]

@[simp] theorem stripFilled_moved (bad : Bool) (h : Moved s t) : Moved s (stripFilled bad t) := by
  have hcount : Moved s (countStrip bad t) := countStrip_moved _ h
  simp only [stripFilled]
  repeat' split
  · exact eligibilityEvent_moved (markEligible_moved _ hcount)
  · exact hcount
  · exact hcount

@[simp] theorem goodLine_moved (e : Bool) (pixels : List Pixel) (h : Moved s t) : Moved s (goodLine e pixels t) := by
  have hcounted (x : SourcePort) : Moved s (countLine ((storeLine t.sp.lineCount pixels t).setSp x)) :=
    countLine_moved (setSp_moved _ (storeLine_moved _ _ h))
  simp only [goodLine]
  split
  · exact stripFilled_moved _ (hcounted _)
  · exact hcounted _

@[simp] theorem takenLine_moved (e : Bool) (pixels : List Pixel) (h : Moved s t) : Moved s (takenLine e pixels t) := by
  simp only [takenLine]
  repeat' split
  · exact foreignAtLine_moved (countLine_moved h)
  · exact foreignAtLine_moved (countLine_moved (setSp_moved _ h))
  · exact goodLine_moved _ _ h

@[simp] theorem observedLine_moved (e : Bool) (pixels : List Pixel) (h : Moved s t) :
    Moved s (observedLine e pixels t) := by
  simp [observedLine, h]

@[simp] theorem lineEvent_moved (e : Bool) (pixels : List Pixel) (h : Moved s t) : Moved s (lineEvent e pixels t) := by
  simp only [lineEvent]
  repeat' split
  all_goals simp [h]

@[simp] theorem completeSlot_moved (k : Slot) (h : Moved s t) : Moved s (completeSlot k t) := by
  have hclosed (x : SlotPool) : Moved s (becomeReady k (t.setPool x)) := becomeReady_moved _ (setPool_moved _ h)
  simp only [completeSlot]
  split
  · exact freeSlot_moved _ _ (setPool_moved _ h)
  · repeat' split
    · exact setPool_moved _ h
    · exact hclosed _
    · exact eligibilityEvent_moved (markEligible_moved _ (hclosed _))

@[simp] theorem fillSample_moved (first : Option Time) (h : Moved s t) : Moved s (fillSample first t) := by
  simp only [fillSample]
  split <;> simp [h]

@[simp] theorem completeFrame_moved (h : Moved s t) : Moved s (completeFrame t) := by
  have hclose (f : Nat → Nat) (n m : FrameNo) (bad : Nat) (x : Time) {u : State} (hu : Moved s u) :
      Moved s (endFrame (changeScore f (reportClose n bad false (reportCompletion m x u)))) :=
    endFrame_moved (changeScore_moved _ (reportClose_moved _ _ _ (reportCompletion_moved _ _ hu)))
  simp only [completeFrame]
  repeat' split
  · exact hclose _ _ _ _ _ (fillSample_moved _ (completeSlot_moved _ h))
  · exact hclose _ _ _ _ _ (completeSlot_moved _ h)
  · exact endFrame_moved h

@[simp] theorem observedEnd_moved (h : Moved s t) : Moved s (observedEnd t) := by
  simp only [observedEnd]
  repeat' split
  all_goals simp [h]

@[simp] theorem frameEndEvent_moved (h : Moved s t) : Moved s (frameEndEvent t) := by
  simp only [frameEndEvent]
  repeat' split
  all_goals simp [h]

@[simp] theorem closeByLoss_moved (h : Moved s t) : Moved s (closeByLoss t) := by
  simp only [closeByLoss]
  split <;> simp [h]

@[simp] theorem signalLostEvent_moved (h : Moved s t) : Moved s (signalLostEvent t) := by
  have hflag : Moved s (t.setSp { t.sp with signal := false }) := setSp_moved _ h
  simp only [signalLostEvent]
  split
  · exact enterDetached_moved _ (endFrame_moved (closeByLoss_moved hflag))
  · exact enterDetached_moved _ (endFrame_moved (closeByLoss_moved hflag))
  · exact enterDetached_moved _ (endFrame_moved (closeByLoss_moved hflag))
  · exact endFrame_moved (setSp_moved _ hflag)
  · exact endFrame_moved hflag

@[simp] theorem restartCycle_moved (h : Moved s t) : Moved s (restartCycle t) := by
  simp only [restartCycle]
  split
  · exact dropLock_moved (setOtg_moved _ rfl rfl h)
  · exact dropLock_moved (setOtg_moved _ rfl rfl h)

@[simp] theorem startOutput_moved (h : Moved s t) : Moved s (startOutput t) := by
  have hstart (x : Option Pacing) : Moved s (refreshStart false (t.setOtg { t.otg with mode := x })) :=
    refreshStart_moved _ (setOtg_moved _ rfl rfl h)
  simp only [startOutput]
  split
  · exact setOtg_moved _ rfl rfl (hstart _)
  · exact hstart _

@[simp] theorem armSource_moved (h : Moved s t) : Moved s (armSource t) := by
  have hcond : Moved s (setCond t.sp.cond.passedOver t) := setCond_moved _ h
  simp only [armSource]
  split
  · exact breakRun_moved (moveSource_moved _ _ hcond)
  · exact enterDetached_moved _ hcond

@[simp] theorem closeByGeometry_moved (h : Moved s t) : Moved s (closeByGeometry t) := by
  simp only [closeByGeometry]
  split <;> simp [h]

@[simp] theorem passOver_moved (h : Moved s t) : Moved s (passOver t) := by
  simp [passOver, h]

@[simp] theorem applyFrames_moved (old : Option Profile) (geo : Bool) (h : Moved s t) :
    Moved s (applyFrames old geo t) := by
  simp only [applyFrames]
  repeat' split
  · exact armSource_moved (flushPool_moved h)
  · exact passOver_moved (flushPool_moved (closeByGeometry_moved h))
  · exact h

@[simp] theorem applyPacing_moved (geo win : Bool) (h : Moved s t) : Moved s (applyPacing geo win t) :=
  setPu_moved _ (setAdmission_moved (setPlan_moved (publishQ_moved (fun _ h => h)
    (setPu_moved _ (setPu_moved _ (emptyWindows_moved _ _ h))))))

@[simp] theorem resetSource_moved (h : Moved s t) : Moved s (resetSource t) := by
  have hcond (x : SourcePort) : Moved s ((setCond t.sp.cond.passedOver t).setSp x) := setSp_moved _ (setCond_moved _ h)
  simp only [resetSource]
  repeat' split
  · exact setPs_moved _ (moveSource_moved _ _ (hcond _))
  · exact setSp_moved _ (hcond _)
  · exact enterDetached_moved _ (hcond _)

@[simp] theorem leaveScan_moved (h : Moved s t) : Moved s (leaveScan t) := by
  have hblank : Moved s (t.setOtg { t.otg with timing := .blank }) := setOtg_moved _ rfl rfl h
  simp only [leaveScan]
  repeat' split
  · exact enterBlankOpen_moved h
  · exact setOtg_moved _ rfl rfl h
  · exact fixedRefresh_moved (setOtg_moved _ rfl rfl hblank)
  · exact hblank

@[simp] theorem tminExpired_moved (h : Moved s t) : Moved s (tminExpired t) := by
  simp only [tminExpired]
  split <;> simp [h]

@[simp] theorem repeatExpired_moved (h : Moved s t) : Moved s (repeatExpired t) := by
  simp only [repeatExpired]
  split <;> simp [h]

@[simp] theorem fixedExpired_moved (h : Moved s t) : Moved s (fixedExpired t) := by
  simp only [fixedExpired]
  split <;> simp [h]

end Sys2Proof.Machine
end

section
/-! What one command can do: its next states, each named by the effect that leads to it. -/

namespace Sys2Proof.Machine

/-- The effects of the commands after which the link settles, but for Frame Start and the requests. -/
def settledEffect : Instr → Option (State → State)
  | .line e p => some (lineEvent e p)
  | .frameEnd => some frameEndEvent
  | .packet a b p => some (packetEvent a b p)
  | .signalLost => some signalLostEvent
  | .tminExpiry => some tminExpired
  | .repeatTimerExpiry => some repeatExpired
  | .fixedTimerExpiry => some fixedExpired
  | .stripRead => some fun s => readStrip s.otg.nextStrip s
  | .scanEnd => some endScan
  | .gapEvent => some gapEnds
  | .overrunReply => some overrunReplies
  | .deferredReply => some claimDeferred
  | _ => none

/-- The effects of the commands after which the link does not settle as a whole (Log 13, Log 14). -/
def plainEffect : Instr → Option (State → State)
  | .powerOnReset => some powerOnState
  | .resetNRelease => some fun s => { s with resetAsserted := false }
  | .signalRestored => some fun s => s.setSp { s.sp with signal := true }
  | .breakEvent => some fun s => resetAssembler (gapFirst s)
  | .messageReceived b => some fun s => takeByte b (gapFirst s)
  | .byteReceived b => some fun s => takeByte b (gapFirst s)
  | .replySent => some fun s => chooseMessage (txIdle (s.setMl { s.ml with replies := s.ml.replies.drop 1 }))
  | .noticeSent => some fun s => chooseMessage (txIdle s)
  | _ => none

/-- The rules of the request rows, for a request that has left its slot. -/
def requestRule : Instr → Option (Request → State → State)
  | .requestRefused => some refuseRequest
  | .getIdentity => some fun r s => answerWith r identityBody s
  | .getStatus => some fun r s => answerWith r (statusBody s) s
  | .setNotices => some setNotices
  | .setPanelLimits => some (sequenceCheck setPanelLimits)
  | .proposeProfile => some (sequenceCheck proposeProfile)
  | .confirmProfile => some confirmProfile
  | .withdrawProfile => some withdrawProfile
  | .clearFault => some clearFault
  | .tuneProfile => some (sequenceCheck tuneProfile)
  | .getProfile => some getProfile
  | .lutWrite => some (sequenceCheck lutWrite)
  | .lutCommit => some (sequenceCheck lutCommit)
  | .lutRead => some lutRead
  | .setFilter => some (sequenceCheck setFilter)
  | .readCapture => some readCapture
  | .readHistory => some readHistory
  | .reattachSource => some reattachSource
  | .pipelineReset => some pipelineReset
  | _ => none

/-- When a timed or granted event takes effect (R69, R71, R163, R166). -/
def effectDue : Instr → State → Prop
  | .tminExpiry, s => tminDue s = true
  | .repeatTimerExpiry, s => repeatDue s = true
  | .fixedTimerExpiry, s => fixedDue s = true
  | .stripRead, s => stripDue s = true
  | .scanEnd, s => scanEndDue s = true
  | .gapEvent, s => gapDue s = true
  | .overrunReply, s => overrunDue s = true
  | .deferredReply, s => deferredDue s = true
  | _, _ => True

/-- The next states of a command: the state it found, or its effect. -/
inductive Outcome : Instr → State → State → Prop
  | none (c : Instr) (s : State) : Outcome c s s
  | plain {c : Instr} {f : State → State} (s : State) : plainEffect c = some f → Outcome c s (f s)
  | settled {c : Instr} {f : State → State} (s : State) :
      settledEffect c = some f → effectDue c s → Outcome c s (settle (f s))
  | request {c : Instr} {f : Request → State → State} {r : Request} (s : State) :
      requestRule c = some f → s.granted = some r → Outcome c s (settle (f r (takeRequest s)))
  | startUnarmed (s : State) : s.sp.state = .unarmed → Outcome .frameStart s (openFrame .ignored s)
  | startDetached (s : State) : s.sp.state = .detached →
      Outcome .frameStart s (observeFrame (if s.sp.cond = .observed then breakRun s else s))
  | startObserved (s : State) : s.sp.state.attached = true → (closeByStart s).sp.state = .detached →
      Outcome .frameStart s (settle (observeFrame (closeByStart s)))
  | startTaken (s : State) (k : Slot) : s.sp.state.attached = true → (closeByStart s).sp.state ≠ .detached →
      (closeByStart s).pool.lowestFree = some k → Outcome .frameStart s (settle (takeFrame k (closeByStart s)))

theorem plain_outcome {c : Instr} {f : State → State} {s t : State} (hf : plainEffect c = some f) (ht : f s = t) :
    Outcome c s t :=
  ht ▸ .plain s hf

theorem whileRunning_outcome {c : Instr} {f : State → Result} {s t : State} (h : whileRunning f s = .next t)
    (hf : f s = .next t → Outcome c s t) : Outcome c s t := by
  rw [whileRunning_eq] at h
  split at h
  · cases h
    exact .none c s
  · exact hf h

theorem whenDue_outcome {c : Instr} {due : State → Bool} {f : State → State} {s t : State}
    (h : whenDue due f s = .next t) (hf : settledEffect c = some f) (hdue : due s = true → effectDue c s) :
    Outcome c s t := by
  obtain rfl | ⟨_, hd, rfl⟩ := whenDue_cases h
  · exact .none c _
  · exact .settled s hf (hdue hd)

theorem execRequest_outcome {c : Instr} {type : Nat} {f : Request → State → State} {s t : State}
    (h : execRequest type f s = .next t) (hf : requestRule c = some f) : Outcome c s t := by
  obtain rfl | ⟨r, hgranted, _, rfl⟩ := execRequest_cases h
  · exact .none c _
  · exact .request s hf hgranted

theorem execRequestRefused_outcome {s t : State} (h : execRequestRefused s = .next t) :
    Outcome .requestRefused s t := by
  obtain rfl | ⟨_, hdue, rfl⟩ := whenDue_cases h
  · exact .none _ _
  · cases hgranted : s.granted with
    | none => simp [refusedDue, hgranted] at hdue
    | some r =>
      have hhead := granted_head hgranted
      cases hslots : s.ml.slots with
      | nil => simp [hslots] at hhead
      | cons r' rest =>
        rw [hslots] at hhead
        cases hhead
        simpa [carryOut, hslots] using Outcome.request (c := .requestRefused) s rfl hgranted

theorem attachedStart_outcome {s t : State} (hatt : s.sp.state.attached = true) (h : attachedStart s = .next t) :
    Outcome .frameStart s t := by
  simp only [attachedStart] at h
  repeat' split at h
  · cases h
    exact .startObserved s hatt ‹_›
  · cases h
    exact .startTaken s _ hatt ‹_› ‹_›
  · cases h

theorem frameStartEvent_outcome {s t : State} (h : frameStartEvent s = .next t) : Outcome .frameStart s t := by
  simp only [frameStartEvent] at h
  split at h
  next hst =>
    cases h
    exact .startUnarmed s hst
  next hst =>
    cases h
    exact .startDetached s hst
  all_goals
    next hst => exact attachedStart_outcome (by rw [hst]; rfl) h

/-- Every next state of a command is one of its outcomes. -/
theorem exec_outcome {c : Instr} {s t : State} (h : exec c s = .next t) : Outcome c s t := by
  cases c <;> simp only [exec] at h
  case powerOnReset =>
    cases h
    exact plain_outcome rfl rfl
  case resetNRelease =>
    cases h
    exact plain_outcome rfl rfl
  case frameStart => exact whileRunning_outcome h frameStartEvent_outcome
  case line e p =>
    simp only [execLine] at h
    split at h
    · refine whileRunning_outcome h fun h => ?_
      cases h
      exact .settled s rfl trivial
    · cases h
  case packet a b p =>
    simp only [execPacket] at h
    split at h
    · refine whileRunning_outcome h fun h => ?_
      cases h
      exact .settled s rfl trivial
    · cases h
  case replySent =>
    simp only [execReplySent] at h
    repeat' split at h
    · cases h
      exact .none _ _
    · cases h
      exact plain_outcome rfl rfl
    · cases h
      exact .none _ _
  case noticeSent =>
    simp only [execNoticeSent] at h
    repeat' split at h
    · cases h
      exact .none _ _
    · cases h
      exact plain_outcome rfl rfl
    · cases h
      exact .none _ _
  case requestRefused => exact execRequestRefused_outcome h
  case frameEnd | signalLost =>
    refine whileRunning_outcome h fun h => ?_
    cases h
    exact .settled s rfl trivial
  case signalRestored | breakEvent | messageReceived | byteReceived =>
    refine whileRunning_outcome h fun h => ?_
    cases h
    exact plain_outcome rfl rfl
  case tminExpiry | repeatTimerExpiry | fixedTimerExpiry | stripRead | scanEnd | gapEvent | overrunReply | deferredReply =>
    exact whenDue_outcome h rfl id
  all_goals exact execRequest_outcome h rfl

end Sys2Proof.Machine
end

section
/-! The records of the ring and the two banks, through every command (chapters 6 and 9). -/

namespace Sys2Proof.Machine

/-- A record of the ring after a change: the number, slot and first-line time, and a fate other than PENDING, are kept. -/
def FrameRec.becomes (r r' : FrameRec) : Prop :=
  r'.frameNo = r.frameNo ∧ r'.slot = r.slot ∧ r'.firstLine = r.firstLine ∧ (r.fate = .pending ∨ r'.fate = r.fate)

/-- Every record of a ring comes from one of another. -/
def comesFrom (ring ring' : List FrameRec) : Prop := ∀ r' ∈ ring', ∃ r ∈ ring, r.becomes r'

theorem FrameRec.becomes_refl (r : FrameRec) : r.becomes r := ⟨rfl, rfl, rfl, .inr rfl⟩

theorem FrameRec.becomes_trans {a b c : FrameRec} (h : a.becomes b) (g : b.becomes c) : a.becomes c := by
  obtain ⟨hno, hslot, hfirst, hfate⟩ := h
  obtain ⟨gno, gslot, gfirst, gfate⟩ := g
  refine ⟨gno.trans hno, gslot.trans hslot, gfirst.trans hfirst, ?_⟩
  rcases hfate with hfate | hfate
  · exact .inl hfate
  · rw [← hfate]
    exact gfate

@[simp] theorem comesFrom_refl (ring : List FrameRec) : comesFrom ring ring := fun r hr => ⟨r, hr, r.becomes_refl⟩

@[simp] theorem comesFrom_nil (ring : List FrameRec) : comesFrom ring [] := fun _ hr => absurd hr List.not_mem_nil

theorem comesFrom_trans {a b c : List FrameRec} (h : comesFrom a b) (g : comesFrom b c) : comesFrom a c := by
  intro z hz
  obtain ⟨y, hy, hyz⟩ := g z hz
  obtain ⟨x, hx, hxy⟩ := h y hy
  exact ⟨x, hx, FrameRec.becomes_trans hxy hyz⟩

theorem comesFrom_onRecord (n : FrameNo) {f : FrameRec → FrameRec} (hf : ReportLawful f) (s : State) :
    comesFrom s.hr (onRecord n f s).hr := by
  intro r' hr'
  simp only [onRecord, State.setHr_fields, List.mem_map] at hr'
  obtain ⟨r, hr, rfl⟩ := hr'
  refine ⟨r, hr, ?_⟩
  split
  · exact hf r
  · exact r.becomes_refl

theorem Moved.comesFrom {s t : State} (h : Moved s t) : comesFrom s.hr t.hr := by
  induction h with
  | refl => exact comesFrom_refl _
  | onRecord n f hf _ ih => exact comesFrom_trans ih (comesFrom_onRecord n hf _)
  | emptyRing => exact comesFrom_nil _
  | _ => simpa

/-- The banks after a command: as they were, or exchanged (R123). -/
def ColourStage.keepsBanks (c c' : ColourStage) : Prop :=
  (c'.active = c.active ∧ c'.shadow = c.shadow) ∨ (c'.active = c.shadow ∧ c'.shadow = c.active)

@[simp] theorem ColourStage.keepsBanks_refl (c : ColourStage) : c.keepsBanks c := .inl ⟨rfl, rfl⟩

theorem ColourStage.keepsBanks_trans {a b c : ColourStage} (h : a.keepsBanks b) (g : b.keepsBanks c) :
    a.keepsBanks c := by
  rcases h with ⟨h1, h2⟩ | ⟨h1, h2⟩ <;> rcases g with ⟨g1, g2⟩ | ⟨g1, g2⟩ <;>
    simp [ColourStage.keepsBanks, h1, h2, g1, g2]

theorem bankExchange_keepsBanks (s : State) : s.cs.keepsBanks (bankExchange s).cs := by
  unfold bankExchange
  split
  · exact .inr (by simp [ColourStage.exchanged])
  · exact .inl ⟨rfl, rfl⟩

theorem Moved.keepsBanks {s t : State} (h : Moved s t) : s.cs.keepsBanks t.cs := by
  induction h with
  | refl => exact ColourStage.keepsBanks_refl _
  | bankExchange _ ih => exact ColourStage.keepsBanks_trans ih (bankExchange_keepsBanks _)
  | copySettings _ ih => exact ih
  | _ => simpa

/-- An application is a move, and then the reply of the Confirm completes. -/
theorem applyProfile_moved_upTo (s : State) :
    applyProfile s = s ∨ ∃ u, Moved s u ∧
      applyProfile s = completeDeferred .profileApply .ok (u.setOtg { u.otg with pendingApp := false }) := by
  simp only [applyProfile]
  split
  · exact .inl rfl
  · refine .inr ⟨_, ?_, rfl⟩
    split
    · exact startOutput_moved (applyPacing_moved _ _ (applyFrames_moved _ _ (setPc_moved _ .refl)))
    · exact restartCycle_moved (applyPacing_moved _ _ (applyFrames_moved _ _ (setPc_moved _ .refl)))

theorem applyProfile_comesFrom (s : State) : comesFrom s.hr (applyProfile s).hr := by
  obtain h | ⟨u, hu, h⟩ := applyProfile_moved_upTo s
  · rw [h]
    exact comesFrom_refl _
  · simpa [h] using hu.comesFrom

theorem applyProfile_keepsBanks (s : State) : s.cs.keepsBanks (applyProfile s).cs := by
  obtain h | ⟨u, hu, h⟩ := applyProfile_moved_upTo s
  · rw [h]
    exact ColourStage.keepsBanks_refl _
  · simpa [h] using hu.keepsBanks

/-- The reset point is a move, and then the reply of the reset completes. -/
theorem resetPoint_moved_upTo (s : State) : ∃ u, Moved s u ∧
    resetPoint s = completeDeferred .pipelineReset .ok (u.setOtg { u.otg with pendingReset := false }) :=
  ⟨_, restartCycle_moved (recomputeQ_moved (fun _ h => h) (.emptyRing (mergeTune_moved (setPs_moved _
    (resetPacing_moved (resetSource_moved (resetPool_moved .refl))))))), rfl⟩

theorem resetPoint_keepsBanks (s : State) : s.cs.keepsBanks (resetPoint s).cs := by
  obtain ⟨u, hu, h⟩ := resetPoint_moved_upTo s
  simpa [h] using hu.keepsBanks

theorem endScan_comesFrom (s : State) : comesFrom s.hr (endScan s).hr := by
  have hpool : Moved s (scanEndPool (closeWatch (s.setOtg { s.otg with nextStrip := s.prof.strips }))) :=
    scanEndPool_moved (closeWatch_moved (setOtg_moved _ rfl rfl .refl))
  simp only [endScan]
  repeat' split
  · refine comesFrom_trans ?_ (applyProfile_comesFrom _)
    simp
  · simp
  · exact comesFrom_trans hpool.comesFrom (applyProfile_comesFrom _)
  · exact hpool.comesFrom
  · exact (leaveScan_moved hpool).comesFrom

theorem endScan_keepsBanks (s : State) : s.cs.keepsBanks (endScan s).cs := by
  have hpool : Moved s (scanEndPool (closeWatch (s.setOtg { s.otg with nextStrip := s.prof.strips }))) :=
    scanEndPool_moved (closeWatch_moved (setOtg_moved _ rfl rfl .refl))
  simp only [endScan]
  repeat' split
  · exact ColourStage.keepsBanks_trans (ColourStage.keepsBanks_trans hpool.keepsBanks (resetPoint_keepsBanks _))
      (applyProfile_keepsBanks _)
  · exact ColourStage.keepsBanks_trans hpool.keepsBanks (resetPoint_keepsBanks _)
  · exact ColourStage.keepsBanks_trans hpool.keepsBanks (applyProfile_keepsBanks _)
  · exact hpool.keepsBanks
  · exact (leaveScan_moved hpool).keepsBanks

theorem confirmProfile_comesFrom (r : Request) (s : State) : comesFrom s.hr (confirmProfile r s).hr := by
  simp only [confirmProfile]
  repeat' split
  · simp
  · exact comesFrom_trans (by simp) (applyProfile_comesFrom _)
  · simp

theorem confirmProfile_keepsBanks (r : Request) (s : State) : s.cs.keepsBanks (confirmProfile r s).cs := by
  simp only [confirmProfile]
  repeat' split
  · simp
  · exact ColourStage.keepsBanks_trans (by simp) (applyProfile_keepsBanks _)
  · simp

theorem pipelineReset_comesFrom (r : Request) (s : State) : comesFrom s.hr (pipelineReset r s).hr := by
  simp only [pipelineReset]
  repeat' split
  all_goals simp

theorem pipelineReset_keepsBanks (r : Request) (s : State) : s.cs.keepsBanks (pipelineReset r s).cs := by
  simp only [pipelineReset]
  repeat' split
  · simp
  · simp
  · simp [ColourStage.keepsBanks]
  · exact ColourStage.keepsBanks_trans (by simp [ColourStage.keepsBanks]) (resetPoint_keepsBanks _)

theorem plainEffect_comesFrom {c : Instr} {f : State → State} (hf : plainEffect c = some f) (s : State) :
    comesFrom s.hr (f s).hr := by
  cases c
  case powerOnReset =>
    cases hf
    simp [powerOnState, State.reset]
  all_goals cases hf
  all_goals simp

theorem settledEffect_comesFrom {c : Instr} {f : State → State} (hf : settledEffect c = some f) (s : State) :
    comesFrom s.hr (f s).hr := by
  cases c
  case scanEnd =>
    cases hf
    exact endScan_comesFrom s
  all_goals cases hf
  case line e p => exact (lineEvent_moved e p .refl).comesFrom
  case frameEnd => exact (frameEndEvent_moved .refl).comesFrom
  case signalLost => exact (signalLostEvent_moved .refl).comesFrom
  case tminExpiry => exact (tminExpired_moved .refl).comesFrom
  case repeatTimerExpiry => exact (repeatExpired_moved .refl).comesFrom
  case fixedTimerExpiry => exact (fixedExpired_moved .refl).comesFrom
  case stripRead => exact (readStrip_moved _ .refl).comesFrom
  all_goals simp

theorem requestRule_comesFrom {c : Instr} {f : Request → State → State} (hf : requestRule c = some f) (r : Request)
    (s : State) : comesFrom s.hr (f r s).hr := by
  cases c
  case confirmProfile =>
    cases hf
    exact confirmProfile_comesFrom r s
  case pipelineReset =>
    cases hf
    exact pipelineReset_comesFrom r s
  all_goals cases hf
  all_goals simp


theorem takeFrame_comesFrom (k : Slot) (s : State) :
    ∀ r' ∈ (takeFrame k s).hr, (∃ r ∈ s.hr, r.becomes r') ∨
      r'.frameNo = s.sp.frameCounter + 1 ∧ r'.fate = .pending := by
  rw [(takeFrame_ring k s).1]
  intro r' hr'
  rw [ringJoin, List.mem_append, List.mem_singleton] at hr'
  obtain hr' | rfl := hr'
  · refine .inl ⟨r', ?_, r'.becomes_refl⟩
    split at hr'
    · exact hr'
    · exact List.mem_of_mem_drop hr'
  · exact .inr ⟨rfl, rfl⟩

/-- Settles O16: every effect but that of a taken Frame Start leaves a ring whose records come from the one before. -/
theorem fatesAreFinal : Obligations.FatesAreFinal := by
  intro c s t h
  have hkept (h : comesFrom s.hr t.hr) : ∀ r' ∈ t.hr,
      (∃ r ∈ s.hr, r'.frameNo = r.frameNo ∧ r'.slot = r.slot ∧ r'.firstLine = r.firstLine ∧
        (r.fate = .pending ∨ r'.fate = r.fate)) ∨
      (c = .frameStart ∧ r'.frameNo = s.sp.frameCounter + 1 ∧ r'.fate = .pending) :=
    fun r' hr' => .inl (h r' hr')
  cases exec_outcome h with
  | none => exact hkept (comesFrom_refl _)
  | plain _ hf => exact hkept (plainEffect_comesFrom hf s)
  | settled _ hf _ => exact hkept (by simpa using settledEffect_comesFrom hf s)
  | request _ hf _ => exact hkept (by simpa using requestRule_comesFrom hf _ (takeRequest s))
  | startUnarmed => exact hkept (by simp)
  | startDetached =>
    refine hkept ?_
    split <;> simp
  | startObserved => exact hkept (by simpa using (closeByStart_moved (.refl (s := s))).comesFrom)
  | startTaken _ k =>
    intro r' hr'
    rw [(settle_frame _).2.2.2.2.2.2.2.2.2.2.1] at hr'
    obtain ⟨r, hr, hbecomes⟩ | ⟨hno, hfate⟩ := takeFrame_comesFrom k (closeByStart s) r' hr'
    · obtain ⟨r₀, hr₀, hfirst⟩ := (closeByStart_moved (.refl (s := s))).comesFrom r hr
      exact .inl ⟨r₀, hr₀, FrameRec.becomes_trans hfirst hbecomes⟩
    · exact .inr ⟨rfl, by simpa using hno, hfate⟩

@[simp] theorem sequenceCheck_cs {f : Request → State → State} {r : Request} {s : State} (hf : (f r s).cs = s.cs) :
    (sequenceCheck f r s).cs = s.cs := sequenceCheck_keeps State.cs (by simp) (by simp) hf

theorem lutCommit_keepsBanks (r : Request) (s : State) : s.cs.keepsBanks (lutCommit r s).cs := by
  simp only [lutCommit]
  repeat' split
  · simp
  · exact .inr (by simp [ColourStage.exchanged])
  · exact .inl (by simp)

theorem plainEffect_cs {c : Instr} {f : State → State} (hf : plainEffect c = some f) (hc : c ≠ .powerOnReset)
    (s : State) : (f s).cs = s.cs := by
  cases c
  all_goals cases hf
  case powerOnReset => exact absurd rfl hc
  all_goals simp

theorem settledEffect_keepsBanks {c : Instr} {f : State → State} (hf : settledEffect c = some f) (s : State) :
    s.cs.keepsBanks (f s).cs := by
  cases c
  all_goals cases hf
  case scanEnd => exact endScan_keepsBanks s
  case line e p => exact (lineEvent_moved e p .refl).keepsBanks
  case frameEnd => exact (frameEndEvent_moved .refl).keepsBanks
  case signalLost => exact (signalLostEvent_moved .refl).keepsBanks
  case tminExpiry => exact (tminExpired_moved .refl).keepsBanks
  case repeatTimerExpiry => exact (repeatExpired_moved .refl).keepsBanks
  case fixedTimerExpiry => exact (fixedExpired_moved .refl).keepsBanks
  case stripRead => exact (readStrip_moved _ .refl).keepsBanks
  all_goals simp

theorem requestRule_keepsBanks {c : Instr} {f : Request → State → State} (hf : requestRule c = some f)
    (hc : c ≠ .lutWrite) (r : Request) (s : State) : s.cs.keepsBanks (f r s).cs := by
  cases c
  all_goals cases hf
  case lutWrite => exact absurd rfl hc
  case confirmProfile => exact confirmProfile_keepsBanks r s
  case pipelineReset => exact pipelineReset_keepsBanks r s
  case lutCommit =>
    obtain h | h | h := sequenceCheck_cases lutCommit r s
    · simp [h]
    · simp [h]
    · rw [h]
      exact lutCommit_keepsBanks r s
  all_goals simp

theorem lutWrite_active (r : Request) (s : State) : (sequenceCheck lutWrite r s).cs.active = s.cs.active := by
  refine sequenceCheck_keeps (fun s => s.cs.active) (by simp) (by simp) ?_
  simp only [lutWrite]
  repeat' split
  all_goals simp

/-- Settles O15: the updates of the shared operations leave the banks or exchange them; of the requests, LUT Write alone
writes a bank, and that the shadow one. -/
theorem banksOnlyExchange : Obligations.BanksOnlyExchange := by
  intro c s t h hc
  suffices hbanks : (c = .lutWrite → t.cs.active = s.cs.active) ∧ (c ≠ .lutWrite → s.cs.keepsBanks t.cs) from hbanks
  cases exec_outcome h with
  | none => exact ⟨fun _ => rfl, fun _ => ColourStage.keepsBanks_refl _⟩
  | plain _ hf =>
    rw [plainEffect_cs hf hc s]
    exact ⟨fun _ => rfl, fun _ => ColourStage.keepsBanks_refl _⟩
  | settled _ hf _ =>
    refine ⟨fun hlut => ?_, fun _ => by simpa using settledEffect_keepsBanks hf s⟩
    rw [hlut] at hf
    cases hf
  | request _ hf _ =>
    refine ⟨fun hlut => ?_, fun hlut => by simpa using requestRule_keepsBanks hf hlut _ (takeRequest s)⟩
    rw [hlut] at hf
    cases hf
    simpa using lutWrite_active _ (takeRequest s)
  | startUnarmed => exact ⟨fun _ => by simp, fun _ => by simp⟩
  | startDetached => exact ⟨fun _ => by split <;> simp, fun _ => by split <;> simp⟩
  | startObserved =>
    exact ⟨nofun, fun _ => by simpa using (closeByStart_moved (.refl (s := s))).keepsBanks⟩
  | startTaken => exact ⟨nofun, fun _ => by simpa using (closeByStart_moved (.refl (s := s))).keepsBanks⟩

end Sys2Proof.Machine
end

section
/-! Faults, and the whole-machine frame (chapters 1, 2, 3, 7, 8 and 10): a taken Frame Start finds a slot because three markers
cannot cover four slots, and each command changes the items of its own rules alone. -/

namespace Sys2Proof.Machine

/-- An abort leaves no filling slot (R6, R10). -/
@[simp] theorem abortFilling_filling (truncated : Bool) (s : State) : (abortFilling truncated s).pool.filling = none := by
  simp only [abortFilling]
  repeat' split
  · assumption
  · simp
  · simp

/-- The close by a Frame Start leaves no filling slot (R6, R27). -/
theorem closeByStart_filling {s : State} (h : s.fillingHolds) : (closeByStart s).pool.filling = none := by
  have hnone (hc : s.sp.cond ≠ .taken) : s.pool.filling = none :=
    Option.not_isSome_iff_eq_none.mp fun hsome => hc (h hsome).1
  simp only [closeByStart]
  split
  case h_5 => simp
  all_goals simp_all

/-- Three markers leave one of four slots free. -/
theorem exists_unmarked (r h o : Option Slot) : ∃ k : Slot, r ≠ some k ∧ h ≠ some k ∧ o ≠ some k := by
  revert r h o
  decide

/-- Without a filling slot there is a free slot (R6). -/
theorem lowestFree_ne_none {p : SlotPool} (h : p.filling = none) : p.lowestFree ≠ none := by
  obtain ⟨k, hready, hheld, hscreen⟩ := exists_unmarked p.ready p.held p.onScreen
  intro hnone
  have hk := List.find?_eq_none.mp hnone k (List.mem_finRange k)
  simp [SlotPool.isFree, h, hready, hheld, hscreen] at hk

theorem whileRunning_no_fault {f : State → Result} {s : State} {e : Fault} (hf : f s ≠ .fault e) :
    whileRunning f s ≠ .fault e := by
  rw [whileRunning_eq]
  split
  · nofun
  · exact hf

theorem whenDue_no_fault (due : State → Bool) (f : State → State) (s : State) (e : Fault) :
    whenDue due f s ≠ .fault e := by
  simp only [whenDue]
  repeat' split
  all_goals nofun

theorem execRequest_no_fault (type : Nat) (f : Request → State → State) (s : State) (e : Fault) :
    execRequest type f s ≠ .fault e := whenDue_no_fault _ _ _ _

theorem frameStartEvent_no_fault {s : State} (h : s.fillingHolds) (e : Fault) : frameStartEvent s ≠ .fault e := by
  have hattached : attachedStart s ≠ .fault e := by
    simp only [attachedStart]
    repeat' split
    · nofun
    · nofun
    next hnone => exact fun _ => lowestFree_ne_none (closeByStart_filling h) hnone
  simp only [frameStartEvent]
  split
  · nofun
  · nofun
  all_goals exact hattached

/-- No command faults while a filling slot exists only with a taken frame in progress. -/
theorem exec_no_fault (c : Instr) {s : State} (h : s.fillingHolds) (e : Fault) : exec c s ≠ .fault e := by
  cases c <;> simp only [exec]
  case frameStart => exact whileRunning_no_fault (frameStartEvent_no_fault h e)
  case powerOnReset | resetNRelease => nofun
  case line | packet =>
    simp only [execLine, execPacket]
    split
    · exact whileRunning_no_fault nofun
    · nofun
  case replySent | noticeSent =>
    simp only [execReplySent, execNoticeSent]
    repeat' split
    all_goals nofun
  case frameEnd | signalLost | signalRestored | breakEvent | messageReceived | byteReceived =>
    exact whileRunning_no_fault nofun
  case tminExpiry | repeatTimerExpiry | fixedTimerExpiry | stripRead | scanEnd | gapEvent | overrunReply
      | deferredReply | requestRefused =>
    exact whenDue_no_fault _ _ _ _
  all_goals exact execRequest_no_fault _ _ _ _

/-- Settles O13: a step is one command or an idle step, and only a taken Frame Start could fault. -/
theorem freeSlotAlwaysFound : Obligations.FreeSlotAlwaysFound := by
  intro s f h
  unfold step
  split
  next c rest _ => exact exec_no_fault c (s := s.setPending rest) h f
  next => nofun

/-- The items that a command leaves unless they are its own (the first part of O14). -/
def keepsOthers (c : Instr) (s t : State) : Prop :=
  t.timeBase = s.timeBase ∧
    (c ≠ .setPanelLimits → t.pc.limits = s.pc.limits) ∧
    (∀ l, s.pc.limits = some l → t.pc.limits = some l) ∧
    (c ≠ .frameStart → t.sp.frameCounter = s.sp.frameCounter) ∧
    (c ≠ .setFilter → t.pf.entries = s.pf.entries) ∧
    (c ≠ .setFilter → c ≠ .readCapture → (∀ a b p, c ≠ .packet a b p) → t.pf = s.pf) ∧
    (c ≠ .setNotices → t.ml.enables = s.ml.enables) ∧
    ((∀ e p, c ≠ .line e p) → t.pool.store = s.pool.store)

section
variable {f : Request → State → State} {r : Request} {s : State}

@[simp] theorem sequenceCheck_timeBase (hf : (f r s).timeBase = s.timeBase) :
    (sequenceCheck f r s).timeBase = s.timeBase := sequenceCheck_keeps State.timeBase (by simp) (by simp) hf

@[simp] theorem sequenceCheck_pool (hf : (f r s).pool = s.pool) :
    (sequenceCheck f r s).pool = s.pool := sequenceCheck_keeps State.pool (by simp) (by simp) hf

@[simp] theorem sequenceCheck_pf (hf : (f r s).pf = s.pf) :
    (sequenceCheck f r s).pf = s.pf := sequenceCheck_keeps State.pf (by simp) (by simp) hf

@[simp] theorem sequenceCheck_pending (hf : (f r s).pending = s.pending) :
    (sequenceCheck f r s).pending = s.pending := sequenceCheck_keeps State.pending (by simp) (by simp) hf

@[simp] theorem sequenceCheck_enables (hf : (f r s).ml.enables = s.ml.enables) :
    (sequenceCheck f r s).ml.enables = s.ml.enables :=
  sequenceCheck_keeps (fun s => s.ml.enables) (by simp) (by simp) hf

@[simp] theorem sequenceCheck_limits (hf : (f r s).pc.limits = s.pc.limits) :
    (sequenceCheck f r s).pc.limits = s.pc.limits := by
  obtain h | h | h := sequenceCheck_cases f r s
  · simp [h]
  · simp [h]
  · rw [h, hf]

end

theorem plainEffect_keepsOthers {c : Instr} {f : State → State} (hf : plainEffect c = some f)
    (hc : c ≠ .powerOnReset) (s : State) : keepsOthers c s (f s) := by
  cases c
  all_goals cases hf
  case powerOnReset => exact absurd rfl hc
  all_goals simp [keepsOthers]

theorem plainEffect_pending {c : Instr} {f : State → State} (hf : plainEffect c = some f) (s : State) :
    (f s).pending = s.pending := by
  cases c
  all_goals cases hf
  case powerOnReset => rfl
  all_goals simp

theorem settledEffect_keepsOthers {c : Instr} {f : State → State} (hf : settledEffect c = some f) (s : State) :
    keepsOthers c s (f s) ∧ (f s).pending = s.pending := by
  cases c
  all_goals cases hf
  all_goals simp [keepsOthers]

/-- Set Panel Limits leaves limits that are set (R129). -/
theorem setPanelLimits_of_set {r : Request} {s : State} (h : s.pc.limits.isSome = true) :
    setPanelLimits r s = answer r .locked s := if_pos h

theorem requestRule_keepsOthers {c : Instr} {f : Request → State → State} (hf : requestRule c = some f) (r : Request)
    (s : State) : keepsOthers c s (f r s) ∧ (f r s).pending = s.pending := by
  cases c
  all_goals cases hf
  case setPanelLimits =>
    refine ⟨⟨by simp, nofun, fun l hl => ?_, by simp, by simp, by simp, by simp, by simp⟩, by simp⟩
    rw [sequenceCheck_limits, hl]
    rw [setPanelLimits_of_set (by simp [hl])]
    simp
  all_goals simp [keepsOthers]

/-- A state that differs from another in its link alone. -/
theorem eq_setMl_of_fields {s t : State}
    (h : t.timeBase = s.timeBase ∧ t.resetAsserted = s.resetAsserted ∧ t.pool = s.pool ∧ t.sp = s.sp ∧ t.pu = s.pu ∧
      t.otg = s.otg ∧ t.ps = s.ps ∧ t.cs = s.cs ∧ t.pc = s.pc ∧ t.pf = s.pf ∧ t.hr = s.hr ∧ t.panel = s.panel ∧
      t.choices = s.choices ∧ t.pending = s.pending) : t = { s with ml := t.ml } := by
  cases s
  cases t
  simp_all

/-- The link's own events, and the requests that only read. -/
def staysInLink (c : Instr) : Prop :=
  c ∈ [.gapEvent, .breakEvent, .overrunReply, .deferredReply, .requestRefused, .replySent, .noticeSent, .getIdentity,
    .getStatus, .setNotices, .getProfile, .lutRead, .readHistory] ∨
    ∃ b, c = .byteReceived b ∨ c = .messageReceived b

theorem plainEffect_staysInLink {c : Instr} {f : State → State} (hf : plainEffect c = some f) (hc : staysInLink c)
    (s : State) : f s = { s with ml := (f s).ml } := by
  cases c
  all_goals cases hf
  case powerOnReset | resetNRelease | signalRestored => simp [staysInLink] at hc
  all_goals exact eq_setMl_of_fields (by simp)

theorem settledEffect_staysInLink {c : Instr} {f : State → State} (hf : settledEffect c = some f) (hc : staysInLink c)
    (s : State) : settle (f s) = { s with ml := (settle (f s)).ml } := by
  cases c
  all_goals cases hf
  case gapEvent | overrunReply | deferredReply => exact eq_setMl_of_fields (by simp)
  all_goals simp [staysInLink] at hc

theorem requestRule_staysInLink {c : Instr} {f : Request → State → State} (hf : requestRule c = some f)
    (hc : staysInLink c) (r : Request) (s : State) :
    settle (f r (takeRequest s)) = { s with ml := (settle (f r (takeRequest s))).ml } := by
  cases c
  all_goals cases hf
  case requestRefused | getIdentity | getStatus | setNotices | getProfile | lutRead | readHistory =>
    exact eq_setMl_of_fields (by simp)
  all_goals simp [staysInLink] at hc

theorem settle_keepsOthers {c : Instr} {s t : State} (h : keepsOthers c s t) : keepsOthers c s (settle t) := by
  simpa [keepsOthers] using h

/-- Every outcome of a command leaves the items that are not its own. -/
theorem outcome_keepsOthers {c : Instr} {s t : State} (h : Outcome c s t) :
    t.pending = s.pending ∧ (c ≠ .powerOnReset → keepsOthers c s t) := by
  cases h with
  | none => simp [keepsOthers]
  | plain _ hf => exact ⟨plainEffect_pending hf s, fun hc => plainEffect_keepsOthers hf hc s⟩
  | settled _ hf _ =>
    obtain ⟨hothers, hpending⟩ := settledEffect_keepsOthers hf s
    exact ⟨by simpa using hpending, fun _ => settle_keepsOthers hothers⟩
  | @request _ f r _ hf _ =>
    obtain ⟨hothers, hpending⟩ := requestRule_keepsOthers hf r (takeRequest s)
    exact ⟨by simpa using hpending, fun _ => settle_keepsOthers (by simpa [keepsOthers] using hothers)⟩
  | startUnarmed => simp [keepsOthers]
  | startDetached =>
    split <;> simp [keepsOthers]
  | startObserved => simp [keepsOthers]
  | startTaken => simp [keepsOthers]

/-- Settles O14: the frame of every outcome, and the link's own events and the reading requests write the link alone. -/
theorem onlyTheirCommandsChange : Obligations.OnlyTheirCommandsChange := by
  refine ⟨fun c s t h => outcome_keepsOthers (exec_outcome h), fun c s t h hc => ?_⟩
  have hc : staysInLink c := hc
  cases exec_outcome h with
  | none => rfl
  | plain _ hf => exact plainEffect_staysInLink hf hc s
  | settled _ hf _ => exact settledEffect_staysInLink hf hc s
  | request _ hf _ => exact requestRule_staysInLink hf hc _ s
  | startUnarmed | startDetached | startObserved | startTaken => simp [staysInLink] at hc

end Sys2Proof.Machine
end

section
/-! The capacities (chapters 6, 8 and 10): the strip store, the banks, the link and its notices, and the captures. -/

namespace Sys2Proof.Machine

/-- A step is an idle step or an outcome of the command at the front of the queue. -/
theorem step_outcome {s t : State} (h : step s = .next t) :
    t = idleStep s ∨ ∃ c rest, s.pending = c :: rest ∧ Outcome c (s.setPending rest) t := by
  unfold step at h
  split at h
  next c rest hq => exact .inr ⟨c, rest, hq, exec_outcome h⟩
  next =>
    cases h
    exact .inl rfl

@[simp] theorem idleStep_frame (s : State) :
    (idleStep s).pool = s.pool ∧ (idleStep s).cs = s.cs ∧ (idleStep s).pf = s.pf ∧ (idleStep s).ml = s.ml ∧
    (idleStep s).otg = s.otg := by
  unfold idleStep
  split <;> simp

/-- The canonical form of the store survives every stored line. -/
theorem storeLine_wf (line : Nat) (pixels : List Pixel) {s : State} (h : Store.wf s.pool.store = true) :
    Store.wf (storeLine line pixels s).pool.store = true := by
  simp only [storeLine]
  split
  · exact Store.writeLine_wf _ _ _ _ _ h
  · exact h

theorem goodLine_wf (e : Bool) (pixels : List Pixel) {s : State} (h : Store.wf s.pool.store = true) :
    Store.wf (goodLine e pixels s).pool.store = true := by
  have hstore := storeLine_wf s.sp.lineCount pixels h
  simp only [goodLine]
  split <;> simpa using hstore

theorem lineEvent_wf (e : Bool) (pixels : List Pixel) {s : State} (h : Store.wf s.pool.store = true) :
    Store.wf (lineEvent e pixels s).pool.store = true := by
  simp only [lineEvent, takenLine]
  repeat' split
  case h_2.isFalse.isFalse => exact goodLine_wf e pixels h
  all_goals simpa using h

theorem wf_keeps : Keeps (fun s => Store.wf s.pool.store = true) := by
  constructor
  case line => exact fun e p s h => lineEvent_wf e p h
  case powerOn => exact fun s h => h
  case startDetached =>
    intro s _ h
    split <;> simpa using h
  all_goals simp [Kept]

theorem banksHold_of_keepsBanks {s t : State} (h : s.cs.keepsBanks t.cs) (hs : s.banksHold) : t.banksHold := by
  obtain ⟨hactive, hshadow⟩ := hs
  rcases h with ⟨ha, hb⟩ | ⟨ha, hb⟩ <;> simp [State.banksHold, ha, hb, hactive, hshadow]

/-- The power-on banks are the identity table, 257 entries each (R119). -/
theorem reset_banksHold : State.reset.banksHold := by
  simp [State.banksHold, State.reset, ColourStage.powerOn, identityBank, bankSize]

theorem lutWrite_shadow_length (r : Request) (s : State) :
    (sequenceCheck lutWrite r s).cs.shadow.length = s.cs.shadow.length := by
  refine sequenceCheck_keeps (fun s => s.cs.shadow.length) (by simp) (by simp) ?_
  simp only [lutWrite]
  repeat' split
  · simp
  · simp
  · simp
  · simp [writeBank]

theorem outcome_banksHold {c : Instr} {s t : State} (h : Outcome c s t) (hs : s.banksHold) : t.banksHold := by
  cases h with
  | none => exact hs
  | @plain _ f _ hf =>
    by_cases hc : c = .powerOnReset
    · subst hc
      cases hf
      exact reset_banksHold
    · exact banksHold_of_keepsBanks (.inl (by simp [plainEffect_cs hf hc s])) hs
  | settled _ hf _ => exact banksHold_of_keepsBanks (by simpa using settledEffect_keepsBanks hf s) hs
  | @request _ f r _ hf _ =>
    by_cases hc : c = .lutWrite
    · subst hc
      cases hf
      simpa [State.banksHold, lutWrite_active, lutWrite_shadow_length] using hs
    · exact banksHold_of_keepsBanks (by simpa using requestRule_keepsBanks hf hc r (takeRequest s)) hs
  | startUnarmed => simpa [State.banksHold] using hs
  | startDetached => split <;> simpa [State.banksHold] using hs
  | startObserved | startTaken =>
    exact banksHold_of_keepsBanks (by simpa using (closeByStart_moved (.refl (s := s))).keepsBanks) hs

theorem step_banksHold {s t : State} (h : step s = .next t) (hs : s.banksHold) : t.banksHold := by
  obtain rfl | ⟨c, rest, _, hout⟩ := step_outcome h
  · simpa [State.banksHold] using hs
  · exact outcome_banksHold hout hs

/-- The link conditions read the request slots, the replies, the transmitter, the enables and the notices. -/
theorem linkHolds_congr {s t : State} (hslots : t.ml.slots = s.ml.slots) (hreplies : t.ml.replies = s.ml.replies)
    (htx : t.ml.tx = s.ml.tx) (henables : t.ml.enables = s.ml.enables) (hnotices : t.ml.notices = s.ml.notices)
    (h : s.linkHolds) : t.linkHolds := by
  simp only [State.linkHolds, hslots, hreplies, htx, henables, hnotices]
  exact h

/-- The condition on one pending copy (R168, R169). -/
def copyLawful (on : Vector Bool 5) (i : Fin 5) (c : NoticeMsg) : Prop :=
  on[i] = true ∧ c.content.kind = i ∧ 1 ≤ c.count ∧ c.count ≤ 255

theorem linkHolds_iff (s : State) : s.linkHolds ↔ s.ml.slots.length ≤ 2 ∧ s.ml.replies.length ≤ 4 ∧
    (∀ t, s.ml.tx = .reply t → s.ml.replies ≠ []) ∧
    ∀ (i : Fin 5) (c : NoticeMsg), s.ml.notices[i] = some c → copyLawful s.ml.enables i c := Iff.rfl

/-- The copies after one has been written or cleared. -/
theorem notices_set_lawful {on : Vector Bool 5} {n : Vector (Option NoticeMsg) 5} {i : Fin 5} {x : Option NoticeMsg}
    (h : ∀ (j : Fin 5) (c : NoticeMsg), n[j] = some c → copyLawful on j c)
    (hx : ∀ c, x = some c → copyLawful on i c) (j : Fin 5) (c : NoticeMsg)
    (hj : (n.set i.val x i.isLt)[j] = some c) : copyLawful on j c := by
  by_cases hij : i = j
  · subst hij
    exact hx c (by simpa using hj)
  · have hne : i.val ≠ j.val := fun e => hij (Fin.ext e)
    exact h j c (by simpa [hne] using hj)

theorem raisedCopy_lawful {on : Vector Bool 5} {n : Notice} {old : Option NoticeMsg} (hon : on[n.kind] = true) :
    copyLawful on n.kind (raisedCopy n old) := by
  refine ⟨hon, ?_, ?_, ?_⟩ <;> cases old <;> simp [raisedCopy]

theorem raise_linkHolds (n : Notice) {s : State} (h : s.linkHolds) : (raise n s).linkHolds := by
  simp only [raise]
  split
  next hon =>
    obtain ⟨hslots, hreplies, htx, hnotices⟩ := h
    refine ⟨hslots, hreplies, htx, notices_set_lawful hnotices fun c hc => ?_⟩
    cases hc
    exact raisedCopy_lawful hon
  next => exact h

theorem Moved.linkHolds {s t : State} (h : Moved s t) (hs : s.linkHolds) : t.linkHolds := by
  induction h with
  | refl => exact hs
  | raise n _ ih => exact raise_linkHolds n ih
  | bankExchange _ ih => exact linkHolds_congr (by simp) (by simp) (by simp) (by simp) (by simp) ih
  | _ => assumption

theorem Moved.replies {s t : State} (h : Moved s t) : t.ml.replies = s.ml.replies := by
  induction h with
  | refl => rfl
  | _ => simpa

theorem pushReply_linkHolds (rep : Reply) {s : State} (h : s.linkHolds) (hroom : s.ml.replies.length < 4) :
    (pushReply rep s).linkHolds := by
  obtain ⟨hslots, _, _, hnotices⟩ := h
  refine ⟨hslots, ?_, ?_, hnotices⟩
  · simpa [pushReply] using hroom
  · simp [pushReply]

theorem completeDeferred_linkHolds (k : DeferredKind) (st : Status) {s : State} (h : s.linkHolds) :
    (completeDeferred k st s).linkHolds :=
  linkHolds_congr (by simp) (by simp) (by simp) (by simp) (by simp) h

theorem entryFree_iff {s : State} : s.entryFree = true ↔ s.ml.replies.length < 4 :=
  ⟨of_decide_eq_true, decide_eq_true⟩

theorem claimDeferred_linkHolds {s : State} (h : s.linkHolds) : (claimDeferred s).linkHolds := by
  simp only [claimDeferred]
  repeat' split
  · exact h
  next hentry _ _ _ _ =>
    refine pushReply_linkHolds _ (linkHolds_congr (by simp) (by simp) (by simp) (by simp) (by simp) h) ?_
    simpa using entryFree_iff.mp hentry
  · exact linkHolds_congr rfl rfl rfl rfl rfl h
  · exact linkHolds_congr rfl rfl rfl rfl rfl h
  · exact h

/-- The notice that an idle transmitter takes is a pending copy (R168). -/
theorem chooseMessage_linkHolds {s : State} (h : s.linkHolds) : (chooseMessage s).linkHolds := by
  obtain ⟨hslots, hreplies, htx, hnotices⟩ := h
  simp only [chooseMessage]
  repeat' split
  next hq => exact ⟨hslots, hreplies, fun _ _ => by simp [hq], hnotices⟩
  next => exact ⟨hslots, hreplies, nofun, notices_set_lawful hnotices nofun⟩
  all_goals exact ⟨hslots, hreplies, htx, hnotices⟩

theorem settle_linkHolds {s : State} (h : s.linkHolds) : (settle s).linkHolds :=
  chooseMessage_linkHolds (claimDeferred_linkHolds (claimDeferred_linkHolds (claimDeferred_linkHolds h)))

theorem handOver_linkHolds (r : Request) {s : State} (h : s.linkHolds) : (handOver r s).linkHolds := by
  simp only [handOver]
  split
  next hroom =>
    obtain ⟨_, hreplies, htx, hnotices⟩ := h
    refine ⟨?_, hreplies, htx, hnotices⟩
    simpa [requestSlots, Nat.lt_succ_iff] using hroom
  next => exact linkHolds_congr rfl rfl rfl rfl rfl h

theorem setAssembler_linkHolds (a : AsmState) (bytes : List Byte) {s : State} (h : s.linkHolds) :
    (setAssembler a bytes s).linkHolds := linkHolds_congr rfl rfl rfl rfl rfl h

theorem resetAssembler_linkHolds {s : State} (h : s.linkHolds) : (resetAssembler s).linkHolds :=
  linkHolds_congr rfl rfl rfl rfl rfl h

theorem takeByte_linkHolds (b : Byte) {s : State} (h : s.linkHolds) : (takeByte b s).linkHolds := by
  simp only [takeByte, headerByte, payloadByte]
  repeat' split
  case h_2.isFalse.isTrue | h_2.isFalse.isFalse.isTrue | h_3.isFalse =>
    exact handOver_linkHolds _ (setAssembler_linkHolds _ _ h)
  all_goals exact setAssembler_linkHolds _ _ h

theorem gapEnds_linkHolds {s : State} (h : s.linkHolds) : (gapEnds s).linkHolds := by
  simp only [gapEnds]
  repeat' split
  case h_1.isTrue | h_2.isTrue => exact handOver_linkHolds _ (resetAssembler_linkHolds h)
  all_goals exact resetAssembler_linkHolds h

theorem gapFirst_linkHolds {s : State} (h : s.linkHolds) : (gapFirst s).linkHolds := by
  simp only [gapFirst]
  split
  · exact gapEnds_linkHolds h
  · exact h

theorem takeRequest_linkHolds {s : State} (h : s.linkHolds) : (takeRequest s).linkHolds := by
  obtain ⟨hslots, hrest⟩ := h
  exact ⟨by simpa [takeRequest] using Nat.le_succ_of_le hslots, hrest⟩

/-- A granted request finds a free entry of the reply queue, and no completed reply before it (R166). -/
theorem granted_room {s : State} {r : Request} (h : s.granted = some r) :
    s.ml.replies.length < 4 ∧ s.ml.doneOrder = [] := by
  simp only [State.granted] at h
  split at h
  next hfree =>
    simp only [State.noClaimant, Bool.and_eq_true, decide_eq_true_eq, entryFree_iff] at hfree
    exact ⟨hfree.1, hfree.2.1⟩
  next => cases h

theorem applyProfile_linkHolds {s : State} (h : s.linkHolds) : (applyProfile s).linkHolds := by
  obtain happly | ⟨u, hu, happly⟩ := applyProfile_moved_upTo s
  · rwa [happly]
  · rw [happly]
    exact completeDeferred_linkHolds _ _ (hu.linkHolds h)

theorem resetPoint_linkHolds {s : State} (h : s.linkHolds) : (resetPoint s).linkHolds := by
  obtain ⟨u, hu, hreset⟩ := resetPoint_moved_upTo s
  rw [hreset]
  exact completeDeferred_linkHolds _ _ (hu.linkHolds h)

theorem endScan_linkHolds {s : State} (h : s.linkHolds) : (endScan s).linkHolds := by
  have hpool : (scanEndPool (closeWatch (s.setOtg { s.otg with nextStrip := s.prof.strips }))).linkHolds :=
    (scanEndPool_moved .refl).linkHolds (linkHolds_congr rfl rfl rfl rfl rfl h)
  simp only [endScan]
  repeat' split
  · exact applyProfile_linkHolds (resetPoint_linkHolds hpool)
  · exact resetPoint_linkHolds hpool
  · exact applyProfile_linkHolds hpool
  · exact hpool
  · exact (leaveScan_moved .refl).linkHolds hpool

theorem deferReply_linkHolds (k : DeferredKind) (tag : Byte) {s : State} (h : s.linkHolds) :
    (deferReply k tag s).linkHolds := linkHolds_congr (by simp) (by simp) (by simp) (by simp) (by simp) h

theorem confirmProfile_linkHolds (r : Request) {s : State} (h : s.linkHolds) (hroom : s.ml.replies.length < 4) :
    (confirmProfile r s).linkHolds := by
  have hdefer : (deferReply .profileApply r.tag (s.setPc { s.pc with propState := .confirmed })).linkHolds :=
    deferReply_linkHolds _ _ h
  simp only [confirmProfile]
  repeat' split
  · exact hdefer
  · exact applyProfile_linkHolds hdefer
  · exact pushReply_linkHolds _ h hroom

theorem acceptReset_linkHolds {s : State} (h : s.linkHolds) : (acceptReset s).linkHolds := by
  have hcancel {u : State} (hu : u.linkHolds) : (cancelCommit u).linkHolds := by
    simp only [cancelCommit]
    split
    · exact completeDeferred_linkHolds _ _ hu
    · exact hu
  simp only [acceptReset]
  repeat' split
  · exact hcancel (completeDeferred_linkHolds _ _ h)
  · exact hcancel (completeDeferred_linkHolds _ _ h)
  · exact hcancel h
  · exact hcancel h

theorem pipelineReset_linkHolds (r : Request) {s : State} (h : s.linkHolds) (hroom : s.ml.replies.length < 4) :
    (pipelineReset r s).linkHolds := by
  have hdefer := deferReply_linkHolds .pipelineReset r.tag (acceptReset_linkHolds h)
  simp only [pipelineReset]
  repeat' split
  · exact pushReply_linkHolds _ h hroom
  · exact pushReply_linkHolds _ h hroom
  · exact hdefer
  · exact resetPoint_linkHolds hdefer

/-- The requests that push one reply, on a link they otherwise leave. -/
theorem setNotices_linkHolds (r : Request) {s : State} (h : s.linkHolds) (hroom : s.ml.replies.length < 4) :
    (setNotices r s).linkHolds := by
  simp only [setNotices]
  split
  · exact pushReply_linkHolds _ h hroom
  · refine pushReply_linkHolds _ ?_ hroom
    obtain ⟨hslots, hreplies, htx, hnotices⟩ := h
    refine ⟨hslots, hreplies, htx, fun i c hc => ?_⟩
    simp only [keptNotices, State.setMl_fields, Fin.getElem_fin, Vector.getElem_ofFn] at hc
    split at hc
    next hon => exact ⟨hon, (hnotices i c hc).2⟩
    next => cases hc

theorem sequenceCheck_linkHolds {f : Request → State → State} (r : Request) {s : State} (h : s.linkHolds)
    (hroom : s.ml.replies.length < 4) (hf : (f r s).linkHolds) : (sequenceCheck f r s).linkHolds := by
  obtain hc | hc | hc := sequenceCheck_cases f r s
  · rw [hc]
    exact pushReply_linkHolds _ h hroom
  · rw [hc]
    exact pushReply_linkHolds _ h hroom
  · rwa [hc]

theorem lutCommit_linkHolds (r : Request) {s : State} (h : s.linkHolds) (hroom : s.ml.replies.length < 4) :
    (lutCommit r s).linkHolds := by
  simp only [lutCommit]
  repeat' split
  · exact pushReply_linkHolds _ h hroom
  · exact pushReply_linkHolds _ h hroom
  · exact deferReply_linkHolds _ _ h

theorem reattachSource_linkHolds (r : Request) {s : State} (h : s.linkHolds) (hroom : s.ml.replies.length < 4) :
    (reattachSource r s).linkHolds := by
  simp only [reattachSource]
  split
  · have hmoved : Moved s (setCond s.sp.cond.passedOver (reattach s)) := setCond_moved _ (reattach_moved .refl)
    exact pushReply_linkHolds _ (hmoved.linkHolds h) (by rwa [hmoved.replies])
  · exact pushReply_linkHolds _ h hroom

theorem requestRule_linkHolds {c : Instr} {f : Request → State → State} (hf : requestRule c = some f) (r : Request)
    {s : State} (h : s.linkHolds) (hroom : s.ml.replies.length < 4) : (f r s).linkHolds := by
  cases c
  all_goals cases hf
  case requestRefused =>
    simp only [refuseRequest]
    split
    · exact pushReply_linkHolds _ h hroom
    · exact h
  case confirmProfile => exact confirmProfile_linkHolds r h hroom
  case pipelineReset => exact pipelineReset_linkHolds r h hroom
  case setNotices => exact setNotices_linkHolds r h hroom
  case reattachSource => exact reattachSource_linkHolds r h hroom
  case lutCommit => exact sequenceCheck_linkHolds r h hroom (lutCommit_linkHolds r h hroom)
  case getIdentity | getStatus | clearFault => exact pushReply_linkHolds _ h hroom
  case setPanelLimits | proposeProfile | tuneProfile | lutWrite | setFilter =>
    refine sequenceCheck_linkHolds r h hroom ?_
    simp only [setPanelLimits, proposeProfile, tuneProfile, lutWrite, setFilter]
    repeat' split
    all_goals exact pushReply_linkHolds _ h hroom
  case withdrawProfile | getProfile | lutRead | readCapture | readHistory =>
    simp only [withdrawProfile, getProfile, lutRead, readCapture, readHistory]
    repeat' split
    all_goals exact pushReply_linkHolds _ h hroom

theorem capturePacket_linkHolds (i : Fin 4) (ptype version : Byte) (payload : List Byte) {s : State} (h : s.linkHolds) :
    (capturePacket i ptype version payload s).linkHolds := by
  simp only [capturePacket]
  repeat' split
  · exact h
  · exact raise_linkHolds _ h
  · exact raise_linkHolds _ h

theorem packetEvent_linkHolds (ptype version : Byte) (payload : List Byte) {s : State} (h : s.linkHolds) :
    (packetEvent ptype version payload s).linkHolds := by
  simp only [packetEvent]
  repeat' split
  · exact h
  · exact capturePacket_linkHolds _ _ _ _ h
  · exact h

theorem overrunReplies_linkHolds {s : State} (h : s.linkHolds) (hroom : s.ml.replies.length < 4) :
    (overrunReplies s).linkHolds := by
  simp only [overrunReplies]
  split
  · exact pushReply_linkHolds _ (linkHolds_congr rfl rfl rfl rfl rfl h) hroom
  · exact h

theorem overrunDue_room {s : State} (h : overrunDue s = true) : s.ml.replies.length < 4 := by
  simp only [overrunDue, Bool.and_eq_true, entryFree_iff] at h
  exact h.1.1

theorem txIdle_linkHolds {s : State} (hslots : s.ml.slots.length ≤ 2) (hreplies : s.ml.replies.length ≤ 4)
    (hnotices : ∀ (i : Fin 5) (c : NoticeMsg), s.ml.notices[i] = some c → copyLawful s.ml.enables i c) :
    (txIdle s).linkHolds := ⟨hslots, hreplies, nofun, hnotices⟩

theorem reset_linkHolds : State.reset.linkHolds := by
  refine ⟨by decide, by decide, nofun, fun i c hc => ?_⟩
  have hnone : ∀ i : Fin 5, State.reset.ml.notices[i] = none := by decide
  rw [hnone i] at hc
  cases hc

theorem plainEffect_linkHolds {c : Instr} {f : State → State} (hf : plainEffect c = some f) {s : State}
    (h : s.linkHolds) : (f s).linkHolds := by
  cases c
  all_goals cases hf
  case powerOnReset => exact reset_linkHolds
  case resetNRelease | signalRestored => exact h
  case breakEvent => exact resetAssembler_linkHolds (gapFirst_linkHolds h)
  case messageReceived b | byteReceived b => exact takeByte_linkHolds b (gapFirst_linkHolds h)
  case replySent =>
    obtain ⟨hslots, hreplies, _, hnotices⟩ := h
    refine chooseMessage_linkHolds (txIdle_linkHolds hslots ?_ hnotices)
    simpa using Nat.le_succ_of_le hreplies
  case noticeSent =>
    obtain ⟨hslots, hreplies, _, hnotices⟩ := h
    exact chooseMessage_linkHolds (txIdle_linkHolds hslots hreplies hnotices)

theorem settledEffect_linkHolds {c : Instr} {f : State → State} (hf : settledEffect c = some f) {s : State}
    (hdue : effectDue c s) (h : s.linkHolds) : (f s).linkHolds := by
  cases c
  all_goals cases hf
  case line e p => exact (lineEvent_moved e p .refl).linkHolds h
  case frameEnd => exact (frameEndEvent_moved .refl).linkHolds h
  case packet a b p => exact packetEvent_linkHolds a b p h
  case signalLost => exact (signalLostEvent_moved .refl).linkHolds h
  case tminExpiry => exact (tminExpired_moved .refl).linkHolds h
  case repeatTimerExpiry => exact (repeatExpired_moved .refl).linkHolds h
  case fixedTimerExpiry => exact (fixedExpired_moved .refl).linkHolds h
  case stripRead => exact (readStrip_moved _ .refl).linkHolds h
  case scanEnd => exact endScan_linkHolds h
  case gapEvent => exact gapEnds_linkHolds h
  case overrunReply => exact overrunReplies_linkHolds h (overrunDue_room hdue)
  case deferredReply => exact claimDeferred_linkHolds h

/-- A taken frame moves the state but for its record. -/
theorem takeFrame_moved_upTo (k : Slot) (s : State) :
    ∃ u v, Moved s u ∧ v = createRecord (s.sp.frameCounter + 1) k s.timeBase u ∧ Moved v (takeFrame k s) :=
  ⟨_, _, takeSlot_moved k _ _ (setSp_moved _ .refl), rfl,
    openFrame_moved _ (setSp_moved _ (intervalSample_moved .refl))⟩

theorem outcome_linkHolds {c : Instr} {s t : State} (hout : Outcome c s t) (h : s.linkHolds) : t.linkHolds := by
  cases hout with
  | none => exact h
  | plain _ hf => exact plainEffect_linkHolds hf h
  | settled _ hf hdue => exact settle_linkHolds (settledEffect_linkHolds hf hdue h)
  | request _ hf hg =>
    exact settle_linkHolds (requestRule_linkHolds hf _ (takeRequest_linkHolds h) (granted_room hg).1)
  | startUnarmed => exact (openFrame_moved _ .refl).linkHolds h
  | startDetached =>
    split
    · exact (observeFrame_moved (breakRun_moved .refl)).linkHolds h
    · exact (observeFrame_moved .refl).linkHolds h
  | startObserved => exact settle_linkHolds ((observeFrame_moved (closeByStart_moved .refl)).linkHolds h)
  | startTaken _ k =>
    obtain ⟨u, v, hu, rfl, hv⟩ := takeFrame_moved_upTo k (closeByStart s)
    exact settle_linkHolds (hv.linkHolds (hu.linkHolds ((closeByStart_moved .refl).linkHolds h)))

theorem step_linkHolds {s t : State} (h : step s = .next t) (hs : s.linkHolds) : t.linkHolds := by
  obtain rfl | ⟨c, rest, _, hout⟩ := step_outcome h
  · simpa [State.linkHolds] using hs
  · exact outcome_linkHolds hout hs

/-- The captures after one has been written or cleared (R146). -/
theorem filterHolds_setCapture {s : State} {i : Fin 4} {x : Option Capture} (h : s.filterHolds)
    (hx : ∀ c, x = some c → s.pf.entries[i].enabled = true ∧ c.payload.length ≤ 28) : (setCapture i x s).filterHolds := by
  intro j c hj
  by_cases hij : i = j
  · subst hij
    exact hx c (by simpa [setCapture] using hj)
  · have hne : i.val ≠ j.val := fun e => hij (Fin.ext e)
    exact h j c (by simpa [setCapture, hne] using hj)

theorem filterHolds_congr {s t : State} (hpf : t.pf = s.pf) (h : s.filterHolds) : t.filterHolds := by
  simpa [State.filterHolds, hpf] using h

theorem raise_filterHolds (n : Notice) {s : State} (h : s.filterHolds) : (raise n s).filterHolds :=
  filterHolds_congr (by simp) h

/-- The entry that is hit is enabled, and the packet is short (R147). -/
theorem packetEvent_filterHolds (ptype version : Byte) (payload : List Byte) {s : State} (h : s.filterHolds) :
    (packetEvent ptype version payload s).filterHolds := by
  simp only [packetEvent]
  split
  · exact h
  next hlen =>
    split
    next i hhit =>
      have hon := ((FilterEntry.hits_iff _ _).mp ((s.pf.hit_eq_some_iff _ i).mp hhit).1).1
      have hshort : payload.length ≤ 28 := Nat.le_of_not_lt hlen
      simp only [capturePacket]
      repeat' split
      next c hc _ => exact filterHolds_setCapture h fun c' hc' => by cases hc'; exact ⟨hon, (h i c hc).2⟩
      · exact raise_filterHolds _ (filterHolds_setCapture h fun c' hc' => by cases hc'; exact ⟨hon, hshort⟩)
      · exact raise_filterHolds _ (filterHolds_setCapture h fun c' hc' => by cases hc'; exact ⟨hon, hshort⟩)
    next => exact h

theorem readCapture_filterHolds (r : Request) {s : State} (h : s.filterHolds) : (readCapture r s).filterHolds := by
  simp only [readCapture]
  split
  · exact h
  · refine filterHolds_congr rfl (filterHolds_setCapture h fun c hc => ?_)
    obtain ⟨c₀, hc₀, rfl⟩ := Option.map_eq_some_iff.mp hc
    exact h _ c₀ hc₀

theorem filterHolds_setEntry (i : Fin 4) (e : FilterEntry) {s : State} (h : s.filterHolds) :
    (s.setPf { entries := s.pf.entries.set i.val e i.isLt, captures := s.pf.captures.set i.val none i.isLt }).filterHolds := by
  intro j c hj
  by_cases hij : i = j
  · subst hij
    simp at hj
  · have hne : i.val ≠ j.val := fun e => hij (Fin.ext e)
    simpa [hne] using h j c (by simpa [hne] using hj)

/-- Set Filter clears the capture of the entry it writes (R150). -/
theorem setFilter_filterHolds (r : Request) {s : State} (h : s.filterHolds) : (setFilter r s).filterHolds := by
  simp only [setFilter]
  repeat' split
  · exact h
  · exact h
  · exact filterHolds_congr rfl (filterHolds_setEntry _ _ h)

theorem requestRule_filterHolds {c : Instr} {f : Request → State → State} (hf : requestRule c = some f) (r : Request)
    {s : State} (h : s.filterHolds) : (f r s).filterHolds := by
  cases c
  all_goals cases hf
  case setFilter =>
    obtain hc | hc | hc := sequenceCheck_cases setFilter r s
    · exact filterHolds_congr (by simp [hc]) h
    · exact filterHolds_congr (by simp [hc]) h
    · rw [hc]
      exact setFilter_filterHolds r h
  case readCapture => exact readCapture_filterHolds r h
  all_goals exact filterHolds_congr (by simp) h

theorem plainEffect_filterHolds {c : Instr} {f : State → State} (hf : plainEffect c = some f) {s : State}
    (h : s.filterHolds) : (f s).filterHolds := by
  cases c
  all_goals cases hf
  case powerOnReset =>
    intro i c hc
    have hnone : ∀ i : Fin 4, State.reset.pf.captures[i] = none := by decide
    exact absurd ((hnone i).symm.trans hc) nofun
  all_goals exact filterHolds_congr (by simp) h

theorem settledEffect_filterHolds {c : Instr} {f : State → State} (hf : settledEffect c = some f) {s : State}
    (h : s.filterHolds) : (f s).filterHolds := by
  cases c
  all_goals cases hf
  case packet a b p => exact packetEvent_filterHolds a b p h
  all_goals exact filterHolds_congr (by simp) h

theorem outcome_filterHolds {c : Instr} {s t : State} (hout : Outcome c s t) (h : s.filterHolds) : t.filterHolds := by
  cases hout with
  | none => exact h
  | plain _ hf => exact plainEffect_filterHolds hf h
  | settled _ hf => exact filterHolds_congr (by simp) (settledEffect_filterHolds hf h)
  | @request _ _ r _ hf => exact filterHolds_congr (by simp) (requestRule_filterHolds hf r (s := takeRequest s) h)
  | startDetached =>
    refine filterHolds_congr ?_ h
    split <;> simp
  | startUnarmed | startObserved | startTaken => exact filterHolds_congr (by simp) h

theorem step_filterHolds {s t : State} (h : step s = .next t) (hs : s.filterHolds) : t.filterHolds := by
  obtain rfl | ⟨c, rest, _, hout⟩ := step_outcome h
  · exact filterHolds_congr (by simp) hs
  · exact outcome_filterHolds hout hs

/-- HOLD is the view of both slots occupied (R165; Log 20). -/
theorem hold_iff (s : State) : s.hold = true ↔ s.ml.slots.length = 2 :=
  ⟨of_decide_eq_true, decide_eq_true⟩

/-- Settles O10: the four capacities one by one, the store and the link through the effects, the banks by O15's facts. -/
theorem capacitiesHold : Obligations.CapacitiesHold := fun _ t h =>
  ⟨step_kept wf_keeps h, step_banksHold h, fun hs => ⟨step_linkHolds h hs, hold_iff t⟩, step_filterHolds h⟩

end Sys2Proof.Machine
end

section
/-! Deferred replies (section 10.4): each record waits exactly while its operation is pending. The operations are made
pending and finished by other blocks, sometimes before the record is written, so the condition is stated on the link against
a given set of pending operations, and each update of the link says how that set changes. -/

namespace Sys2Proof.Machine

/-- The deferred-reply records wait exactly for the operations of `pend`, and the completed ones are in order, each once. -/
def MessageLink.awaits (m : MessageLink) (pend : DeferredKind → Bool) : Prop :=
  (∀ k, (∃ tag, m.deferred k = .waiting tag) ↔ pend k = true) ∧
    (∀ k, k ∈ m.doneOrder ↔ ∃ tag st, m.deferred k = .completed tag st) ∧ m.doneOrder.Nodup

/-- The pending operations, an application and a reset as given, the commit as the colour stage has it. -/
def State.pendingOps (s : State) (app reset : Bool) : DeferredKind → Bool
  | .profileApply => app
  | .lutCommit => s.cs.shadowPending
  | .pipelineReset => reset

theorem pendingOps_congr {s t : State} {app reset : Bool} (h : t.cs.shadowPending = s.cs.shadowPending) :
    t.pendingOps app reset = s.pendingOps app reset := by
  funext k
  cases k <;> simp [State.pendingOps, h]

theorem deferredHolds_iff (s : State) :
    s.deferredHolds ↔ s.ml.awaits (s.pendingOps s.otg.pendingApp s.otg.pendingReset) := by
  constructor
  · rintro ⟨happ, hlut, hreset, hdone, hnodup⟩
    refine ⟨fun k => ?_, hdone, hnodup⟩
    cases k
    · exact happ
    · exact hlut
    · exact hreset
  · rintro ⟨hwait, hdone, hnodup⟩
    exact ⟨hwait .profileApply, hwait .lutCommit, hwait .pipelineReset, hdone, hnodup⟩

theorem MessageLink.deferred_setDeferred_eq (m : MessageLink) (k : DeferredKind) (d : Deferred) :
    (m.setDeferred k d).deferred = Function.update m.deferred k d := by
  funext j
  cases k <;> cases j <;> rfl

theorem MessageLink.deferred_congr {m m' : MessageLink} (happ : m'.defProfile = m.defProfile)
    (hlut : m'.defLut = m.defLut) (hreset : m'.defReset = m.defReset) : m'.deferred = m.deferred := by
  funext k
  cases k
  · exact happ
  · exact hlut
  · exact hreset

/-- A link with these records and this order of completion. -/
theorem awaits_iff {m : MessageLink} {pend : DeferredKind → Bool} {rec : DeferredKind → Deferred}
    {order : List DeferredKind} (hrec : m.deferred = rec) (horder : m.doneOrder = order) :
    m.awaits pend ↔ (∀ k, (∃ tag, rec k = .waiting tag) ↔ pend k = true) ∧
      (∀ k, k ∈ order ↔ ∃ tag st, rec k = .completed tag st) ∧ order.Nodup := by
  subst hrec horder
  exact Iff.rfl

theorem awaits_congr {m m' : MessageLink} {pend : DeferredKind → Bool} (hdef : m'.deferred = m.deferred)
    (hdone : m'.doneOrder = m.doneOrder) (h : m.awaits pend) : m'.awaits pend := (awaits_iff hdef hdone).mpr h

/-- A waiting record is completed, the newest in the order (R167). -/
theorem completeDeferred_of_waiting {k : DeferredKind} {tag : Byte} {s : State} (st : Status)
    (h : s.ml.deferred k = .waiting tag) :
    (completeDeferred k st s).ml.deferred = Function.update s.ml.deferred k (.completed tag st) ∧
      (completeDeferred k st s).ml.doneOrder = s.ml.doneOrder ++ [k] := by
  simp only [completeDeferred, h]
  exact ⟨(MessageLink.deferred_congr rfl rfl rfl).trans (MessageLink.deferred_setDeferred_eq ..), rfl⟩

/-- A record that does not wait stays as it is (R167). -/
theorem completeDeferred_of_not_waiting {k : DeferredKind} {s : State} (st : Status)
    (h : ¬ ∃ tag, s.ml.deferred k = .waiting tag) : completeDeferred k st s = s := by
  simp only [completeDeferred]
  split
  next tag htag => exact absurd ⟨tag, htag⟩ h
  all_goals rfl

/-- The first completed reply enters a free entry and leaves its record empty (R166, R167). -/
theorem claimDeferred_of_free {k : DeferredKind} {rest : List DeferredKind} {tag : Byte} {st : Status} {s : State}
    (hfree : s.entryFree = true) (horder : s.ml.doneOrder = k :: rest) (hk : s.ml.deferred k = .completed tag st) :
    claimDeferred s =
      pushReply ⟨tag, st, 0, []⟩ (s.setMl { s.ml.setDeferred k .empty with doneOrder := rest }) := by
  simp only [claimDeferred, horder, hfree, hk, if_true]

/-- No reply is claimed while the queue is full (R167). -/
theorem claimDeferred_of_full {s : State} (hfull : s.entryFree = false) : claimDeferred s = s := by
  simp only [claimDeferred, hfull]
  split <;> rfl

/-- An operation finishes: its record, if it waited, is completed and joins the order; either way it waits no more. -/
theorem completeDeferred_awaits (k : DeferredKind) (st : Status) {s : State} {pend : DeferredKind → Bool}
    (h : s.ml.awaits pend) : (completeDeferred k st s).ml.awaits (Function.update pend k false) := by
  obtain ⟨hwait, hdone, hnodup⟩ := h
  by_cases hw : ∃ tag, s.ml.deferred k = .waiting tag
  · obtain ⟨tag, htag⟩ := hw
    obtain ⟨hrec, horder⟩ := completeDeferred_of_waiting st htag
    have hnew : k ∉ s.ml.doneOrder := by
      rw [hdone, htag]
      simp
    refine (awaits_iff hrec horder).mpr ⟨fun j => ?_, fun j => ?_, ?_⟩
    · by_cases hj : j = k
      · subst hj
        simp
      · rw [Function.update_of_ne hj, Function.update_of_ne hj]
        exact hwait j
    · by_cases hj : j = k
      · subst hj
        simp
      · rw [Function.update_of_ne hj, ← hdone j]
        simp [hj]
    · exact List.nodup_append.mpr ⟨hnodup, by simp, by simpa using fun a ha => ne_of_mem_of_not_mem ha hnew⟩
  · rw [completeDeferred_of_not_waiting st hw]
    refine ⟨fun j => ?_, hdone, hnodup⟩
    by_cases hj : j = k
    · subst hj
      simpa using hw
    · rw [Function.update_of_ne hj]
      exact hwait j

/-- An operation starts and its reply is deferred: its record, which was not completed, waits. -/
theorem deferReply_awaits (k : DeferredKind) (tag : Byte) {s : State} {pend : DeferredKind → Bool}
    (h : s.ml.awaits pend) (hnew : k ∉ s.ml.doneOrder) :
    (deferReply k tag s).ml.awaits (Function.update pend k true) := by
  obtain ⟨hwait, hdone, hnodup⟩ := h
  refine (awaits_iff (MessageLink.deferred_setDeferred_eq _ _ _) (by simp)).mpr ⟨fun j => ?_, fun j => ?_, hnodup⟩
  · by_cases hj : j = k
    · subst hj
      simp
    · rw [Function.update_of_ne hj, Function.update_of_ne hj]
      exact hwait j
  · by_cases hj : j = k
    · subst hj
      simpa using hnew
    · rw [Function.update_of_ne hj]
      exact hdone j

theorem claimDeferred_awaits {s : State} {pend : DeferredKind → Bool} (h : s.ml.awaits pend) :
    (claimDeferred s).ml.awaits pend := by
  cases hfree : s.entryFree with
  | false => rwa [claimDeferred_of_full hfree]
  | true =>
    cases horder : s.ml.doneOrder with
    | nil =>
      simp only [claimDeferred, horder]
      exact h
    | cons k rest =>
      obtain ⟨hwait, hdone, hnodup⟩ := h
      rw [horder] at hdone hnodup
      obtain ⟨hrest, hnodup⟩ := List.nodup_cons.mp hnodup
      obtain ⟨tag, st, hk⟩ := (hdone k).mp List.mem_cons_self
      have hidle : ¬ pend k = true := by
        rw [← hwait k, hk]
        simp
      have hrec : (claimDeferred s).ml.deferred = Function.update s.ml.deferred k .empty := by
        rw [claimDeferred_of_free hfree horder hk]
        exact (MessageLink.deferred_congr rfl rfl rfl).trans (MessageLink.deferred_setDeferred_eq ..)
      have horder' : (claimDeferred s).ml.doneOrder = rest := by
        rw [claimDeferred_of_free hfree horder hk]
        rfl
      refine (awaits_iff hrec horder').mpr ⟨fun j => ?_, fun j => ?_, hnodup⟩
      · by_cases hj : j = k
        · subst hj
          simpa using hidle
        · rw [Function.update_of_ne hj]
          exact hwait j
      · by_cases hj : j = k
        · subst hj
          simpa using hrest
        · rw [Function.update_of_ne hj, ← hdone j]
          simp [hj]

@[simp] theorem chooseMessage_deferred (s : State) :
    (chooseMessage s).ml.deferred = s.ml.deferred ∧ (chooseMessage s).ml.doneOrder = s.ml.doneOrder := by
  simp only [chooseMessage]
  repeat' split
  all_goals exact ⟨rfl, rfl⟩

theorem settle_awaits {s : State} {pend : DeferredKind → Bool} (h : s.ml.awaits pend) : (settle s).ml.awaits pend :=
  awaits_congr (chooseMessage_deferred _).1 (chooseMessage_deferred _).2
    (claimDeferred_awaits (claimDeferred_awaits (claimDeferred_awaits h)))

@[simp] theorem raise_deferred (n : Notice) (s : State) :
    (raise n s).ml.deferred = s.ml.deferred ∧ (raise n s).ml.doneOrder = s.ml.doneOrder := by
  simp only [raise]
  split <;> exact ⟨rfl, rfl⟩

theorem raise_cs (n : Notice) (s : State) : (raise n s).cs = s.cs := by simp

theorem bankExchange_awaits {s : State} {app reset : Bool} (h : s.ml.awaits (s.pendingOps app reset)) :
    (bankExchange s).ml.awaits ((bankExchange s).pendingOps app reset) := by
  simp only [bankExchange]
  split
  · have hops : (completeDeferred .lutCommit .ok (s.setCs s.cs.exchanged)).pendingOps app reset =
        Function.update (s.pendingOps app reset) .lutCommit false := by
      funext k
      cases k <;> simp [State.pendingOps, ColourStage.exchanged]
    rw [hops]
    exact completeDeferred_awaits _ _ h
  · exact h

/-- The shared operations keep the condition, whatever application and reset are pending. -/
theorem Moved.awaits {s t : State} {app reset : Bool} (h : Moved s t) (hs : s.ml.awaits (s.pendingOps app reset)) :
    t.ml.awaits (t.pendingOps app reset) := by
  induction h with
  | refl => exact hs
  | bankExchange _ ih => exact bankExchange_awaits ih
  | raise n _ ih =>
    rw [pendingOps_congr (congrArg ColourStage.shadowPending (raise_cs n _))]
    exact awaits_congr (raise_deferred n _).1 (raise_deferred n _).2 ih
  | _ => assumption

theorem pendingOps_update_app (s : State) (app reset : Bool) (b : Bool) :
    Function.update (s.pendingOps app reset) .profileApply b = s.pendingOps b reset := by
  funext k
  cases k <;> simp [State.pendingOps]

theorem pendingOps_update_reset (s : State) (app reset : Bool) (b : Bool) :
    Function.update (s.pendingOps app reset) .pipelineReset b = s.pendingOps app b := by
  funext k
  cases k <;> simp [State.pendingOps]

theorem pendingOps_update_lut (s : State) {t : State} (app reset : Bool) :
    Function.update (s.pendingOps app reset) .lutCommit t.cs.shadowPending = t.pendingOps app reset := by
  funext k
  cases k <;> simp [State.pendingOps]

/-- The reply of an operation completes once the operation is no longer pending. -/
theorem completeDeferred_app_awaits (st : Status) {s : State} {app reset : Bool}
    (h : s.ml.awaits (s.pendingOps app reset)) :
    (completeDeferred .profileApply st s).ml.awaits ((completeDeferred .profileApply st s).pendingOps false reset) := by
  rw [pendingOps_congr (s := s) (by simp), ← pendingOps_update_app s app]
  exact completeDeferred_awaits _ _ h

theorem completeDeferred_reset_awaits (st : Status) {s : State} {app reset : Bool}
    (h : s.ml.awaits (s.pendingOps app reset)) :
    (completeDeferred .pipelineReset st s).ml.awaits ((completeDeferred .pipelineReset st s).pendingOps app false) := by
  rw [pendingOps_congr (s := s) (by simp), ← pendingOps_update_reset s app reset]
  exact completeDeferred_awaits _ _ h

theorem completeDeferred_lut_awaits (st : Status) {s : State} {app reset : Bool} {c : ColourStage}
    (h : s.ml.awaits (s.pendingOps app reset)) (hc : c.shadowPending = false) :
    (completeDeferred .lutCommit st (s.setCs c)).ml.awaits
      ((completeDeferred .lutCommit st (s.setCs c)).pendingOps app reset) := by
  rw [← pendingOps_update_lut s (t := completeDeferred .lutCommit st (s.setCs c)) app reset]
  simpa [hc] using completeDeferred_awaits .lutCommit st (s := s.setCs c) h

theorem applyProfile_deferredHolds {s : State} (h : s.deferredHolds) : (applyProfile s).deferredHolds := by
  obtain happly | ⟨u, hu, happly⟩ := applyProfile_moved_upTo s
  · rwa [happly]
  · have hreset : (applyProfile s).otg.pendingReset = s.otg.pendingReset := by simp
    rw [deferredHolds_iff, hreset, happly]
    simpa using completeDeferred_app_awaits .ok (s := u.setOtg { u.otg with pendingApp := false })
      (hu.awaits ((deferredHolds_iff s).mp h))

/-- The reset point finishes a reset, whether the generator holds it pending or the request takes it at once. -/
theorem resetPoint_deferredHolds {s : State} {reset : Bool} (h : s.ml.awaits (s.pendingOps s.otg.pendingApp reset)) :
    (resetPoint s).deferredHolds := by
  obtain ⟨u, hu, hreset⟩ := resetPoint_moved_upTo s
  have happ : (resetPoint s).otg.pendingApp = s.otg.pendingApp := by simp
  rw [deferredHolds_iff, happ, hreset]
  simpa using completeDeferred_reset_awaits .ok (s := u.setOtg { u.otg with pendingReset := false }) (hu.awaits h)

theorem Moved.pendings {s t : State} (h : Moved s t) :
    t.otg.pendingApp = s.otg.pendingApp ∧ t.otg.pendingReset = s.otg.pendingReset := by
  induction h with
  | refl => exact ⟨rfl, rfl⟩
  | setOtg x happ hreset _ ih => exact ⟨happ.trans ih.1, hreset.trans ih.2⟩
  | _ => simpa

theorem Moved.deferredHolds {s t : State} (h : Moved s t) (hs : s.deferredHolds) : t.deferredHolds := by
  rw [deferredHolds_iff, h.pendings.1, h.pendings.2]
  exact h.awaits ((deferredHolds_iff s).mp hs)

/-- What the condition reads of the whole state. -/
theorem deferredHolds_congr {s t : State} (hdef : t.ml.deferred = s.ml.deferred)
    (hdone : t.ml.doneOrder = s.ml.doneOrder) (hlut : t.cs.shadowPending = s.cs.shadowPending)
    (happ : t.otg.pendingApp = s.otg.pendingApp) (hreset : t.otg.pendingReset = s.otg.pendingReset)
    (h : s.deferredHolds) : t.deferredHolds := by
  rw [deferredHolds_iff, happ, hreset, pendingOps_congr hlut]
  exact awaits_congr hdef hdone ((deferredHolds_iff s).mp h)

theorem settle_deferredHolds {s : State} (h : s.deferredHolds) : (settle s).deferredHolds := by
  have hlut : (settle s).cs.shadowPending = s.cs.shadowPending := by simp
  rw [deferredHolds_iff, pendingOps_congr hlut]
  simpa using settle_awaits ((deferredHolds_iff s).mp h)

theorem claimDeferred_deferredHolds {s : State} (h : s.deferredHolds) : (claimDeferred s).deferredHolds := by
  have hlut : (claimDeferred s).cs.shadowPending = s.cs.shadowPending := by simp
  rw [deferredHolds_iff, pendingOps_congr hlut]
  simpa using claimDeferred_awaits ((deferredHolds_iff s).mp h)

theorem endScan_deferredHolds {s : State} (h : s.deferredHolds) : (endScan s).deferredHolds := by
  have hpool : (scanEndPool (closeWatch (s.setOtg { s.otg with nextStrip := s.prof.strips }))).deferredHolds :=
    (scanEndPool_moved .refl).deferredHolds (deferredHolds_congr rfl rfl rfl rfl rfl h)
  simp only [endScan]
  repeat' split
  · exact applyProfile_deferredHolds (resetPoint_deferredHolds ((deferredHolds_iff _).mp hpool))
  · exact resetPoint_deferredHolds ((deferredHolds_iff _).mp hpool)
  · exact applyProfile_deferredHolds hpool
  · exact hpool
  · exact (leaveScan_moved .refl).deferredHolds hpool

theorem confirmProfile_deferredHolds (r : Request) {s : State} (h : s.deferredHolds) (hdone : s.ml.doneOrder = []) :
    (confirmProfile r s).deferredHolds := by
  have hdefer := deferReply_awaits .profileApply r.tag (s := s.setPc { s.pc with propState := .confirmed })
    ((deferredHolds_iff s).mp h) (by simp [hdone])
  rw [pendingOps_update_app] at hdefer
  have hwaits (u : State)
      (hu : u = (deferReply .profileApply r.tag (s.setPc { s.pc with propState := .confirmed })).setOtg
        { s.otg with pendingApp := true }) : u.deferredHolds := by
    subst hu
    exact (deferredHolds_iff _).mpr hdefer
  simp only [confirmProfile]
  repeat' split
  · exact hwaits _ (by simp)
  · exact applyProfile_deferredHolds (hwaits _ (by simp))
  · exact h


/-- A pending application is aborted, with its reply (R87). -/
def abortApplication (s : State) : State :=
  if s.otg.pendingApp then
    completeDeferred .profileApply .aborted
      ((s.setOtg { s.otg with pendingApp := false }).setPc { s.pc with propState := .none, proposal := none })
  else s

theorem acceptReset_eq (s : State) :
    acceptReset s =
      if (cancelCommit (abortApplication s)).pc.propState = .held then
        (cancelCommit (abortApplication s)).setPc
          { (cancelCommit (abortApplication s)).pc with propState := .none, proposal := none }
      else cancelCommit (abortApplication s) := rfl

theorem abortApplication_deferredHolds {s : State} (h : s.deferredHolds) : (abortApplication s).deferredHolds := by
  simp only [abortApplication]
  split
  · rw [deferredHolds_iff]
    simpa using completeDeferred_app_awaits .aborted
      (s := (s.setOtg { s.otg with pendingApp := false }).setPc { s.pc with propState := .none, proposal := none })
      ((deferredHolds_iff s).mp h)
  · exact h

theorem cancelCommit_deferredHolds {s : State} (h : s.deferredHolds) : (cancelCommit s).deferredHolds := by
  simp only [cancelCommit]
  split
  · rw [deferredHolds_iff]
    simpa using completeDeferred_lut_awaits .aborted (c := { s.cs with shadowPending := false })
      ((deferredHolds_iff s).mp h) rfl
  · exact h

theorem acceptReset_deferredHolds {s : State} (h : s.deferredHolds) : (acceptReset s).deferredHolds := by
  have hcancel := cancelCommit_deferredHolds (abortApplication_deferredHolds h)
  rw [acceptReset_eq]
  split
  · exact hcancel
  · exact hcancel

/-- The acceptance of a reset completes no reply of a reset (R87). -/
theorem acceptReset_done {s : State} (h : .pipelineReset ∉ s.ml.doneOrder) :
    .pipelineReset ∉ (acceptReset s).ml.doneOrder := by
  have hcomplete {k : DeferredKind} (st : Status) {u : State} (hk : k ≠ .pipelineReset)
      (hu : .pipelineReset ∉ u.ml.doneOrder) : .pipelineReset ∉ (completeDeferred k st u).ml.doneOrder := by
    by_cases hw : ∃ tag, u.ml.deferred k = .waiting tag
    · obtain ⟨tag, htag⟩ := hw
      rw [(completeDeferred_of_waiting st htag).2]
      simpa [hu] using hk.symm
    · rwa [completeDeferred_of_not_waiting st hw]
  have habort : .pipelineReset ∉ (abortApplication s).ml.doneOrder := by
    simp only [abortApplication]
    split
    · exact hcomplete _ nofun h
    · exact h
  have hcancel : .pipelineReset ∉ (cancelCommit (abortApplication s)).ml.doneOrder := by
    simp only [cancelCommit]
    split
    · exact hcomplete _ nofun habort
    · exact habort
  rw [acceptReset_eq]
  split
  · exact hcancel
  · exact hcancel

theorem pipelineReset_deferredHolds (r : Request) {s : State} (h : s.deferredHolds) (hdone : s.ml.doneOrder = []) :
    (pipelineReset r s).deferredHolds := by
  have hdefer := deferReply_awaits .pipelineReset r.tag ((deferredHolds_iff _).mp (acceptReset_deferredHolds h))
    (acceptReset_done (by simp [hdone]))
  rw [pendingOps_update_reset] at hdefer
  simp only [pipelineReset]
  repeat' split
  · exact h
  · exact h
  · exact (deferredHolds_iff _).mpr hdefer
  · exact resetPoint_deferredHolds (s := deferReply .pipelineReset r.tag (acceptReset s)) hdefer

theorem lutCommit_deferredHolds (r : Request) {s : State} (h : s.deferredHolds) (hdone : s.ml.doneOrder = []) :
    (lutCommit r s).deferredHolds := by
  simp only [lutCommit]
  repeat' split
  · exact h
  next hidle _ => exact deferredHolds_congr (s := s) rfl rfl (by simp [ColourStage.exchanged, hidle]) rfl rfl h
  next =>
    have hdefer := deferReply_awaits .lutCommit r.tag (s := s.setCs { s.cs with shadowPending := true })
      ((deferredHolds_iff s).mp h) (by simp [hdone])
    rw [deferredHolds_iff]
    have hops := pendingOps_update_lut s
      (t := deferReply .lutCommit r.tag (s.setCs { s.cs with shadowPending := true })) s.otg.pendingApp
      s.otg.pendingReset
    simpa [← hops] using hdefer

theorem sequenceCheck_deferredHolds {f : Request → State → State} {r : Request} {s : State} (h : s.deferredHolds)
    (hf : (f r s).deferredHolds) : (sequenceCheck f r s).deferredHolds := by
  obtain hc | hc | hc := sequenceCheck_cases f r s
  · rw [hc]
    exact h
  · rw [hc]
    exact h
  · rwa [hc]

theorem requestRule_deferredHolds {c : Instr} {f : Request → State → State} (hf : requestRule c = some f) (r : Request)
    {s : State} (h : s.deferredHolds) (hdone : s.ml.doneOrder = []) : (f r s).deferredHolds := by
  cases c
  all_goals cases hf
  case confirmProfile => exact confirmProfile_deferredHolds r h hdone
  case pipelineReset => exact pipelineReset_deferredHolds r h hdone
  case lutCommit => exact sequenceCheck_deferredHolds h (lutCommit_deferredHolds r h hdone)
  case getIdentity | getStatus | clearFault => exact h
  case reattachSource =>
    have hmoved : Moved s (setCond s.sp.cond.passedOver (reattach s)) := setCond_moved _ (reattach_moved .refl)
    simp only [reattachSource]
    split
    · exact hmoved.deferredHolds h
    · exact h
  case setPanelLimits | proposeProfile | tuneProfile | lutWrite | setFilter =>
    refine sequenceCheck_deferredHolds h ?_
    simp only [setPanelLimits, proposeProfile, tuneProfile, lutWrite, setFilter]
    repeat' split
    all_goals exact h
  case requestRefused | setNotices | withdrawProfile | getProfile | lutRead | readCapture | readHistory =>
    simp only [refuseRequest, setNotices, withdrawProfile, getProfile, lutRead, readCapture, readHistory]
    repeat' split
    all_goals exact h

theorem handOver_deferredHolds (r : Request) {s : State} (h : s.deferredHolds) : (handOver r s).deferredHolds := by
  simp only [handOver]
  split
  · exact h
  · exact h

theorem gapEnds_deferredHolds {s : State} (h : s.deferredHolds) : (gapEnds s).deferredHolds := by
  simp only [gapEnds]
  repeat' split
  case h_1.isTrue | h_2.isTrue => exact handOver_deferredHolds _ h
  all_goals exact h

theorem gapFirst_deferredHolds {s : State} (h : s.deferredHolds) : (gapFirst s).deferredHolds := by
  simp only [gapFirst]
  split
  · exact gapEnds_deferredHolds h
  · exact h

theorem takeByte_deferredHolds (b : Byte) {s : State} (h : s.deferredHolds) : (takeByte b s).deferredHolds := by
  simp only [takeByte, headerByte, payloadByte]
  repeat' split
  case h_2.isFalse.isTrue | h_2.isFalse.isFalse.isTrue | h_3.isFalse => exact handOver_deferredHolds _ h
  all_goals exact h

theorem chooseMessage_deferredHolds {s : State} (h : s.deferredHolds) : (chooseMessage s).deferredHolds :=
  deferredHolds_congr (chooseMessage_deferred s).1 (chooseMessage_deferred s).2 (by simp) (by simp) (by simp) h

theorem reset_deferredHolds : State.reset.deferredHolds := by
  refine (deferredHolds_iff _).mpr ⟨fun k => ?_, fun k => ?_, List.nodup_nil⟩
  · cases k <;> exact ⟨nofun, nofun⟩
  · cases k <;> exact ⟨nofun, nofun⟩

theorem plainEffect_deferredHolds {c : Instr} {f : State → State} (hf : plainEffect c = some f) {s : State}
    (h : s.deferredHolds) : (f s).deferredHolds := by
  cases c
  all_goals cases hf
  case powerOnReset => exact reset_deferredHolds
  case resetNRelease | signalRestored => exact h
  case breakEvent => exact gapFirst_deferredHolds h
  case messageReceived b | byteReceived b => exact takeByte_deferredHolds b (gapFirst_deferredHolds h)
  case replySent | noticeSent => exact chooseMessage_deferredHolds h

theorem packetEvent_deferredHolds (ptype version : Byte) (payload : List Byte) {s : State} (h : s.deferredHolds) :
    (packetEvent ptype version payload s).deferredHolds := by
  simp only [packetEvent, capturePacket]
  repeat' split
  · exact h
  · exact h
  · exact (raise_moved _ .refl).deferredHolds h
  · exact (raise_moved _ .refl).deferredHolds h
  · exact h

theorem overrunReplies_deferredHolds {s : State} (h : s.deferredHolds) : (overrunReplies s).deferredHolds := by
  simp only [overrunReplies]
  split
  · exact h
  · exact h

theorem settledEffect_deferredHolds {c : Instr} {f : State → State} (hf : settledEffect c = some f) {s : State}
    (h : s.deferredHolds) : (f s).deferredHolds := by
  cases c
  all_goals cases hf
  case line e p => exact (lineEvent_moved e p .refl).deferredHolds h
  case frameEnd => exact (frameEndEvent_moved .refl).deferredHolds h
  case packet a b p => exact packetEvent_deferredHolds a b p h
  case signalLost => exact (signalLostEvent_moved .refl).deferredHolds h
  case tminExpiry => exact (tminExpired_moved .refl).deferredHolds h
  case repeatTimerExpiry => exact (repeatExpired_moved .refl).deferredHolds h
  case fixedTimerExpiry => exact (fixedExpired_moved .refl).deferredHolds h
  case stripRead => exact (readStrip_moved _ .refl).deferredHolds h
  case scanEnd => exact endScan_deferredHolds h
  case gapEvent => exact gapEnds_deferredHolds h
  case overrunReply => exact overrunReplies_deferredHolds h
  case deferredReply => exact claimDeferred_deferredHolds h

theorem outcome_deferredHolds {c : Instr} {s t : State} (hout : Outcome c s t) (h : s.deferredHolds) :
    t.deferredHolds := by
  cases hout with
  | none => exact h
  | plain _ hf => exact plainEffect_deferredHolds hf h
  | settled _ hf => exact settle_deferredHolds (settledEffect_deferredHolds hf h)
  | @request _ _ r _ hf hg =>
    exact settle_deferredHolds (requestRule_deferredHolds hf r (s := takeRequest s) h (granted_room hg).2)
  | startUnarmed => exact h
  | startDetached =>
    split
    · exact h
    · exact h
  | startObserved => exact settle_deferredHolds ((observeFrame_moved (closeByStart_moved .refl)).deferredHolds h)
  | startTaken _ k =>
    obtain ⟨u, v, hu, rfl, hv⟩ := takeFrame_moved_upTo k (closeByStart s)
    exact settle_deferredHolds (hv.deferredHolds (hu.deferredHolds ((closeByStart_moved .refl).deferredHolds h)))

/-- Settles O11: an idle step writes no record, and every effect keeps the records matched to what is pending. -/
theorem deferredRepliesAreKept : Obligations.DeferredRepliesAreKept := by
  intro s t hs h
  obtain rfl | ⟨c, rest, _, hout⟩ := step_outcome h
  · exact deferredHolds_congr (by simp) (by simp) (by simp) (by simp) (by simp) hs
  · exact outcome_deferredHolds hout hs

end Sys2Proof.Machine
end

section
/-! The queue, the reset input and commands without effect (the model's form of time, chapter 3 and section 10.1). -/

namespace Sys2Proof.Machine

/-- Settles O1, by the definition of a step. -/
theorem stepRunsFront : Obligations.StepRunsFront := fun _ _ _ => rfl

/-- An empty queue leaves the step to what the part does of its own. -/
theorem step_of_idle {s : State} (h : s.pending = []) : step s = .next (idleStep s) := by
  simp only [step, h]

theorem dueEvents_of_reset {s : State} (h : s.resetAsserted = true) : dueEvents s = [] := if_pos h

theorem idleStep_of_none {s : State} (h : dueEvents s = []) : idleStep s = tick s := by
  simp only [idleStep, h]

/-- One of the due events enters the queue; the count of free choices may rise. -/
theorem idleStep_of_due {s : State} (h : dueEvents s ≠ []) :
    ∃ c ∈ dueEvents s, ∃ n, idleStep s = { s with pending := [c], choices := n } := by
  unfold idleStep
  split
  next hnone => exact absurd hnone h
  next c hone => exact ⟨c, by simp [hone], s.choices, rfl⟩
  next c c' cs hmany =>
    have hlt : Config.dueChoice s.choices % (c :: c' :: cs).length < (c :: c' :: cs).length :=
      Nat.mod_lt _ (by simp)
    refine ⟨_, ?_, s.choices + 1, rfl⟩
    rw [hmany, List.getD_eq_getElem _ _ hlt]
    exact List.getElem_mem hlt

/-- Settles O2, by the events that are due. -/
theorem idleStep_outcome : Obligations.IdleStep := by
  intro s hq
  rw [step_of_idle hq]
  refine ⟨fun hreset => ?_, fun hrun hnone => ?_, fun hdue => ?_⟩
  · rw [idleStep_of_none (dueEvents_of_reset hreset), tick, if_pos hreset]
  · rw [idleStep_of_none hnone, tick, if_neg (Bool.eq_false_iff.mp hrun)]
    rfl
  · obtain ⟨c, hc, n, hstep⟩ := idleStep_of_due hdue
    exact ⟨c, hc, n, by rw [hstep]⟩

/-- The identity table holds min(4095, 16 i) at place i (R119). -/
theorem identityBank_getElem? {i : Nat} (h : i < 257) :
    identityBank[i]? = some ⟨BitVec.ofNat 12 (min 4095 (16 * i)), BitVec.ofNat 12 (min 4095 (16 * i)),
      BitVec.ofNat 12 (min 4095 (16 * i))⟩ := by
  simp [identityBank, bankSize, h]

/-- Settles O3: the reset state is written out, and each item of the power-on columns is read off it. -/
theorem powerOnAndRelease : Obligations.PowerOnAndRelease := by
  refine ⟨fun s => ⟨rfl, rfl⟩, rfl, by decide, by decide, by decide, by decide, by decide, by decide, ?_, by decide, by decide,
    rfl, by decide⟩
  refine ⟨rfl, rfl, rfl, by simp [State.reset, ColourStage.powerOn, identityBank, bankSize], fun i hi => ?_⟩
  refine ⟨BitVec.ofNat 12 (min 4095 (16 * i)), ?_, identityBank_getElem? hi⟩
  rw [BitVec.toNat_ofNat]
  omega

theorem whileRunning_of_reset {f : State → Result} {s : State} (h : s.resetAsserted = true) :
    whileRunning f s = .next s := by
  rw [whileRunning_eq, if_pos h]

theorem whenDue_of_reset {due : State → Bool} {f : State → State} {s : State} (h : s.resetAsserted = true) :
    whenDue due f s = .next s := by
  rw [whenDue, if_pos h]

theorem execRequest_of_reset {type : Nat} {f : Request → State → State} {s : State} (h : s.resetAsserted = true) :
    execRequest type f s = .next s := whenDue_of_reset h

/-- A command that the receiver cannot deliver is refused (R26; Log 8). -/
theorem exec_of_ill_formed {c : Instr} {s : State} (h : c.wellFormed = false) : exec c s = .refused .illFormed := by
  cases c
  case line e p => simp only [exec, execLine, show lineOk p = false from h, Bool.false_eq_true, if_false]
  case packet a b p => simp only [exec, execPacket, show packetOk p = false from h, Bool.false_eq_true, if_false]
  all_goals exact absurd h nofun

/-- While RESET_N is asserted, only the reset input acts (R161; Log 5). -/
theorem exec_of_reset {c : Instr} {s : State} (hok : c.wellFormed = true) (h : s.resetAsserted = true)
    (hpower : c ≠ .powerOnReset) (hrelease : c ≠ .resetNRelease) : exec c s = .next s := by
  cases c
  case powerOnReset => exact absurd rfl hpower
  case resetNRelease => exact absurd rfl hrelease
  case line e p =>
    simp only [exec, execLine, show lineOk p = true from hok, if_true]
    exact whileRunning_of_reset h
  case packet a b p =>
    simp only [exec, execPacket, show packetOk p = true from hok, if_true]
    exact whileRunning_of_reset h
  case replySent | noticeSent => exact if_pos h
  case frameStart | frameEnd | signalLost | signalRestored | breakEvent | messageReceived | byteReceived =>
    simp only [exec, execFrameStart, execFrameEnd, execSignalLost, execSignalRestored, execBreak, execMessageReceived,
      execByteReceived, whileRunning_of_reset h]
  case tminExpiry | repeatTimerExpiry | fixedTimerExpiry | stripRead | scanEnd | gapEvent | overrunReply
      | deferredReply | requestRefused =>
    exact whenDue_of_reset h
  all_goals exact execRequest_of_reset h

/-- A row that the granted request does not name is not its execution (R166; Log 3). -/
theorem execRequest_of_other_row {type : Nat} {f : Request → State → State} {s : State} {c : Instr}
    (h : ∀ r, s.granted = some r → requestRow r ≠ c) (hrow : ∀ r : Request, r.reaches type = true → requestRow r = c) :
    execRequest type f s = .next s := by
  refine whenDue_of_not_due ?_
  simp only [State.executes]
  split
  next r hg => exact Bool.eq_false_iff.mpr fun hreach => h r hg (hrow r hreach)
  next => rfl

theorem reaches_iff {type : Nat} {r : Request} : r.reaches type = true ↔ r.type.toNat = type ∧ r.refusal = none := by
  simp [Request.reaches]

theorem exec_of_other_row {c : Instr} {s : State} (hc : c ∈ requestRows)
    (h : ∀ r, s.granted = some r → requestRow r ≠ c) : exec c s = .next s := by
  simp only [requestRows, List.mem_cons, List.not_mem_nil, or_false] at hc
  obtain rfl | hc := hc
  · refine whenDue_of_not_due ?_
    simp only [refusedDue]
    split
    next r hg => exact Bool.eq_false_iff.mpr fun hrefused => h r hg (if_pos hrefused)
    next => rfl
  · rcases hc with rfl | rfl | rfl | rfl | rfl | rfl | rfl | rfl | rfl | rfl | rfl | rfl | rfl | rfl | rfl | rfl | rfl | rfl
    all_goals
      refine execRequest_of_other_row h fun r hr => ?_
      obtain ⟨htype, hrefusal⟩ := reaches_iff.mp hr
      simp [requestRow, htype, hrefusal]

theorem replySent_of_not_due {s : State} (h : replySentDue s = false) : exec .replySent s = .next s := by
  simp [exec, execReplySent, h]

theorem noticeSent_of_not_due {s : State} (h : noticeSentDue s = false) : exec .noticeSent s = .next s := by
  simp [exec, execNoticeSent, h]

/-- Settles O4: each guard of a command, when it does not hold. -/
theorem commandsWithoutEffect : Obligations.CommandsWithoutEffect :=
  ⟨fun _ _ => ⟨exec_of_ill_formed, exec_of_reset⟩, fun _ =>
    ⟨whenDue_of_not_due, whenDue_of_not_due, whenDue_of_not_due, whenDue_of_not_due, whenDue_of_not_due,
      whenDue_of_not_due, whenDue_of_not_due, whenDue_of_not_due, replySent_of_not_due, noticeSent_of_not_due,
      fun _ => exec_of_other_row⟩⟩

theorem reset_poolHolds : State.reset.poolHolds := by
  refine ⟨⟨by decide, by decide, nofun, nofun, nofun, by decide⟩, fun _ => ⟨rfl, rfl⟩⟩

theorem reset_filterHolds : State.reset.filterHolds := by
  intro i c hc
  have hnone : ∀ i : Fin 4, State.reset.pf.captures[i] = none := by decide
  exact absurd ((hnone i).symm.trans hc) nofun

theorem reset_profileHolds : State.reset.profileHolds := by
  refine ⟨by decide, nofun, nofun, by decide, by decide, by decide, by decide, by decide, by decide⟩

/-- Settles O5: each standing condition at the reset state. -/
theorem resetIsSound : Obligations.ResetIsSound := by
  refine ⟨rfl, ringHolds_of_nil rfl, reset_profileHolds, ⟨nofun, nofun⟩, nofun, reset_poolHolds, rfl, reset_banksHold,
    reset_linkHolds, reset_filterHolds, reset_deferredHolds, ?_, ?_, nofun⟩
  · exact ⟨by decide, by decide, rfl, rfl, rfl, rfl, rfl, rfl, rfl, rfl⟩
  · exact fun h => absurd rfl h

end Sys2Proof.Machine
end

section
/-! Requests, each outcome by the branches of its rule in a state whose request has left its slot (chapters 2, 6, 7, 8
and 10). -/

namespace Sys2Proof.Machine

/-- A configuration request that is served and passes the sequence check runs its own rule. -/
theorem execRequest_of_passes {type : Nat} {f : Request → State → State} {s : State} {r : Request}
    (h : s.serves type r) (hpass : s.passesCheck) :
    execRequest type (sequenceCheck f) s = .next (settle (f r (takeRequest s))) := by
  rw [execRequest_of_serves h, sequenceCheck_of_passesCheck (takeRequest_passesCheck hpass)]

theorem firstFailure_cons (c : FieldCheck) (cs : List FieldCheck) :
    firstFailure (c :: cs) = if c.passes = true then firstFailure cs else some c := by
  simp only [firstFailure, List.find?_cons]
  cases c.passes <;> rfl

theorem firstFailure_nil : firstFailure [] = none := rfl

/-- What a validation leads to: the first check that fails, or all passed. -/
def onFailure {α : Type} (cs : List FieldCheck) (bad : FieldCheck → α) (good : α) : α :=
  match firstFailure cs with
  | some c => bad c
  | none => good

theorem onFailure_nil {α : Type} (bad : FieldCheck → α) (good : α) : onFailure [] bad good = good := rfl

theorem onFailure_cons {α : Type} (c : FieldCheck) (cs : List FieldCheck) (bad : FieldCheck → α) (good : α) :
    onFailure (c :: cs) bad good = if c.passes = true then onFailure cs bad good else bad c := by
  by_cases h : c.passes = true <;> simp [onFailure, firstFailure_cons, h]

theorem within_iff {lo hi x : Nat} : within lo hi x = true ↔ lo ≤ x ∧ x ≤ hi := by
  simp [within]

theorem blankMin_iff {l : Limits} :
    (within 0 maxTicks l.blankMin && decide (l.scanMin + l.blankMin ≤ l.tmaxAbs)) = true ↔
      l.blankMin ≤ 10000000 ∧ l.scanMin + l.blankMin ≤ l.tmaxAbs := by
  rw [Bool.and_eq_true, within_iff, decide_eq_true_iff, maxTicks]
  simp

/-- The checks of Set Panel Limits in field order (R128, R129). -/
theorem setPanelLimits_eq (r : Request) (s : State) :
    setPanelLimits r s =
      let l := readLimits r.payload
      if s.pc.limits.isSome then answer r .locked s
      else if ¬ (208333 ≤ l.tminAbs ∧ l.tminAbs ≤ 10000000) then answerField r .badField 1 s
      else if ¬ (l.tminAbs ≤ l.tmaxAbs ∧ l.tmaxAbs ≤ 10000000) then answerField r .badField 2 s
      else if ¬ (1 ≤ l.scanMin ∧ l.scanMin ≤ 10000000) then answerField r .badField 3 s
      else if ¬ (l.blankMin ≤ 10000000 ∧ l.scanMin + l.blankMin ≤ l.tmaxAbs) then answerField r .badField 4 s
      else answer r .ok (s.setPc { s.pc with limits := some l }) := by
  have hchecks : setPanelLimits r s =
      if s.pc.limits.isSome then answer r .locked s
      else onFailure (limitsChecks (readLimits r.payload)) (fun c => answerField r c.status c.field s)
        (answer r .ok (s.setPc { s.pc with limits := some (readLimits r.payload) })) := rfl
  simp only [hchecks, limitsChecks, onFailure_cons, onFailure_nil, blankMin_iff, ite_not]
  simp only [within_iff, minTminAbs, maxTicks]

/-- Settles O22: the checks of `setPanelLimits_eq`, each branch one answer. -/
theorem setPanelLimitsAnswers : Obligations.SetPanelLimitsAnswers := by
  intro s r hserves hpass
  have hexec : exec .setPanelLimits s = .next (settle (setPanelLimits r (takeRequest s))) :=
    execRequest_of_passes hserves hpass
  rw [hexec, setPanelLimits_eq]
  rfl

/-- Settles O25, by the proposal state. -/
theorem confirmProfileDefers : Obligations.ConfirmProfileDefers := by
  intro s r hserves
  have hexec : exec .confirmProfile s = .next (settle (confirmProfile r (takeRequest s))) :=
    execRequest_of_serves hserves
  rw [hexec]
  refine ⟨fun hnot => ?_, fun hheld hscan => ?_⟩
  · rw [confirmProfile, if_neg (show (takeRequest s).pc.propState ≠ .held from hnot), answer, pushReply_takeRequest]
  · rw [confirmProfile, if_pos (show (takeRequest s).pc.propState = .held from hheld)]
    dsimp only
    rw [if_pos (by simpa using hscan)]
    rfl

/-- Settles O31: a pending commit, the exchange in IDLE, and the deferred one. -/
theorem lutCommitAnswers : Obligations.LutCommitAnswers := by
  intro s r hserves hpass
  have hexec : exec .lutCommit s = .next (settle (lutCommit r (takeRequest s))) := execRequest_of_passes hserves hpass
  rw [hexec, lutCommit]
  refine ⟨fun hpending => ?_, fun hfree hidle => ?_, fun hfree hidle => ?_⟩
  · rw [if_pos (by simpa using hpending), answer, pushReply_takeRequest]
  · rw [if_neg (by simp [hfree]), if_pos (by simpa using hidle)]
    simp only [ColourStage.exchanged, takeRequest_frame, ← hfree]
    rfl
  · rw [if_neg (by simp [hfree]), if_neg (by simpa using hidle)]
    rfl

/-- Raising a notice reads and writes the link alone. -/
theorem raise_eq_setMl (n : Notice) (s : State) : raise n s = s.setMl (raise n s).ml := by
  simp only [raise]
  split <;> rfl

theorem raise_ml_congr (n : Notice) {s t : State} (h : t.ml = s.ml) : (raise n t).ml = (raise n s).ml := by
  simp only [raise, h]
  split
  · rfl
  · exact h

/-- Raising a notice and answering a request do not meet: one writes the notices, the other the replies. -/
theorem pushReply_raise (rep : Reply) (n : Notice) (s : State) : pushReply rep (raise n s) = raise n (pushReply rep s) := by
  simp only [raise, pushReply, State.setMl_fields]
  split <;> rfl

theorem raise_setSp (n : Notice) (x : SourcePort) (s : State) : raise n (s.setSp x) = (raise n s).setSp x := by
  simp only [raise, State.setSp_fields]
  split <;> rfl

theorem raise_setPs (n : Notice) (x : Scheduler) (s : State) : raise n (s.setPs x) = (raise n s).setPs x := by
  simp only [raise, State.setPs_fields]
  split <;> rfl

/-- A lock in FREE_RUN has nothing to drop (R83, R84). -/
theorem dropLock_of_freeRun {s : State} (h : s.otg.lock = .freeRun) : dropLock s = s := if_pos h

/-- Re-attaching out of DETACHED, with the lock in FREE_RUN (R41, R96, R108). -/
theorem reattach_of_detached {s : State} (hdet : s.sp.state = .detached) (hlock : s.otg.lock = .freeRun) :
    reattach s = raise (.sourceState .guarded 96) ((s.setSp { s.sp with state := .guarded, score := 96, cleanRun := 0 }).setPs
      { s.ps with detachTime := none, blankActive := false }) := by
  have hmove : moveSource .guarded 96 s =
      raise (.sourceState .guarded 96) (s.setSp { s.sp with state := .guarded, score := 96 }) := by
    simp only [moveSource]
    rw [if_neg (by simp [hdet]), if_neg (by decide), dropLock_of_freeRun (by simpa using hlock)]
  simp only [reattach, hmove, raise_setSp, raise_setPs, State.setSp_fields, raise_frame]
  rfl

/-- Settles O33: re-attaching under a lock in FREE_RUN is a change of the source port and the scheduler with one notice. -/
theorem reattachSourceAnswers : Obligations.ReattachSourceAnswers := by
  intro s r hserves
  have hexec : exec .reattachSource s = .next (settle (reattachSource r (takeRequest s))) :=
    execRequest_of_serves hserves
  rw [hexec, reattachSource]
  refine ⟨fun hnot => ?_, fun hdet hlock => ?_⟩
  · rw [if_neg (by simpa using hnot), answer, pushReply_takeRequest]
  · rw [if_pos (by simpa using hdet), reattach_of_detached (by simpa using hdet) (by simpa using hlock), setCond, ← raise_setSp,
      answer, pushReply_raise]
    simp only [raise_frame]
    rfl

/-- An encoded field of one byte. -/
theorem leBytes_one (v : Nat) : leBytes 1 v = [BitVec.ofNat 8 v] := rfl

theorem flagValue_byte (b : Bool) : BitVec.ofNat 8 (flagValue b) = flagByte b := by
  cases b <;> rfl

theorem spelled_nil : spelled [] = [] := rfl

theorem spelled_cons (row : Nat × Nat) (rows : List (Nat × Nat)) :
    spelled (row :: rows) = leBytes row.1 row.2 ++ spelled rows := rfl

theorem leBytes_zero (n : Nat) : leBytes n 0 = List.replicate n 0 := by
  induction n with
  | zero => rfl
  | succ n ih => simp [leBytes, ih, List.replicate_succ]

/-- The body of Read Capture, field by field (section 11.2.3). -/
theorem captureBytes_eq_body (entry : Nat) (c : Option Capture) : captureBytes entry c = captureBody entry c := by
  cases c with
  | none => simp [captureBytes, captureBody, spelled_cons, spelled_nil, leBytes_zero]
  | some c =>
    simp [captureBytes, captureBody, spelled_cons, spelled_nil, leBytes_one, flagValue_byte, maxPacket]

theorem entryIndex_of_val {i : Fin 4} {n : Nat} (h : i.val = n) : entryIndex n = i := by
  subst h
  simp [entryIndex]

theorem isFlag_iff {n : Nat} : isFlag n = true ↔ n ≤ 1 := by
  simp [isFlag]

/-- Settles O32: the refusals by the fields, then the one entry written or read. -/
theorem filterRequestsAnswer : Obligations.FilterRequestsAnswer := by
  refine ⟨?_, ?_⟩
  · intro s r hserves hpass n on
    have hexec : exec .setFilter s = .next (settle (setFilter r (takeRequest s))) := execRequest_of_passes hserves hpass
    rw [hexec, setFilter]
    refine ⟨fun hn => ?_, fun hn hon => ?_, fun i hi hon => ?_⟩
    · rw [if_pos hn, answerField, pushReply_takeRequest]
    · rw [if_neg hn.not_gt, if_pos (fun h => absurd (isFlag_iff.mp h) hon.not_ge), answerField, pushReply_takeRequest]
    · obtain rfl : entryIndex n = i := entryIndex_of_val hi
      rw [if_neg (by omega), if_neg (not_not.mpr (isFlag_iff.mpr hon))]
      rfl
  · intro s r hserves n
    have hexec : exec .readCapture s = .next (settle (readCapture r (takeRequest s))) := execRequest_of_serves hserves
    rw [hexec, readCapture]
    refine ⟨fun hn => ?_, fun i hi => ?_⟩
    · rw [if_pos hn, answerField, pushReply_takeRequest]
    · obtain rfl : entryIndex n = i := entryIndex_of_val hi
      rw [if_neg (by omega), ← captureBytes_eq_body]
      rfl

end Sys2Proof.Machine
end

section
/-! Byte layouts (chapter 11): fields read and written, the reading requests, and the profile record. -/

namespace Sys2Proof.Machine

theorem leBytes_length (n v : Nat) : (leBytes n v).length = n := by
  induction n generalizing v with
  | zero => rfl
  | succ n ih => simp [leBytes, ih]

/-- Each byte of a field is a digit of its value to the base 256 (R173). -/
theorem leBytes_getElem? {n i : Nat} (v : Nat) (h : i < n) :
    (leBytes n v)[i]? = some (BitVec.ofNat 8 (v / 256 ^ i)) := by
  induction n generalizing v i with
  | zero => omega
  | succ n ih =>
    cases i with
    | zero => simp [leBytes]
    | succ i => simp [leBytes, ih (v / 256) (by omega : i < n), Nat.div_div_eq_div_mul, Nat.pow_succ']

theorem spelled_length (rows : List (Nat × Nat)) : (spelled rows).length = (rows.map Prod.fst).sum := by
  induction rows with
  | nil => rfl
  | cons row rows ih => simp [spelled_cons, leBytes_length, ih]

theorem statusRows_length (s : State) : (spelled s.statusRows).length = 79 := by
  simp [spelled_length, State.statusRows, SlotRec.rows]

theorem frameRows_length (r : FrameRec) : (spelled r.rows).length = 35 := by
  cases hfirst : r.first with
  | none => simp [spelled_length, FrameRec.rows, hfirst]
  | some p => cases p <;> simp [spelled_length, FrameRec.rows, hfirst]

theorem fateCode_eq_idxOf (f : Fate) : f.code = BitVec.ofNat 8
    ([Fate.pending, .shown, .partShown, .replaced, .errorDropped, .foreign, .flushed].idxOf f) := by
  cases f <;> rfl

theorem recordFlags_byte (a b c : Bool) : flagByte a ||| (flagByte b <<< 1) ||| (flagByte c <<< 2) =
    BitVec.ofNat 8 (flagValue a + 2 * flagValue b + 4 * flagValue c) := by
  cases a <;> cases b <;> cases c <;> rfl

/-- A history record field by field (section 11.2.4). -/
theorem frameBytes_eq_spelled (r : FrameRec) : r.bytes = spelled r.rows := by
  simp only [FrameRec.bytes, FrameRec.rows, recordFlags_byte, fateCode_eq_idxOf, timeBytes]
  rcases r.first with _ | (t | ⟨t, j⟩) <;>
    simp [presentationBytes, leBytes, spelled_cons, spelled_nil]

/-- Settles O18: the bodies are those of the spelled rows, and LUT Read by its three checks. -/
theorem readRequestsAnswer : Obligations.ReadRequestsAnswer := by
  refine ⟨fun s r hserves => ?_, fun s r n hserves hpayload => ?_, fun s r => ⟨statusRows_length s, frameRows_length r⟩,
    fun n v => ⟨leBytes_length n v, fun i hi => leBytes_getElem? v hi⟩, ?_⟩
  · calc exec .getStatus s
      _ = .next (settle (answerWith r (statusBody (takeRequest s)) (takeRequest s))) := execRequest_of_serves hserves
      _ = _ := by rw [statusBody_eq_spelled, answerWith, pushReply_takeRequest]; rfl
  · have hbytes : FrameRec.bytes = fun r => spelled r.rows := funext frameBytes_eq_spelled
    calc exec .readHistory s
      _ = .next (settle (readHistory r (takeRequest s))) := execRequest_of_serves hserves
      _ = _ := by
        simp only [readHistory, historyRead, hpayload, fieldAt_singleton, answerWith, pushReply_takeRequest, hbytes,
          takeRequest_frame, leBytes_one]
        simp
  · intro s r hserves sel start count
    have hexec : exec .lutRead s = .next (settle (lutRead r (takeRequest s))) := execRequest_of_serves hserves
    rw [hexec, lutRead]
    simp only [answerField, answerWith, pushReply_takeRequest, takeRequest_frame]
    rfl

end Sys2Proof.Machine
end

section
/-! The validation of a profile record (section 7.3). The checks stand in field order, so they are the checks of field 1, then
those of field 2, and so on; each field's group is compared with its format and its limits check once. -/

namespace Sys2Proof.Machine

theorem threeLe_iff {x : Three Nat} {b : Nat} : threeLe x b = true ↔ x.c0 ≤ b ∧ x.c1 ≤ b ∧ x.c2 ≤ b := by
  simp [threeLe, and_assoc]

/-- The checks of one field of a profile record, format before limits. -/
def fieldChecks (l : Limits) (r : RawProfile) : Nat → List FieldCheck
  | 1 => [⟨within 640 3840 r.width && r.width % 8 = 0, .badField, 1⟩]
  | 2 => [⟨within 480 2160 r.height && r.height % 8 = 0, .badField, 2⟩]
  | 3 => [⟨within 1 maxTicks r.scanTime, .badField, 3⟩, ⟨l.scanMin ≤ r.scanTime, .outOfLimits, 3⟩]
  | 4 => [⟨within 1 maxTicks r.winMin, .badField, 4⟩, ⟨l.tminAbs ≤ r.winMin, .outOfLimits, 4⟩,
      ⟨r.scanTime + l.blankMin ≤ r.winMin, .outOfLimits, 4⟩]
  | 5 => [⟨within 1 maxTicks r.winMax, .badField, 5⟩, ⟨r.winMax ≤ l.tmaxAbs, .outOfLimits, 5⟩,
      ⟨r.winMin ≤ r.winMax, .outOfLimits, 5⟩]
  | 6 => [⟨r.pacing ≤ 1, .badField, 6⟩]
  | 7 => [⟨within 0 maxTicks r.fixedInterval && (r.pacing = 1 || r.fixedInterval = 0), .badField, 7⟩,
      ⟨r.pacing = 0 || within r.winMin r.winMax r.fixedInterval, .outOfLimits, 7⟩]
  | 8 => [⟨isFlag r.lock && (r.pacing = 1 || r.lock = 0), .badField, 8⟩]
  | 9 => [⟨r.lockGuard ≤ r.fixedInterval / 4, .badField, 9⟩]
  | 10 => [⟨isFlag r.race, .badField, 10⟩]
  | 11 => [⟨r.raceMargin ≤ 16, .badField, 11⟩]
  | 12 => [⟨r.tear ≤ 1, .badField, 12⟩]
  | 13 => [⟨r.spliceLimit ≤ r.height / 8 - 1, .badField, 13⟩]
  | 14 => [⟨isFlag r.repeatPlan && (r.pacing = 0 || r.repeatPlan = 0), .badField, 14⟩,
      ⟨r.repeatPlan = 0 || decide (2 * r.winMin ≤ r.winMax), .outOfLimits, 14⟩]
  | 15 => [⟨r.holdTimeout ≤ 10000, .badField, 15⟩]
  | 16 => [⟨threeLe r.blankColour 4095, .badField, 16⟩]
  | 17 => [⟨r.outDepth = 8 || r.outDepth = 10, .badField, 17⟩]
  | 18 => [⟨threeLe r.mask 1023, .badField, 18⟩]
  | 19 => [⟨isFlag r.lut, .badField, 19⟩]
  | _ => []

/-- The checks of the validation are those of the nineteen fields in order (R131). -/
theorem profileChecks_eq_fields (l : Limits) (r : RawProfile) :
    profileChecksA l r ++ profileChecksB r = (List.range' 1 19).flatMap (fieldChecks l r) := rfl

theorem findSome?_range'_eq_none {α : Type} {g : Nat → Option α} {lo n : Nat} :
    (List.range' lo n).findSome? g = none ↔ ∀ f, lo ≤ f → f < lo + n → g f = none := by
  simp [List.findSome?_eq_none_iff, List.mem_range'_1]

/-- The first success of a search through consecutive numbers. -/
theorem findSome?_range'_eq_some {α : Type} {g : Nat → Option α} {lo n : Nat} {a : α}
    (h : (List.range' lo n).findSome? g = some a) :
    ∃ f, lo ≤ f ∧ f < lo + n ∧ g f = some a ∧ ∀ j, lo ≤ j → j < f → g j = none := by
  induction n generalizing lo with
  | zero => simp at h
  | succ n ih =>
    rw [List.range'_succ, List.findSome?_cons] at h
    split at h
    next b hb => exact ⟨lo, le_rfl, by omega, by rw [hb, h], fun j hj hlt => by omega⟩
    next hnone =>
      obtain ⟨f, hlo, hhi, hf, hlow⟩ := ih h
      refine ⟨f, by omega, by omega, hf, fun j hj hlt => ?_⟩
      by_cases hjlo : j = lo
      · rwa [hjlo]
      · exact hlow j (by omega) hlt

theorem profileFailure_eq_findSome? (l : Limits) (r : RawProfile) :
    profileFailure l r = (List.range' 1 19).findSome? fun f => firstFailure (fieldChecks l r f) := by
  rw [profileFailure, firstFailure, profileChecks_eq_fields, List.find?_flatMap]
  rfl

/-- What the checks of one field find: nothing exactly when the field meets its format and its limits check; and a failure
of that field, BAD_FIELD against the format and OUT_OF_LIMITS against the limits alone (R130, R131). -/
def fieldJudged (l : Limits) (r : RawProfile) (f : Nat) : Prop :=
  (firstFailure (fieldChecks l r f) = none ↔ r.formatOk f ∧ r.limitsOk l f) ∧
    ∀ c, firstFailure (fieldChecks l r f) = some c → c.field = f ∧
      (c.status = .badField ∧ ¬ r.formatOk f ∨ c.status = .outOfLimits ∧ r.formatOk f ∧ ¬ r.limitsOk l f)

/-- A number that no field has. -/
theorem fieldJudged_of_no_check {l : Limits} {r : RawProfile} {f : Nat} (hchecks : fieldChecks l r f = [])
    (hformat : r.formatOk f) (hlimits : r.limitsOk l f) : fieldJudged l r f := by
  simp [fieldJudged, hchecks, firstFailure_nil, hformat, hlimits]

/-- A field with one format check and no limits check. -/
theorem fieldJudged_of_format {l : Limits} {r : RawProfile} {f : Nat} {b : Bool}
    (hchecks : fieldChecks l r f = [⟨b, .badField, f⟩]) (hformat : b = true ↔ r.formatOk f)
    (hlimits : r.limitsOk l f) : fieldJudged l r f := by
  simp only [fieldJudged, hchecks, firstFailure_cons, firstFailure_nil, ← hformat, hlimits]
  cases b <;> simp

/-- A field with a format check and one limits check. -/
theorem fieldJudged_of_limits {l : Limits} {r : RawProfile} {f : Nat} {b b₁ : Bool}
    (hchecks : fieldChecks l r f = [⟨b, .badField, f⟩, ⟨b₁, .outOfLimits, f⟩]) (hformat : b = true ↔ r.formatOk f)
    (hlimits : b = true → (b₁ = true ↔ r.limitsOk l f)) : fieldJudged l r f := by
  simp only [fieldJudged, hchecks, firstFailure_cons, firstFailure_nil, ← hformat]
  cases b
  · simp
  · rw [← hlimits rfl]
    cases b₁ <;> simp

/-- A field with a format check and two limits checks. -/
theorem fieldJudged_of_two_limits {l : Limits} {r : RawProfile} {f : Nat} {b b₁ b₂ : Bool}
    (hchecks : fieldChecks l r f = [⟨b, .badField, f⟩, ⟨b₁, .outOfLimits, f⟩, ⟨b₂, .outOfLimits, f⟩])
    (hformat : b = true ↔ r.formatOk f) (hlimits : b₁ = true ∧ b₂ = true ↔ r.limitsOk l f) : fieldJudged l r f := by
  simp only [fieldJudged, hchecks, firstFailure_cons, firstFailure_nil, ← hformat, ← hlimits]
  cases b <;> cases b₁ <;> cases b₂ <;> simp

theorem within_ticks {x : Nat} : within 1 maxTicks x = true ↔ 1 ≤ x ∧ x ≤ 10000000 := within_iff

/-- Every field is judged by its format and its limits check; from field 7 on the pacing has passed its own (R130, R131). -/
theorem fieldJudged_all (l : Limits) (r : RawProfile) {f : Nat} (hpacing : 6 < f → r.pacing ≤ 1) : fieldJudged l r f := by
  match f with
  | 0 => exact fieldJudged_of_no_check rfl trivial trivial
  | 1 => exact fieldJudged_of_format rfl (by simp [within_iff, RawProfile.formatOk, and_assoc]) trivial
  | 2 => exact fieldJudged_of_format rfl (by simp [within_iff, RawProfile.formatOk, and_assoc]) trivial
  | 3 => exact fieldJudged_of_limits rfl within_iff fun _ => by simp [RawProfile.limitsOk]
  | 4 => exact fieldJudged_of_two_limits rfl within_iff (by simp [RawProfile.limitsOk])
  | 5 => exact fieldJudged_of_two_limits rfl within_iff (by simp [RawProfile.limitsOk])
  | 6 => exact fieldJudged_of_format rfl (by simp [RawProfile.formatOk]) trivial
  | 7 =>
    have hp := hpacing (by omega)
    refine fieldJudged_of_limits rfl ?_ fun _ => ?_
    · simp only [RawProfile.formatOk, Bool.and_eq_true, Bool.or_eq_true, decide_eq_true_eq, within_iff, maxTicks]
      omega
    · simp only [RawProfile.limitsOk, Bool.or_eq_true, decide_eq_true_eq, within_iff]
      omega
  | 8 =>
    have hp := hpacing (by omega)
    refine fieldJudged_of_format rfl ?_ trivial
    simp only [RawProfile.formatOk, Bool.and_eq_true, Bool.or_eq_true, decide_eq_true_eq, isFlag_iff]
    omega
  | 9 => exact fieldJudged_of_format rfl (by simp [RawProfile.formatOk]) trivial
  | 10 => exact fieldJudged_of_format rfl isFlag_iff trivial
  | 11 => exact fieldJudged_of_format rfl (by simp [RawProfile.formatOk]) trivial
  | 12 => exact fieldJudged_of_format rfl (by simp [RawProfile.formatOk]) trivial
  | 13 => exact fieldJudged_of_format rfl (by simp [RawProfile.formatOk]) trivial
  | 14 =>
    have hp := hpacing (by omega)
    refine fieldJudged_of_limits rfl ?_ fun hformat => ?_
    · simp only [RawProfile.formatOk, Bool.and_eq_true, Bool.or_eq_true, decide_eq_true_eq, isFlag_iff]
      omega
    · simp only [Bool.and_eq_true, isFlag_iff] at hformat
      simp only [RawProfile.limitsOk, Bool.or_eq_true, decide_eq_true_eq]
      omega
  | 15 => exact fieldJudged_of_format rfl (by simp [RawProfile.formatOk]) trivial
  | 16 => exact fieldJudged_of_format rfl threeLe_iff trivial
  | 17 => exact fieldJudged_of_format rfl (by simp [RawProfile.formatOk]) trivial
  | 18 => exact fieldJudged_of_format rfl threeLe_iff trivial
  | 19 => exact fieldJudged_of_format rfl isFlag_iff trivial
  | _ + 20 => exact fieldJudged_of_no_check rfl trivial trivial

/-- The pacing field's format is its range. -/
theorem formatOk_pacing {r : RawProfile} : r.formatOk 6 ↔ r.pacing ≤ 1 := Iff.rfl

/-- The validation passes exactly the records all of whose fields meet their formats and limits checks (R130, R131). -/
theorem profileFailure_eq_none_iff (l : Limits) (r : RawProfile) :
    profileFailure l r = none ↔ ∀ f, 1 ≤ f → f < 20 → r.formatOk f ∧ r.limitsOk l f := by
  rw [profileFailure_eq_findSome?, findSome?_range'_eq_none]
  constructor
  · intro h f h1 h19
    have hp : r.pacing ≤ 1 :=
      formatOk_pacing.mp ((fieldJudged_all l r (by omega)).1.mp (h 6 (by omega) (by omega))).1
    exact (fieldJudged_all l r fun _ => hp).1.mp (h f h1 h19)
  · intro h f h1 h19
    have hp : r.pacing ≤ 1 := formatOk_pacing.mp (h 6 (by omega) (by omega)).1
    exact (fieldJudged_all l r fun _ => hp).1.mpr (h f h1 h19)

/-- A failure is that of the lowest-numbered failing field, by its format or by its limits (R131). -/
theorem profileFailure_eq_some {l : Limits} {r : RawProfile} {c : FieldCheck} (h : profileFailure l r = some c) :
    1 ≤ c.field ∧ c.field ≤ 19 ∧ (∀ f < c.field, r.formatOk f ∧ r.limitsOk l f) ∧
      (c.status = .badField ∧ ¬ r.formatOk c.field ∨
        c.status = .outOfLimits ∧ r.formatOk c.field ∧ ¬ r.limitsOk l c.field) := by
  rw [profileFailure_eq_findSome?] at h
  obtain ⟨f, h1, h19, hf, hbelow⟩ := findSome?_range'_eq_some h
  have hp (h6 : 6 < f) : r.pacing ≤ 1 :=
    formatOk_pacing.mp ((fieldJudged_all l r (by omega)).1.mp (hbelow 6 (by omega) h6)).1
  obtain ⟨hfield, hstatus⟩ := (fieldJudged_all l r hp).2 c hf
  subst hfield
  refine ⟨h1, by omega, fun j hj => ?_, hstatus⟩
  by_cases hj1 : 1 ≤ j
  · exact (fieldJudged_all l r fun h6 => hp (by omega)).1.mp (hbelow j hj1 hj)
  · obtain rfl : j = 0 := by omega
    exact ⟨trivial, trivial⟩

/-- The nineteen fields one by one. -/
theorem forall_fields {P : Nat → Prop} : (∀ f, 1 ≤ f → f < 20 → P f) ↔
    P 1 ∧ P 2 ∧ P 3 ∧ P 4 ∧ P 5 ∧ P 6 ∧ P 7 ∧ P 8 ∧ P 9 ∧ P 10 ∧ P 11 ∧ P 12 ∧ P 13 ∧ P 14 ∧ P 15 ∧ P 16 ∧ P 17 ∧ P 18 ∧
      P 19 := by
  have hrange : (∀ f, 1 ≤ f → f < 20 → P f) ↔ ∀ f ∈ List.range' 1 19, P f := by simp [List.mem_range'_1]
  rw [hrange]
  simp [List.range']

/-- The formats and limits checks of the nineteen fields, written out (R130, R131). -/
theorem profileFailure_eq_none_iff_fields (l : Limits) (r : RawProfile) :
    profileFailure l r = none ↔
      (640 ≤ r.width ∧ r.width ≤ 3840 ∧ r.width % 8 = 0) ∧ (480 ≤ r.height ∧ r.height ≤ 2160 ∧ r.height % 8 = 0) ∧
      (1 ≤ r.scanTime ∧ r.scanTime ≤ 10000000 ∧ l.scanMin ≤ r.scanTime) ∧
      (1 ≤ r.winMin ∧ r.winMin ≤ 10000000 ∧ l.tminAbs ≤ r.winMin ∧ r.scanTime + l.blankMin ≤ r.winMin) ∧
      (1 ≤ r.winMax ∧ r.winMax ≤ 10000000 ∧ r.winMax ≤ l.tmaxAbs ∧ r.winMin ≤ r.winMax) ∧ r.pacing ≤ 1 ∧
      (r.fixedInterval ≤ 10000000 ∧ (r.pacing = 0 → r.fixedInterval = 0) ∧
        (r.pacing = 1 → r.winMin ≤ r.fixedInterval ∧ r.fixedInterval ≤ r.winMax)) ∧
      (r.lock ≤ 1 ∧ (r.pacing = 0 → r.lock = 0)) ∧ r.lockGuard ≤ r.fixedInterval / 4 ∧ r.race ≤ 1 ∧ r.raceMargin ≤ 16 ∧
      r.tear ≤ 1 ∧ r.spliceLimit ≤ r.height / 8 - 1 ∧
      (r.repeatPlan ≤ 1 ∧ (r.pacing = 1 → r.repeatPlan = 0) ∧ (r.repeatPlan = 1 → 2 * r.winMin ≤ r.winMax)) ∧
      r.holdTimeout ≤ 10000 ∧ (r.blankColour.c0 ≤ 4095 ∧ r.blankColour.c1 ≤ 4095 ∧ r.blankColour.c2 ≤ 4095) ∧
      (r.outDepth = 8 ∨ r.outDepth = 10) ∧ (r.mask.c0 ≤ 1023 ∧ r.mask.c1 ≤ 1023 ∧ r.mask.c2 ≤ 1023) ∧ r.lut ≤ 1 := by
  rw [profileFailure_eq_none_iff, forall_fields]
  simp only [RawProfile.formatOk, RawProfile.limitsOk, and_true, and_assoc]

/-- The relations of R131 that the other blocks read, for a record that passes. -/
theorem toProfile_meets {l : Limits} {r : RawProfile} (h : profileFailure l r = none) : r.toProfile.meets l := by
  obtain ⟨⟨hw, hw', _⟩, ⟨hh, hh', hh8⟩, ⟨hs, _, hscan⟩, ⟨_, _, htmin, hblank⟩, ⟨_, _, htmax, hwin⟩, hpacing,
    ⟨_, hadaptive, hfixed⟩, ⟨_, hlock⟩, _, _, _, _, _, ⟨_, hplan, hdouble⟩, _⟩ :=
    (profileFailure_eq_none_iff_fields l r).mp h
  have hmode : r.pacing = 0 ∨ r.pacing = 1 := by omega
  refine ⟨htmin, hwin, htmax, hscan, hblank, ?_, ?_, hh, hh', hh8, hw, hw', ?_, ?_, hs⟩
  all_goals rcases hmode with hmode | hmode
  all_goals simp_all [RawProfile.toProfile]

/-- Settles O23: the branches of the rule, and the validation field by field. -/
theorem proposeProfileAnswers : Obligations.ProposeProfileAnswers := by
  refine ⟨fun s r hserves hpass => ?_, fun l r =>
    ⟨profileFailure_eq_none_iff_fields l r, toProfile_meets, fun c => profileFailure_eq_some⟩⟩
  have hexec : exec .proposeProfile s = .next (settle (proposeProfile r (takeRequest s))) :=
    execRequest_of_passes hserves hpass
  rw [hexec]
  refine ⟨fun hnone => ?_, fun l hl => ⟨fun hconf => ?_, fun hconf => ⟨fun c hc => ?_, fun hok => ?_⟩⟩⟩
  · simp [proposeProfile, hnone, answer, pushReply_takeRequest]
  · simp [proposeProfile, hl, hconf, answer, pushReply_takeRequest]
  · simp [proposeProfile, hl, hconf, hc, answerField, pushReply_takeRequest]
  · simp [proposeProfile, hl, hconf, hok, answer, pushReply_setPc_takeRequest]

end Sys2Proof.Machine
end

section
/-! The profile record as bytes (section 11.2.1), and the tune set (section 7.7). -/

namespace Sys2Proof.Machine

/-- A field read and written again: its own bytes (R173). -/
theorem leBytes_leNat (bs : List Byte) : leBytes bs.length (leNat bs) = bs := by
  induction bs with
  | nil => rfl
  | cons b t ih =>
    have hlow : BitVec.ofNat 8 (b.toNat + 256 * leNat t) = b := by
      apply BitVec.eq_of_toNat_eq
      rw [BitVec.toNat_ofNat]
      omega
    have hhigh : (b.toNat + 256 * leNat t) / 256 = leNat t := by omega
    rw [List.length_cons, leBytes, leNat, hlow, hhigh, ih]

/-- The bytes of a payload from an offset on, as many as a size says. -/
def segment (bs : List Byte) (off n : Nat) : List Byte := (bs.drop off).take n

theorem leBytes_fieldAt {bs : List Byte} {off n : Nat} (h : off + n ≤ bs.length) :
    leBytes n (fieldAt bs off n) = segment bs off n := by
  have hlen : (segment bs off n).length = n := by
    simp only [segment, List.length_take, List.length_drop]
    omega
  calc leBytes n (fieldAt bs off n) = leBytes (segment bs off n).length (leNat (segment bs off n)) := by rw [hlen]; rfl
    _ = segment bs off n := leBytes_leNat _

/-- Consecutive segments of a payload, by their sizes. -/
def segments (bs : List Byte) : Nat → List Nat → List (List Byte)
  | _, [] => []
  | off, n :: ns => segment bs off n :: segments bs (off + n) ns

theorem segments_flatten (bs : List Byte) (off : Nat) (ns : List Nat) :
    (segments bs off ns).flatten = segment bs off ns.sum := by
  induction ns generalizing off with
  | nil => simp [segments, segment]
  | cons n ns ih =>
    rw [segments, List.flatten_cons, ih, List.sum_cons, segment, segment, segment, List.take_add, List.drop_drop]

/-- A field of one byte, read as a value below 256, is its byte. -/
theorem byte_fieldAt {bs : List Byte} {off : Nat} (h : off + 1 ≤ bs.length) :
    [BitVec.ofNat 8 (fieldAt bs off 1)] = segment bs off 1 := leBytes_fieldAt h

theorem flagByte_of_le_one {n : Nat} (h : n ≤ 1) : flagByte (decide (n = 1)) = BitVec.ofNat 8 n := by
  interval_cases n <;> rfl

theorem pacingCode_of_le_one {n : Nat} (h : n ≤ 1) :
    (if n = 1 then Pacing.fixed else .adaptive).code = BitVec.ofNat 8 n := by
  interval_cases n <;> rfl

theorem tearCode_of_le_one {n : Nat} (h : n ≤ 1) : (if n = 1 then Tear.splice else .sync).code = BitVec.ofNat 8 n := by
  interval_cases n <;> rfl

theorem depthCode_of_eq {n : Nat} (h : n = 8 ∨ n = 10) : (if n = 8 then Depth.d8 else .d10).code = BitVec.ofNat 8 n := by
  rcases h with rfl | rfl <;> rfl

theorem colourBytes_toColour {x : Three Nat} (h0 : x.c0 ≤ 4095) (h1 : x.c1 ≤ 4095) (h2 : x.c2 ≤ 4095) :
    colourBytes (toColour x) = leBytes 2 x.c0 ++ leBytes 2 x.c1 ++ leBytes 2 x.c2 := by
  simp only [colourBytes, toColour, BitVec.toNat_ofNat]
  rw [Nat.mod_eq_of_lt (by omega), Nat.mod_eq_of_lt (by omega), Nat.mod_eq_of_lt (by omega)]

theorem maskBytes_toMask {x : Three Nat} (h0 : x.c0 ≤ 1023) (h1 : x.c1 ≤ 1023) (h2 : x.c2 ≤ 1023) :
    maskBytes (toMask x) = leBytes 2 x.c0 ++ leBytes 2 x.c1 ++ leBytes 2 x.c2 := by
  simp only [maskBytes, toMask, BitVec.toNat_ofNat]
  rw [Nat.mod_eq_of_lt (by omega), Nat.mod_eq_of_lt (by omega), Nat.mod_eq_of_lt (by omega)]

/-- The sizes of a profile record's fields, the two triples component by component (section 11.2.1). -/
def profileSizes : List Nat := [2, 2, 4, 4, 4, 1, 4, 1, 4, 1, 1, 1, 2, 1, 2, 2, 2, 2, 1, 2, 2, 2, 1]

/-- An accepted record encodes to its own bytes: each field to its segment. -/
theorem profile_round_trip {l : Limits} {bs : List Byte} (hlen : bs.length = 48)
    (h : profileFailure l (readProfile bs) = none) : (readProfile bs).toProfile.bytes = bs := by
  obtain ⟨_, _, _, _, _, hpacing, _, ⟨hlock, _⟩, _, hrace, _, htear, _, ⟨hplan, _⟩, _, ⟨hb0, hb1, hb2⟩, hdepth,
    ⟨hm0, hm1, hm2⟩, hlut⟩ := (profileFailure_eq_none_iff_fields l (readProfile bs)).mp h
  have hsegments : (readProfile bs).toProfile.bytes = (segments bs 0 profileSizes).flatten := by
    simp only [Profile.bytes, RawProfile.toProfile, pacingCode_of_le_one hpacing, flagByte_of_le_one hlock,
      flagByte_of_le_one hrace, tearCode_of_le_one htear, flagByte_of_le_one hplan, flagByte_of_le_one hlut,
      depthCode_of_eq hdepth, colourBytes_toColour hb0 hb1 hb2, maskBytes_toMask hm0 hm1 hm2]
    simp only [readProfile, fieldThree, byte_fieldAt, leBytes_fieldAt, hlen, Nat.reduceAdd, Nat.reduceLeDiff, segments,
      profileSizes, List.flatten_cons, List.flatten_nil, List.append_nil, List.append_assoc]
  rw [hsegments, segments_flatten]
  exact List.take_of_length_le (by simp [hlen, profileSizes])

theorem pacing_eq_fixed_iff {n : Nat} : (if n = 1 then Pacing.fixed else .adaptive) = .fixed ↔ n = 1 := by simp

theorem tear_eq_splice_iff {n : Nat} : (if n = 1 then Tear.splice else .sync) = .splice ↔ n = 1 := by simp

theorem depth_eq_d8_iff {n : Nat} : (if n = 8 then Depth.d8 else .d10) = .d8 ↔ n = 8 := by simp

/-- Settles O24: the offsets are those of `readProfile`, and an accepted record makes the round trip. -/
theorem profileRecordRoundTrip : Obligations.ProfileRecordRoundTrip := by
  refine ⟨fun bs => ⟨rfl, ?_⟩, fun l bs hlen h => profile_round_trip hlen h⟩
  exact ⟨rfl, rfl, rfl, rfl, rfl, pacing_eq_fixed_iff, rfl, decide_eq_true_iff, rfl, decide_eq_true_iff, rfl,
    tear_eq_splice_iff, rfl, decide_eq_true_iff, rfl, rfl, depth_eq_d8_iff, rfl, decide_eq_true_iff⟩

/-- The check of one tune field. -/
def tuneCheckOf (bs : List Byte) : Nat → FieldCheck
  | 10 => tuneCheck bs 0 10 (isFlag (fieldAt bs 1 1))
  | 11 => tuneCheck bs 2 11 true
  | 12 => tuneCheck bs 4 12 (fieldAt bs 5 1 ≤ 1)
  | 13 => tuneCheck bs 6 13 true
  | 15 => tuneCheck bs 9 15 true
  | 16 => tuneCheck bs 12 16 (threeLe (fieldThree bs 13) 4095)
  | 18 => tuneCheck bs 19 18 (threeLe (fieldThree bs 20) 1023)
  | f => tuneCheck bs 26 f (isFlag (fieldAt bs 27 1))

theorem tuneChecks_eq_map (bs : List Byte) : tuneChecks bs = tuneFields.map (tuneCheckOf bs) := rfl

theorem tuneCheck_passes_iff {bs : List Byte} {off f : Nat} {b : Bool} {p : Prop} (h : b = true ↔ p) :
    (tuneCheck bs off f b).passes = true ↔ fieldAt bs off 1 = 0 ∨ fieldAt bs off 1 = 1 ∧ p := by
  simp [tuneCheck, h]

/-- The check of a tune field is its rule, and draws BAD_FIELD with its number (R140). -/
theorem tuneCheckOf_spec (bs : List Byte) {f : Nat} (hf : f ∈ tuneFields) :
    ((tuneCheckOf bs f).passes = true ↔ tuneFieldOk bs f) ∧ (tuneCheckOf bs f).field = f ∧
      (tuneCheckOf bs f).status = .badField := by
  simp only [tuneFields, List.mem_cons, List.not_mem_nil, or_false] at hf
  rcases hf with rfl | rfl | rfl | rfl | rfl | rfl | rfl | rfl
  case inl | inr.inr.inr.inr.inr.inr.inr => exact ⟨tuneCheck_passes_iff isFlag_iff, rfl, rfl⟩
  case inr.inr.inl => exact ⟨tuneCheck_passes_iff decide_eq_true_iff, rfl, rfl⟩
  case inr.inr.inr.inr.inr.inl | inr.inr.inr.inr.inr.inr.inl => exact ⟨tuneCheck_passes_iff threeLe_iff, rfl, rfl⟩
  all_goals exact ⟨tuneCheck_passes_iff (iff_of_true rfl trivial), rfl, rfl⟩

theorem tuneChecks_eq_none_iff (bs : List Byte) :
    firstFailure (tuneChecks bs) = none ↔ ∀ f ∈ tuneFields, tuneFieldOk bs f := by
  rw [tuneChecks_eq_map, firstFailure, List.find?_map, Option.map_eq_none_iff, List.find?_eq_none]
  refine forall₂_congr fun f hf => ?_
  simp [(tuneCheckOf_spec bs hf).1]

/-- The first tune field that fails, in field-number order (R140). -/
theorem tuneChecks_eq_some {bs : List Byte} {c : FieldCheck} (h : firstFailure (tuneChecks bs) = some c) :
    c.status = .badField ∧ c.field ∈ tuneFields ∧ ¬ tuneFieldOk bs c.field ∧
      ∀ f ∈ tuneFields, f < c.field → tuneFieldOk bs f := by
  rw [tuneChecks_eq_map, firstFailure, List.find?_map, Option.map_eq_some_iff] at h
  obtain ⟨f, hfind, rfl⟩ := h
  obtain ⟨hfails, before, after, hsplit, hpass⟩ := List.find?_eq_some_iff_append.mp hfind
  have hf : f ∈ tuneFields := List.mem_of_find?_eq_some hfind
  obtain ⟨hok, hfield, hstatus⟩ := tuneCheckOf_spec bs hf
  rw [hfield]
  refine ⟨hstatus, hf, by simpa [← hok] using hfails, fun j hj hlt => ?_⟩
  have hsorted : (before ++ f :: after).Pairwise (· < ·) := hsplit ▸ (by decide : tuneFields.Pairwise (· < ·))
  have hbefore : j ∈ before := by
    rw [hsplit, List.mem_append, List.mem_cons] at hj
    rcases hj with hj | rfl | hj
    · exact hj
    · exact absurd hlt (lt_irrefl _)
    · have hafter := List.rel_of_pairwise_cons (List.pairwise_append.mp hsorted).2.1 hj
      omega
  have hjpass := hpass j hbefore
  rw [← (tuneCheckOf_spec bs hj).1]
  simpa using hjpass

/-- The clamped set as a number, bit by bit (section 11.2). -/
theorem clampedFlags_toNat (a b c : Bool) : (flagByte a ||| (flagByte b <<< 1) ||| (flagByte c <<< 2)).toNat =
    (if a = true then 1 else 0) + (if b = true then 2 else 0) + (if c = true then 4 else 0) := by
  cases a <;> cases b <;> cases c <;> rfl

theorem tunePresent_iff {bs : List Byte} {off : Nat} : tunePresent bs off = true ↔ fieldAt bs off 1 = 1 := decide_eq_true_iff

theorem tuned_eq {α : Type} (bs : List Byte) (off : Nat) (value : α) (old : Option α) :
    tuned bs off value old = if fieldAt bs off 1 = 1 then some value else old := by
  simp only [tuned, tunePresent_iff]

theorem clampedSet_toNat (bs : List Byte) (p : Profile) : (clampedSet bs p).toNat =
    (if fieldAt bs 2 1 = 1 ∧ 16 < fieldAt bs 3 1 then 1 else 0)
      + (if fieldAt bs 6 1 = 1 ∧ p.strips - 1 < fieldAt bs 7 2 then 2 else 0)
      + (if fieldAt bs 9 1 = 1 ∧ 10000 < fieldAt bs 10 2 then 4 else 0) := by
  rw [clampedSet, clampedFlags_toNat]
  simp only [Bool.and_eq_true, tunePresent_iff, decide_eq_true_iff]

/-- Settles O29: the checks by `tuneChecks_eq_some`, then the tune set field by field. -/
theorem tuneProfileAnswers : Obligations.TuneProfileAnswers := by
  refine ⟨fun bs => ⟨tuneChecks_eq_none_iff bs, fun c hc => (tuneChecks_eq_some hc).2⟩, fun s r hserves hpass => ?_⟩
  have hexec : exec .tuneProfile s = .next (settle (tuneProfile r (takeRequest s))) :=
    execRequest_of_passes hserves hpass
  rw [hexec]
  refine ⟨fun hnone => ?_, fun p hp => ⟨fun c hc => ?_, fun hok => ?_⟩⟩
  · simp [tuneProfile, hnone, answer, pushReply_takeRequest]
  · simp [tuneProfile, hp, hc, answerField, pushReply_takeRequest, (tuneChecks_eq_some hc).1]
  · refine ⟨tuneAdd r.payload p s.pc.tune, clampedSet r.payload p, ?_, ?_⟩
    · simp [tuneProfile, hp, hok, answerWith, pushReply_setPc_takeRequest]
    · exact ⟨tuned_eq .., tuned_eq .., tuned_eq .., tuned_eq .., tuned_eq .., fun h => (tuned_eq ..).trans (if_neg h),
        fun h => (tuned_eq ..).trans (if_pos h), fun h => (tuned_eq ..).trans (if_neg h),
        fun h => (tuned_eq ..).trans (if_pos h), tuned_eq .., clampedSet_toNat ..⟩

end Sys2Proof.Machine
end


section
/-! The source port's quiet events, the expiries that start no refresh, and the arbiter's grants. -/

namespace Sys2Proof.Machine

theorem whileRunning_of_running {f : State → Result} {s : State} (h : s.running) : whileRunning f s = f s := by
  rw [whileRunning_eq, show s.resetAsserted = false from h]
  rfl

theorem exec_frameStart {s : State} (h : s.running) : exec .frameStart s = frameStartEvent s := whileRunning_of_running h

theorem exec_line {s : State} (h : s.running) (e : Bool) {pixels : List Pixel} (hlen : pixels.length ≤ 65535) :
    exec (.line e pixels) s = .next (settle (lineEvent e pixels s)) :=
  (if_pos (decide_eq_true hlen)).trans (whileRunning_of_running h)

theorem exec_frameEnd {s : State} (h : s.running) : exec .frameEnd s = .next (settle (frameEndEvent s)) :=
  whileRunning_of_running (f := fun s => .next (settle (frameEndEvent s))) h

theorem exec_signalLost {s : State} (h : s.running) : exec .signalLost s = .next (settle (signalLostEvent s)) :=
  whileRunning_of_running (f := fun s => .next (settle (signalLostEvent s))) h

/-- Settles O40: the one field written. -/
theorem signalRestoredSetsFlag : Obligations.SignalRestoredSetsFlag := fun _ h =>
  whileRunning_of_running (f := fun s => .next (s.setSp { s.sp with signal := true })) h

/-- Settles O44: in each of these states the event only counts, closes or ends. -/
theorem untakenFramesPass : Obligations.UntakenFramesPass := by
  intro s e pixels hr hlen
  rw [exec_frameStart hr, exec_line hr e hlen, exec_frameEnd hr]
  refine ⟨fun hst => ⟨?_, ?_, ?_⟩, fun hst hc => ?_, fun hst hc => ?_, fun hst hc => ?_⟩
  · rw [frameStartEvent, hst]
    rfl
  · rw [lineEvent, if_pos hst]
  · rw [frameEndEvent, if_pos hst]
    rfl
  · simp only [List.mem_cons, List.not_mem_nil, or_false] at hc
    rw [lineEvent, if_neg hst]
    rcases hc with hc | hc <;> rw [hc] <;> rfl
  · rw [frameEndEvent, if_neg hst, hc]
    rfl
  · rw [frameEndEvent, if_neg hst, hc]
    rfl

theorem frameStartEvent_of_detached {s : State} (h : s.sp.state = .detached) :
    frameStartEvent s = .next (observeFrame (if s.sp.cond = .observed then breakRun s else s)) := by
  simp only [frameStartEvent, h]

theorem strayEvent_of_detached {s : State} (h : s.sp.state = .detached) : strayEvent s = breakRun s := by
  simp only [strayEvent, h]

/-- Settles O45: the frames observed while DETACHED, and the re-attachment under a lock in FREE_RUN. -/
theorem detachedFramesAreObserved : Obligations.DetachedFramesAreObserved := by
  intro s e pixels hr hdet hlen
  have harmed : s.sp.state ≠ .unarmed := by rw [hdet]; decide
  rw [exec_frameStart hr, exec_line hr e hlen, exec_frameEnd hr]
  refine ⟨?_, fun hc => ⟨?_, ?_⟩, fun hc => ⟨?_, fun hclean => ?_, fun hclean hheight hrun => ?_,
    fun hclean hheight hrun hlock => ?_⟩⟩
  · rw [frameStartEvent_of_detached hdet]
    split <;> rfl
  · rw [lineEvent, if_neg harmed, hc]
    exact congrArg (fun u => Host.Outcome.next (settle u)) (strayEvent_of_detached hdet)
  · rw [frameEndEvent, if_neg harmed, hc]
    exact congrArg (fun u => Host.Outcome.next (settle u)) (strayEvent_of_detached hdet)
  · rw [lineEvent, if_neg harmed, hc]
    have hmark : (s.sp.obsClean && !(e || decide (pixels.length ≠ s.prof.width) || decide (s.prof.height ≤ s.sp.lineCount))) =
        (s.sp.obsClean && !e && decide (pixels.length = s.prof.width) && decide (s.sp.lineCount < s.prof.height)) := by
      have hover : decide (s.prof.height ≤ s.sp.lineCount) = !decide (s.sp.lineCount < s.prof.height) := by
        rw [← decide_not, decide_eq_decide, Nat.not_lt]
      have hwidth : decide (pixels.length ≠ s.prof.width) = !decide (pixels.length = s.prof.width) := decide_not
      simp only [hover, hwidth, Bool.not_or, Bool.not_not, Bool.and_assoc]
    simp only [observedLine, hmark]
    rfl
  all_goals rw [frameEndEvent, if_neg harmed, hc]
  · simp only [observedEnd]
    rw [if_neg hclean]
    rfl
  · simp only [observedEnd]
    rw [if_pos ⟨hclean, hheight⟩, if_neg (by simpa [reattachRun] using hrun)]
    rfl
  · simp only [observedEnd]
    rw [if_pos ⟨hclean, hheight⟩, if_pos (by simp [reattachRun, hrun]), reattach_of_detached (by simpa using hdet) (by simpa using hlock)]
    rfl

theorem eligiblePresent_iff {s : State} : s.eligiblePresent = true ↔ ∃ k ∈ s.pool.cands, (s.slot k).eligible = true := by
  simp [State.eligiblePresent]

/-- The test at the entry to BLANK_OPEN (R74, R96). -/
theorem opensOnFrame_iff {s : State} : (s.eligiblePresent && !s.ps.blankActive) = true ↔ s.opensOnFrame := by
  simp [State.opensOnFrame, eligiblePresent_iff]

/-- Entry to BLANK_OPEN on an eligible candidate (R74). -/
theorem enterBlankOpen_of_frame {s : State} (h : s.opensOnFrame) :
    enterBlankOpen s = refreshStart false (s.setOtg { s.otg with timing := .blankOpen }) :=
  if_pos (opensOnFrame_iff (s := s).mpr h)

/-- Entry to BLANK_OPEN with a kept repeat expiry (R76). -/
theorem enterBlankOpen_of_kept {s : State} (h : ¬ s.opensOnFrame) (hkept : s.otg.keptRepeat = true) :
    enterBlankOpen s = repeatExpiryOpen (s.setOtg { s.otg with timing := .blankOpen, keptRepeat := false }) :=
  (if_neg fun g => h (opensOnFrame_iff (s := s).mp g)).trans (if_pos hkept)

/-- Entry to BLANK_OPEN with nothing to do there (R74). -/
theorem enterBlankOpen_of_quiet {s : State} (h : ¬ s.opensOnFrame) (hkept : s.otg.keptRepeat = false) :
    enterBlankOpen s = s.setOtg { s.otg with timing := .blankOpen } :=
  (if_neg fun g => h (opensOnFrame_iff (s := s).mp g)).trans (if_neg (by simp [hkept]))

/-- A load of the repeat timer for a moment is an expiry at that moment (R75, R77). -/
theorem plusTicks_elapsed (now x : Time) : plusTicks now (elapsed x now) = x := by
  rw [plusTicks, elapsed, BitVec.ofNat_toNat, BitVec.setWidth_eq, BitVec.add_comm, BitVec.sub_add_cancel]

/-- The backstop: the run of planned repeats has ended, and the timer expires at t_last + Tmax (R75, R77). -/
theorem loadBackstop_eq (s : State) : loadBackstop s = s.setOtg { s.otg with
    planCount := 0
    repeatTimer := .running (plusTicks s.otg.tLast s.prof.winMax) } := by
  rw [loadBackstop, plusTicks_elapsed]

theorem frameArriving_iff {s : State} : s.frameArriving = true ↔
    ∃ k, s.pool.filling = some k ∧ 0 < (s.slot k).filled ∧ (s.slot k).eligible = false := by
  rw [State.frameArriving]
  cases s.pool.filling <;> simp

/-- A planned repeat is skipped for a frame that is on its way (R75). -/
theorem repeatExpiryOpen_of_arriving {s : State} (hplan : 0 < s.otg.planCount) (h : s.frameArriving = true) :
    repeatExpiryOpen s = loadBackstop s := by
  rw [repeatExpiryOpen, if_pos hplan, if_pos h]

/-- A Tmin expiry in BLANK_MIN (R73). -/
theorem tminExpired_of_blankMin {s : State} (h : s.otg.timing = .blankMin) :
    tminExpired s = enterBlankOpen (s.setOtg { s.otg with tminTimer := .stopped }) := by
  simp only [tminExpired, State.setOtg_fields, h]

/-- A repeat timer expiry in BLANK_OPEN (R75, R76). -/
theorem repeatExpired_of_blankOpen {s : State} (h : s.otg.timing = .blankOpen) :
    repeatExpired s = repeatExpiryOpen (s.setOtg { s.otg with repeatTimer := .stopped }) := by
  simp only [repeatExpired, State.setOtg_fields, h]

/-- Settles O52: each expiry by the timing state, none of them reaching a refresh start. -/
theorem quietExpiries : Obligations.QuietExpiries := by
  intro s hr
  refine ⟨fun hdue => ?_, fun hdue => ?_, fun hdue hscan => ?_⟩
  · have hexec : exec .tminExpiry s = .next (settle (tminExpired s)) := whenDue_of_due hr hdue
    rw [hexec]
    refine ⟨fun hscan => ?_, fun hmin hkept hquiet => ?_, fun k hmin hkept hno hplan hfill hstrips hel => ?_⟩
    · simp only [tminExpired, State.setOtg_fields, hscan]
      rfl
    · have hno : ¬ s.opensOnFrame := fun ⟨⟨k, hk, he⟩, hb⟩ => by
        rcases hquiet with hquiet | hquiet
        · simp [hquiet k hk] at he
        · simp [hquiet] at hb
      rw [tminExpired_of_blankMin hmin, enterBlankOpen_of_quiet]
      · rfl
      · exact hno
      · exact hkept
    · rw [tminExpired_of_blankMin hmin, enterBlankOpen_of_kept, repeatExpiryOpen_of_arriving, loadBackstop_eq]
      · rfl
      · exact hplan
      · exact frameArriving_iff.mpr ⟨k, hfill, hstrips, hel⟩
      · exact hno
      · exact hkept
  · have hexec : exec .repeatTimerExpiry s = .next (settle (repeatExpired s)) := whenDue_of_due hr hdue
    rw [hexec]
    refine ⟨fun hearly => ?_, fun k hopen hplan hfill hstrips hel => ?_⟩
    · simp only [List.mem_cons, List.not_mem_nil, or_false] at hearly
      rcases hearly with htiming | htiming <;> simp only [repeatExpired, State.setOtg_fields, htiming] <;> rfl
    · rw [repeatExpired_of_blankOpen hopen, repeatExpiryOpen_of_arriving, loadBackstop_eq]
      · rfl
      · exact hplan
      · exact frameArriving_iff.mpr ⟨k, hfill, hstrips, hel⟩
  · have hexec : exec .fixedTimerExpiry s = .next (settle (fixedExpired s)) := whenDue_of_due hr hdue
    rw [hexec, fixedExpired]
    simp only [State.setOtg_fields, hscan]
    rfl

/-- A granted request that is refused is answered with its refusal, and nothing else (R166). -/
theorem exec_requestRefused {s : State} {r : Request} {st : Status} (hr : s.running) (hgranted : s.granted = some r)
    (h : r.refusal = some st) : exec .requestRefused s = .next (settle (s.answered ⟨r.tag, st, 0, []⟩)) := by
  have hdue : refusedDue s = true := by simp [refusedDue, hgranted, h]
  have hcarry : carryOut refuseRequest s = refuseRequest r (takeRequest s) := by
    obtain ⟨rest, hslots⟩ := List.head?_eq_some_iff.mp (granted_head hgranted)
    simp [carryOut, hslots]
  rw [show exec .requestRefused s = _ from whenDue_of_due hr hdue, hcarry, refuseRequest, h]
  rfl

/-- The lengths of the fixed-length requests (section 11.2). -/
theorem lengthFits_of_row {row : Nat × Nat} (h : row ∈ requestLengths) (payload : List Byte) :
    lengthFits row.1 payload = some (decide (payload.length = row.2)) := by
  simp only [requestLengths, List.mem_cons, List.not_mem_nil, or_false] at h
  rcases h with rfl | rfl | rfl | rfl | rfl | rfl | rfl | rfl | rfl | rfl | rfl | rfl | rfl | rfl | rfl | rfl | rfl <;> rfl

/-- A type with no row and not LUT Write is unknown (R166). -/
theorem lengthFits_of_unknown {type : Nat} (hlut : type ≠ 0x20) (h : ∀ row ∈ requestLengths, row.1 ≠ type)
    (payload : List Byte) : lengthFits type payload = none := by
  simp only [requestLengths, List.forall_mem_cons, ne_eq] at h
  simp only [lengthFits]
  split <;> simp_all

/-- Settles O36: the refusal by its three causes, the length table row by row, and the two other claimants. -/
theorem arbiterGrants : Obligations.ArbiterGrants := by
  refine ⟨fun s r hr hgranted => ⟨fun he => ?_, fun he => ?_, fun he => ⟨fun hl => ?_, fun hl => ?_⟩⟩,
    fun payload => ⟨fun row hrow => lengthFits_of_row hrow payload, ?_, fun type hlut h => lengthFits_of_unknown hlut h payload⟩,
    fun s hr hroom => ⟨fun tag hdone hover => ?_, fun k rest tag st hdone hdef => ?_⟩⟩
  · exact exec_requestRefused hr hgranted (by simp [Request.refusal, he])
  · exact exec_requestRefused hr hgranted (by simp [Request.refusal, he])
  · exact exec_requestRefused hr hgranted (by simp [Request.refusal, he, hl])
  · exact exec_requestRefused hr hgranted (by simp [Request.refusal, he, hl])
  · simp [lengthFits]
  · have hdue : overrunDue s = true := by simp [overrunDue, entryFree_iff.mpr hroom, hdone, hover]
    rw [show exec .overrunReply s = _ from whenDue_of_due hr hdue, overrunReplies, hover]
    rfl
  · have hdue : deferredDue s = true := by simp [deferredDue, entryFree_iff.mpr hroom, hdone]
    rw [show exec .deferredReply s = _ from whenDue_of_due hr hdue, claimDeferred_of_free (entryFree_iff.mpr hroom) hdone hdef]
    cases k <;> rfl

end Sys2Proof.Machine
end

section
/-! The message link's own events: bytes and gaps, messages as a whole, and the transmitter (chapter 10). -/

namespace Sys2Proof.Machine

theorem handOver_eq_received (r : Request) (s : State) : handOver r s = s.received r := rfl

theorem exec_byte {s : State} (hr : s.running) {b : Byte} {c : Instr} (hc : c ∈ [Instr.byteReceived b, .messageReceived b]) :
    exec c s = .next (takeByte b (gapFirst s)) := by
  simp only [List.mem_cons, List.not_mem_nil, or_false] at hc
  rcases hc with rfl | rfl <;> exact whileRunning_of_running (f := fun s => .next (takeByte b (gapFirst s))) hr

theorem exec_break {s : State} (hr : s.running) : exec .breakEvent s = .next (resetAssembler (gapFirst s)) :=
  whileRunning_of_running (f := fun s => .next (resetAssembler (gapFirst s))) hr

theorem gapFirst_of_due {s : State} (h : gapDue s = true) : gapFirst s = gapEnds s := if_pos h

theorem gapFirst_of_not_due {s : State} (h : gapDue s = false) : gapFirst s = s := if_neg (by simp [h])

theorem gapDue_of_late {s : State} {last : Time} (hasm : s.ml.asm ≠ .waiting) (hlast : s.ml.lastByte = some last)
    (hlate : 4000 < elapsed s.timeBase last) : gapDue s = true := by
  simp [gapDue, hasm, hlast, gapTicks, hlate]

/-- The gap of a message whose type and tag have been received (R163, R164). -/
theorem gapEnds_of_started {s : State} (hasm : s.ml.asm ∈ [AsmState.header, .payload]) (hlen : 2 ≤ s.ml.partialMsg.length) :
    gapEnds s = (resetAssembler s).received ⟨s.ml.partialMsg.getD 0 0, s.ml.partialMsg.getD 1 0, [], .malformed⟩ := by
  simp only [List.mem_cons, List.not_mem_nil, or_false] at hasm
  rcases hasm with hasm | hasm <;> simp only [gapEnds, hasm] <;> exact if_pos hlen

/-- Any other gap leaves the assembler WAITING (R163). -/
theorem gapEnds_of_not_started {s : State} (h : ¬ (s.ml.asm ∈ [AsmState.header, .payload] ∧ 2 ≤ s.ml.partialMsg.length)) :
    gapEnds s = resetAssembler s := by
  cases hasm : s.ml.asm with
  | waiting | discarding => simp only [gapEnds, hasm]
  | header | payload =>
    simp only [gapEnds, hasm]
    exact if_neg fun hlen => h ⟨by simp [hasm], hlen⟩

theorem gapEnds_eq (s : State) : gapEnds s =
    if s.ml.asm ∈ [AsmState.header, .payload] ∧ 2 ≤ s.ml.partialMsg.length then
      (resetAssembler s).received ⟨s.ml.partialMsg.getD 0 0, s.ml.partialMsg.getD 1 0, [], .malformed⟩
    else resetAssembler s := by
  split
  next h => exact gapEnds_of_started h.1 h.2
  next h => exact gapEnds_of_not_started h

/-- A message handed over leaves the assembler as it is (R165). -/
theorem received_assembler (s : State) (r : Request) :
    (s.received r).ml.asm = s.ml.asm ∧ (s.received r).ml.partialMsg = s.ml.partialMsg ∧
      (s.received r).ml.lastByte = s.ml.lastByte ∧ (s.received r).timeBase = s.timeBase ∧
      (s.received r).resetAsserted = s.resetAsserted := by
  simp only [State.received]
  split <;> exact ⟨rfl, rfl, rfl, rfl, rfl⟩

/-- A gap leaves the assembler WAITING with no partial message (R163). -/
theorem gapEnds_waits (s : State) :
    (gapEnds s).ml.asm = .waiting ∧ (gapEnds s).ml.partialMsg = [] ∧ (gapEnds s).timeBase = s.timeBase := by
  rw [gapEnds_eq]
  split
  · obtain ⟨hasm, hpartial, -, htime, -⟩ := received_assembler (resetAssembler s)
      ⟨s.ml.partialMsg.getD 0 0, s.ml.partialMsg.getD 1 0, [], .malformed⟩
    exact ⟨hasm, hpartial, htime⟩
  · exact ⟨rfl, rfl, rfl⟩

theorem resetAssembler_of_waiting {s : State} (hasm : s.ml.asm = .waiting) (hpartial : s.ml.partialMsg = []) :
    resetAssembler s = s := by
  rw [resetAssembler, ← hasm, ← hpartial]
  rfl

theorem takeByte_of_waiting {s : State} (h : s.ml.asm = .waiting) (b : Byte) : takeByte b s = setAssembler .header [b] s := by
  simp only [takeByte, h]

theorem takeByte_of_discarding {s : State} (h : s.ml.asm = .discarding) (b : Byte) :
    takeByte b s = setAssembler .discarding [] s := by
  simp only [takeByte, h]

theorem takeByte_of_header {s : State} (h : s.ml.asm = .header) (b : Byte) : takeByte b s = headerByte b s := by
  simp only [takeByte, h]

theorem takeByte_of_payload {s : State} (h : s.ml.asm = .payload) (b : Byte) : takeByte b s = payloadByte b s := by
  simp only [takeByte, h]

/-- A header byte before the fourth (R162). -/
theorem headerByte_of_short {s : State} {b : Byte} (h : (s.ml.partialMsg ++ [b]).length < 4) :
    headerByte b s = setAssembler .header (s.ml.partialMsg ++ [b]) s := if_pos h

/-- The fourth byte declares more than a message may carry (R164). -/
theorem headerByte_of_tooLong {s : State} {b : Byte} (h : 4 ≤ (s.ml.partialMsg ++ [b]).length)
    (hlen : 2048 < declaredLength (s.ml.partialMsg ++ [b])) :
    headerByte b s = (setAssembler .discarding [] s).received (requestOf (s.ml.partialMsg ++ [b]) [] .tooLong) :=
  (if_neg h.not_gt).trans (if_pos hlen)

/-- The fourth byte declares an empty payload (R162). -/
theorem headerByte_of_empty {s : State} {b : Byte} (h : 4 ≤ (s.ml.partialMsg ++ [b]).length)
    (hlen : declaredLength (s.ml.partialMsg ++ [b]) = 0) :
    headerByte b s = (setAssembler .waiting [] s).received (requestOf (s.ml.partialMsg ++ [b]) [] .none) :=
  (if_neg h.not_gt).trans ((if_neg (by simp [maxPayload, hlen])).trans (if_pos hlen))

/-- The fourth byte declares a payload (R162). -/
theorem headerByte_of_payload {s : State} {b : Byte} (h : 4 ≤ (s.ml.partialMsg ++ [b]).length)
    (hone : 1 ≤ declaredLength (s.ml.partialMsg ++ [b])) (hlen : declaredLength (s.ml.partialMsg ++ [b]) ≤ 2048) :
    headerByte b s = setAssembler .payload (s.ml.partialMsg ++ [b]) s :=
  (if_neg h.not_gt).trans ((if_neg (not_lt.mpr hlen)).trans (if_neg (by omega)))

theorem payloadByte_of_more {s : State} {b : Byte}
    (h : (s.ml.partialMsg ++ [b]).length < 4 + declaredLength (s.ml.partialMsg ++ [b])) :
    payloadByte b s = setAssembler .payload (s.ml.partialMsg ++ [b]) s := if_pos h

theorem payloadByte_of_last {s : State} {b : Byte}
    (h : 4 + declaredLength (s.ml.partialMsg ++ [b]) ≤ (s.ml.partialMsg ++ [b]).length) :
    payloadByte b s = (setAssembler .waiting [] s).received
      (requestOf (s.ml.partialMsg ++ [b]) ((s.ml.partialMsg ++ [b]).drop 4) .none) := if_neg h.not_gt

/-- Settles O37: the assembler's states one by one, and the gap that comes first. -/
theorem assemblerTakesByte : Obligations.AssemblerTakesByte := by
  refine ⟨fun s b c hc hr hgap => ?_, fun s hr => ?_⟩
  · rw [exec_byte hr hc, gapFirst_of_not_due hgap]
    refine ⟨fun h => ?_, fun h => ?_, fun h => ?_, fun h => ?_⟩
    · rw [takeByte_of_waiting h]
      rfl
    · rw [takeByte_of_discarding h]
      rfl
    · rw [takeByte_of_header h]
      exact ⟨fun hl => congrArg _ (headerByte_of_short hl), fun hl hd => congrArg _ (headerByte_of_tooLong hl hd),
        fun hl hd => congrArg _ (headerByte_of_empty hl hd), fun hl h1 hd => congrArg _ (headerByte_of_payload hl h1 hd)⟩
    · rw [takeByte_of_payload h]
      exact ⟨fun hl => congrArg _ (payloadByte_of_more hl), fun hl => congrArg _ (payloadByte_of_last hl)⟩
  · refine ⟨fun last hlast hlate => ?_, fun hgap => ?_, fun hgap => ?_⟩
    · have hexec (hasm : s.ml.asm ≠ .waiting) : exec .gapEvent s = .next (settle (gapEnds s)) :=
        whenDue_of_due hr (gapDue_of_late hasm hlast hlate)
      refine ⟨fun hasm hlen => ?_, fun h => ?_⟩
      · rw [hexec (by rintro hw; simp [hw] at hasm), gapEnds_of_started hasm hlen]
        rfl
      · rw [hexec, gapEnds_of_not_started]
        · rfl
        · rintro ⟨hasm, hlen⟩
          rcases h with h | ⟨-, h⟩
          · simp [h] at hasm
          · omega
        · rintro hw
          simp [hw] at h
    · rw [exec_break hr, gapFirst_of_not_due hgap]
      rfl
    · obtain ⟨hasm, hpartial, htime⟩ := gapEnds_waits s
      refine ⟨?_, fun b c hc => ?_⟩
      · rw [exec_break hr, gapFirst_of_due hgap, resetAssembler_of_waiting hasm hpartial, gapEnds_eq]
        rfl
      · rw [exec_byte hr hc, gapFirst_of_due hgap, takeByte_of_waiting hasm, setAssembler, State.now, htime, gapEnds_eq]
        rfl

/-- Bytes that arrive together find no gap between them (R163). -/
theorem gapDue_of_now {s : State} (h : s.ml.lastByte = some s.timeBase) : gapDue s = false := by
  simp [gapDue, h, elapsed, gapTicks]

theorem gapDue_setAssembler (a : AsmState) (p : List Byte) (s : State) : gapDue (setAssembler a p s) = false :=
  gapDue_of_now rfl

theorem setAssembler_setAssembler (a a' : AsmState) (p p' : List Byte) (s : State) :
    setAssembler a p (setAssembler a' p' s) = setAssembler a p s := rfl

theorem feed_cons {s : State} (hr : s.running) (b : Byte) (t : List Byte) :
    s.feed (b :: t) = (takeByte b (gapFirst s)).feed t := by
  rw [State.feed, exec_byte hr (b := b) (by simp)]

theorem feed_setAssembler {s : State} (hr : s.running) (a : AsmState) (p : List Byte) (b : Byte) (t : List Byte) :
    (setAssembler a p s).feed (b :: t) = (takeByte b (setAssembler a p s)).feed t := by
  rw [feed_cons (s := setAssembler a p s) (by exact hr), gapFirst_of_not_due (gapDue_setAssembler a p s)]

/-- The four bytes of a header. -/
def headerOf (type tag : Byte) (n : Nat) : List Byte := [type, tag] ++ leBytes 2 n

theorem declaredLength_headerOf (type tag : Byte) {n : Nat} (h : n < 65536) (rest : List Byte) :
    declaredLength (headerOf type tag n ++ rest) = n := by
  simp only [declaredLength, headerOf, leBytes, fieldAt, List.cons_append, List.nil_append, List.drop_succ_cons,
    List.drop_zero, List.take_succ_cons, List.take_zero, leNat, BitVec.toNat_ofNat]
  omega

/-- The assembler after the first three bytes of a header. -/
def headerBegun (type tag : Byte) (n : Nat) (s : State) : State := setAssembler .header [type, tag, BitVec.ofNat 8 n] s

/-- The first three bytes of a header from WAITING (R162). -/
theorem feed_header {s : State} (hr : s.running) (hasm : s.ml.asm = .waiting) (type tag : Byte) (n : Nat)
    (rest : List Byte) : s.feed (headerOf type tag n ++ rest) =
      (headerByte (BitVec.ofNat 8 (n / 256)) (headerBegun type tag n s)).feed rest := by
  have hgap : gapDue s = false := by simp [gapDue, hasm]
  simp only [headerOf, leBytes, List.cons_append, List.nil_append]
  rw [feed_cons hr, gapFirst_of_not_due hgap, takeByte_of_waiting hasm]
  iterate 2
    rw [feed_setAssembler hr, takeByte_of_header rfl, headerByte_of_short (by simp [setAssembler]), setAssembler_setAssembler]
  rw [feed_setAssembler hr, takeByte_of_header rfl]
  rfl

/-- The bytes of a payload, the last of which hands the message over (R162). -/
theorem feed_payload {s : State} (hr : s.running) (type tag : Byte) {n : Nat} (hn : n < 65536) (before rest : List Byte)
    (hrest : rest ≠ []) (hlen : before.length + rest.length = n) :
    (setAssembler .payload (headerOf type tag n ++ before) s).feed rest =
      .next ((setAssembler .waiting [] s).received ⟨type, tag, before ++ rest, .none⟩) := by
  induction rest generalizing before with
  | nil => exact absurd rfl hrest
  | cons b t ih =>
    have hbytes : (setAssembler .payload (headerOf type tag n ++ before) s).ml.partialMsg ++ [b] =
        headerOf type tag n ++ (before ++ [b]) := List.append_assoc ..
    have hlength : (headerOf type tag n ++ (before ++ [b])).length = 4 + (before.length + 1) := by
      simp [headerOf, leBytes]
      omega
    rw [feed_setAssembler hr, takeByte_of_payload rfl]
    rw [List.length_cons] at hlen
    cases t with
    | nil =>
      rw [payloadByte_of_last (by rw [hbytes, declaredLength_headerOf type tag hn, hlength]; simp at hlen; omega), hbytes]
      rfl
    | cons b' t' =>
      rw [payloadByte_of_more (by rw [hbytes, declaredLength_headerOf type tag hn, hlength]; simp at hlen; omega), hbytes,
        setAssembler_setAssembler, ih (before ++ [b]) (by simp) (by simp at hlen ⊢; omega), List.append_assoc]
      rfl

/-- Bytes that are discarded (R164). -/
theorem feed_discarding {s : State} (hr : s.running) (r : Request) (more : List Byte) :
    ((setAssembler .discarding [] s).received r).feed more = .next ((setAssembler .discarding [] s).received r) := by
  induction more with
  | nil => rfl
  | cons b t ih =>
    obtain ⟨hasm, hpartial, hlast, htime, hreset⟩ := received_assembler (setAssembler .discarding [] s) r
    have hgap : gapDue ((setAssembler .discarding [] s).received r) = false :=
      gapDue_of_now (hlast.trans (congrArg some htime.symm))
    have hsame : setAssembler .discarding [] ((setAssembler .discarding [] s).received r) =
        (setAssembler .discarding [] s).received r := by
      simp only [State.received]
      split <;> rfl
    rw [feed_cons (hreset.trans hr), gapFirst_of_not_due hgap, takeByte_of_discarding hasm, hsame, ih]

/-- Settles O38: the header, then the payload byte by byte, or what is discarded. -/
theorem messageIsAssembled : Obligations.MessageIsAssembled := by
  refine fun s type tag hr hasm => ⟨fun payload hlen => ?_, fun n more hlong hn => ?_⟩
  · have hdeclared := declaredLength_headerOf type tag (n := payload.length) (by omega) []
    rw [List.append_nil] at hdeclared
    rw [show [type, tag] ++ leBytes 2 payload.length ++ payload = headerOf type tag payload.length ++ payload from rfl,
      feed_header hr hasm]
    cases payload with
    | nil =>
      rw [headerByte_of_empty (s := headerBegun type tag ([] : List Byte).length s) (by simp [headerBegun, setAssembler]) hdeclared]
      rfl
    | cons b t =>
      rw [headerByte_of_payload (s := headerBegun type tag (b :: t).length s)
        (by simp [headerBegun, setAssembler]) (hdeclared.ge.trans' (by simp)) (hdeclared.trans_le hlen)]
      exact feed_payload hr type tag (by omega) [] (b :: t) (by simp) (by simp)
  · have hdeclared := declaredLength_headerOf type tag hn []
    rw [List.append_nil] at hdeclared
    rw [show [type, tag] ++ leBytes 2 n ++ more = headerOf type tag n ++ more from rfl, feed_header hr hasm,
      headerByte_of_tooLong (s := headerBegun type tag n s) (by simp [headerBegun, setAssembler]) (hlong.trans_eq hdeclared.symm)]
    exact feed_discarding hr _ more

end Sys2Proof.Machine
end

section
/-! The transmitter, the claims of deferred replies and the notice update (sections 10.4 to 10.6). -/

namespace Sys2Proof.Machine

/-- The link after the completed replies of some operations have claimed entries (R167). -/
def MessageLink.afterClaims (m : MessageLink) (ks : List DeferredKind) : MessageLink :=
  { m with
    replies := m.replies ++ m.completedReplies ks
    doneOrder := m.doneOrder.drop ks.length
    defProfile := if .profileApply ∈ ks then .empty else m.defProfile
    defLut := if .lutCommit ∈ ks then .empty else m.defLut
    defReset := if .pipelineReset ∈ ks then .empty else m.defReset }

theorem afterClaims_nil (m : MessageLink) : m.afterClaims [] = m := by
  simp [MessageLink.afterClaims, MessageLink.completedReplies]

theorem afterClaims_deferred (m : MessageLink) {ks : List DeferredKind} {j : DeferredKind} (h : j ∉ ks) :
    (m.afterClaims ks).deferred j = m.deferred j := by
  cases j <;> simp [MessageLink.afterClaims, MessageLink.deferred, h]

theorem completedReplies_congr {m m' : MessageLink} {ks : List DeferredKind} (h : ∀ k ∈ ks, m'.deferred k = m.deferred k) :
    m'.completedReplies ks = m.completedReplies ks :=
  List.filterMap_congr fun k hk => by rw [h k hk]

/-- One claim after another (R167). -/
theorem afterClaims_cons (m : MessageLink) {k : DeferredKind} {ks : List DeferredKind} (h : k ∉ ks) :
    (m.afterClaims [k]).afterClaims ks = m.afterClaims (k :: ks) := by
  have hreplies : (m.afterClaims [k]).completedReplies ks = m.completedReplies ks :=
    completedReplies_congr fun j hj => afterClaims_deferred m (by rintro hk; simp at hk; exact h (hk ▸ hj))
  have hcons : m.completedReplies (k :: ks) = m.completedReplies [k] ++ m.completedReplies ks := by
    rw [← List.singleton_append]
    exact List.filterMap_append
  have hmark (j : DeferredKind) (d : Deferred) :
      (if j ∈ ks then Deferred.empty else if j ∈ [k] then .empty else d) = if j ∈ k :: ks then .empty else d := by
    by_cases hj : j ∈ ks <;> simp [hj]
  rw [MessageLink.afterClaims, hreplies]
  simp only [MessageLink.afterClaims, List.drop_drop, hmark, hcons, List.append_assoc, List.length_cons, List.length_nil]
  rw [Nat.add_comm]

/-- The first completed reply claims a free entry (R166, R167). -/
theorem claimDeferred_eq_afterClaims {s : State} {k : DeferredKind} {rest : List DeferredKind} {tag : Byte} {st : Status}
    (hfree : s.entryFree = true) (horder : s.ml.doneOrder = k :: rest) (hk : s.ml.deferred k = .completed tag st) :
    claimDeferred s = s.setMl (s.ml.afterClaims [k]) := by
  rw [claimDeferred_of_free hfree horder hk]
  have hreply : s.ml.completedReplies [k] = [⟨tag, st, 0, []⟩] := by simp [MessageLink.completedReplies, hk]
  cases k <;> simp [MessageLink.afterClaims, hreply, horder, pushReply, State.setMl, MessageLink.setDeferred]

theorem claimDeferred_of_nil {s : State} (h : s.ml.doneOrder = []) : claimDeferred s = s := by
  simp only [claimDeferred, h]

/-- Several claims: as many as there are free entries (R167). -/
theorem iterate_claimDeferred (n : Nat) {s : State} (hdone : ∀ k ∈ s.ml.doneOrder, ∃ tag st, s.ml.deferred k = .completed tag st)
    (hnodup : s.ml.doneOrder.Nodup) :
    claimDeferred^[n] s = s.setMl (s.ml.afterClaims (s.ml.doneOrder.take (min n (4 - s.ml.replies.length)))) := by
  induction n generalizing s with
  | zero =>
    rw [Nat.zero_min, List.take_zero, afterClaims_nil]
    rfl
  | succ n ih =>
    by_cases hfree : s.entryFree = true
    · have hroom : s.ml.replies.length < 4 := entryFree_iff.mp hfree
      match horder : s.ml.doneOrder with
      | [] =>
        rw [Function.iterate_fixed (claimDeferred_of_nil horder), List.take_nil, afterClaims_nil]
        rfl
      | k :: rest =>
        obtain ⟨tag, st, hk⟩ := hdone k (by simp [horder])
        rw [horder, List.nodup_cons] at hnodup
        obtain ⟨hnotin, hrest⟩ := hnodup
        have horder' : (s.setMl (s.ml.afterClaims [k])).ml.doneOrder = rest := by
          simp [MessageLink.afterClaims, horder]
        have hlen : (s.setMl (s.ml.afterClaims [k])).ml.replies.length = s.ml.replies.length + 1 := by
          simp [MessageLink.afterClaims, MessageLink.completedReplies, hk]
        have hdeferred : ∀ j ∈ rest, (s.setMl (s.ml.afterClaims [k])).ml.deferred j = s.ml.deferred j := fun j hj =>
          afterClaims_deferred s.ml (by rintro hjk; simp at hjk; exact hnotin (hjk ▸ hj))
        have htake : min (n + 1) (4 - s.ml.replies.length) = min n (4 - (s.ml.replies.length + 1)) + 1 := by omega
        rw [Function.iterate_succ_apply, claimDeferred_eq_afterClaims hfree horder hk, ih, horder', hlen, htake,
          List.take_succ_cons, ← afterClaims_cons _ (fun h => hnotin (List.mem_of_mem_take h))]
        · rfl
        · rw [horder']
          exact fun j hj => by rw [hdeferred j hj]; exact hdone j (by simp [horder, hj])
        · rwa [horder']
    · have hfull : 4 - s.ml.replies.length = 0 := by
        have := mt entryFree_iff.mpr hfree
        omega
      rw [Function.iterate_fixed (claimDeferred_of_full (by simpa using hfree)), hfull, Nat.min_zero, List.take_zero,
        afterClaims_nil]
      rfl

theorem doneOrder_length {l : List DeferredKind} (h : l.Nodup) : l.length ≤ 3 := by
  have hsub : l ⊆ [.profileApply, .lutCommit, .pipelineReset] := fun k _ => by cases k <;> simp
  exact (List.subperm_of_subset h hsub).length_le

/-- The records in the order of completion are completed, each in the order once (R167). -/
def MessageLink.doneHolds (m : MessageLink) : Prop :=
  (∀ k ∈ m.doneOrder, ∃ tag st, m.deferred k = .completed tag st) ∧ m.doneOrder.Nodup

/-- The end of an event: the claims, then the choice (R167, R168). -/
theorem settle_eq_afterClaims {s : State} (h : s.ml.doneHolds) :
    settle s = chooseMessage (s.setMl (s.ml.afterClaims (s.ml.doneOrder.take (4 - s.ml.replies.length)))) := by
  obtain ⟨hdone, hnodup⟩ := h
  have hlen := doneOrder_length hnodup
  have htake : s.ml.doneOrder.take (min 3 (4 - s.ml.replies.length)) = s.ml.doneOrder.take (4 - s.ml.replies.length) := by
    rw [← List.take_take, List.take_of_length_le]
    exact (List.length_take_le' _ _).trans hlen
  rw [settle, show drainDeferred s = claimDeferred^[3] s from rfl, iterate_claimDeferred 3 hdone hnodup, htake]

theorem doneHolds_of_deferredHolds {s : State} (h : s.deferredHolds) : s.ml.doneHolds := by
  obtain ⟨-, -, -, hdone, hnodup⟩ := h
  exact ⟨fun k hk => (hdone k).mp hk, hnodup⟩

theorem drop_length_take {α : Type} (l : List α) (n : Nat) : l.drop (l.take n).length = l.drop n := by
  rw [List.length_take]
  rcases Nat.le_total n l.length with h | h
  · rw [Nat.min_eq_left h]
  · rw [Nat.min_eq_right h, List.drop_length, List.drop_of_length_le h]

/-- The pending notice that goes out first (R168). -/
theorem firstNotice_eq_some {m : MessageLink} {i : Fin 5} {c : NoticeMsg} (he : m.enables[i] = true) (hc : m.notices[i] = some c)
    (hlow : ∀ j < i, m.enables[j] = true → m.notices[j] = none) : m.firstNotice = some (i, c) := by
  rw [MessageLink.firstNotice, ← Fin.findSome?_eq_findSome?_finRange, Fin.findSome?_eq_some_iff]
  refine ⟨i, by rw [if_pos he, hc]; rfl, fun j hj => ?_⟩
  split
  next hej => rw [hlow j hj hej]; rfl
  next => rfl

theorem firstNotice_eq_none {m : MessageLink} (h : ∀ i : Fin 5, m.enables[i] = true → m.notices[i] = none) :
    m.firstNotice = none := by
  rw [MessageLink.firstNotice, ← Fin.findSome?_eq_findSome?_finRange, Fin.findSome?_eq_none_iff]
  intro i
  split
  next he => rw [h i he]; rfl
  next => rfl

theorem chooseMessage_of_busy {s : State} (h : s.ml.tx ≠ .idle) : chooseMessage s = s := by
  simp only [chooseMessage]
  split
  next htx => exact absurd htx h
  all_goals rfl

theorem chooseMessage_of_reply {s : State} (h : s.ml.tx = .idle) (hreplies : s.ml.replies ≠ []) :
    chooseMessage s = s.setMl { s.ml with tx := .reply s.timeBase } := by
  obtain ⟨r, rest, hr⟩ := List.exists_cons_of_ne_nil hreplies
  simp only [chooseMessage, h, hr, State.now]

theorem chooseMessage_of_notice {s : State} {i : Fin 5} {c : NoticeMsg} (h : s.ml.tx = .idle) (hreplies : s.ml.replies = [])
    (hn : s.ml.firstNotice = some (i, c)) : chooseMessage s =
      s.setMl { s.ml with tx := .notice c s.timeBase, notices := s.ml.notices.set i.val none i.isLt } := by
  simp only [chooseMessage, h, hreplies, hn, State.now]

theorem chooseMessage_of_nothing {s : State} (h : s.ml.tx = .idle) (hreplies : s.ml.replies = [])
    (hn : s.ml.firstNotice = none) : chooseMessage s = s := by
  simp only [chooseMessage, h, hreplies, hn]

/-- A notice of a disabled kind is not raised (R169). -/
theorem raise_of_disabled {n : Notice} {s : State} (h : s.ml.enables[n.kind] = false) : raise n s = s :=
  if_neg (by simp [h])

/-- A notice of an enabled kind updates the pending copy (R169). -/
theorem raise_of_enabled {n : Notice} {s : State} (h : s.ml.enables[n.kind] = true) : raise n s =
    s.setMl { s.ml with notices := s.ml.notices.set n.kind.val (some (raisedCopy n s.ml.notices[n.kind])) n.kind.isLt } :=
  if_pos h

/-- A reply that has gone out frees its entry, and the transmitter chooses again (R168). -/
theorem exec_replySent {s : State} (hr : s.running) (hdue : replySentDue s = true) :
    exec .replySent s = .next (chooseMessage (txIdle (s.setMl { s.ml with replies := s.ml.replies.drop 1 }))) :=
  (if_neg (by simp [show s.resetAsserted = false from hr])).trans (if_pos hdue)

/-- A notice that has gone out is done, and the transmitter chooses again (R168). -/
theorem exec_noticeSent {s : State} (hr : s.running) (hdue : noticeSentDue s = true) :
    exec .noticeSent s = .next (chooseMessage (txIdle s)) :=
  (if_neg (by simp [show s.resetAsserted = false from hr])).trans (if_pos hdue)

/-- Settles O39: the ends of transmission, the claims by `settle_eq_afterClaims`, the choice and the update. -/
theorem transmitterChooses : Obligations.TransmitterChooses := by
  refine ⟨fun s hr => ⟨fun since q rest htx hq hend => ?_, fun since m htx hend => ?_⟩,
    fun s => ⟨fun hdone => ?_, fun h => ?_, chooseMessage_of_busy, fun htx => ⟨chooseMessage_of_reply htx, fun hnone =>
      ⟨fun h => chooseMessage_of_nothing htx hnone (firstNotice_eq_none h),
        fun i m he hm hlow => chooseMessage_of_notice htx hnone (firstNotice_eq_some he hm hlow)⟩⟩⟩,
    fun s n => ⟨by cases n <;> rfl, raise_of_disabled, fun he => ⟨fun hnone => ?_, fun c hc => ?_⟩⟩⟩
  · have hdue : replySentDue s = true := by
      simp [replySentDue, htx, State.txEnd, hq, hend, byteTicks]
    rw [exec_replySent hr hdue, hq]
    rfl
  · have hdue : noticeSentDue s = true := by
      simp [noticeSentDue, htx, State.txEnd, hend, byteTicks]
    rw [exec_noticeSent hr hdue]
    rfl
  · rw [settle, show drainDeferred s = claimDeferred^[3] s from rfl, Function.iterate_fixed (claimDeferred_of_nil hdone)]
  · rw [settle_eq_afterClaims (doneHolds_of_deferredHolds h), MessageLink.afterClaims, drop_length_take]
    rfl
  · rw [raise_of_enabled he, hnone]
    rfl
  · rw [raise_of_enabled he, hc]
    rfl

end Sys2Proof.Machine
end

section
/-! The colour path (sections 6.3 and 6.4). -/

namespace Sys2Proof.Machine

theorem bankEntry_le (bank : List Colour) (comp : Colour → BitVec 12) (i : Nat) : bankEntry bank comp i ≤ 4095 :=
  Nat.le_of_lt_succ (comp (bank.getD i ⟨0, 0, 0⟩)).isLt

/-- The rounded weighted mean of two entries (R114). -/
theorem weightedMean_bounds {lo hi f : Nat} (hlo : lo ≤ 4095) (hhi : hi ≤ 4095) (hf : f < 4) :
    let mean4 := lo * (4 - f) + hi * f + 2
    4 * (mean4 / 4) ≤ mean4 ∧ mean4 < 4 * (mean4 / 4) + 4 ∧ min lo hi ≤ mean4 / 4 ∧ mean4 / 4 ≤ max lo hi ∧
      mean4 / 4 ≤ 4095 ∧ (f = 0 → mean4 / 4 = lo) := by
  interval_cases f <;> omega

theorem maskComponent_d10_bit (m : BitVec 10) (x i : Nat) :
    (maskComponent .d10 m x).getLsbD i = (x.testBit i && m.getLsbD i) := by
  simp only [maskComponent, BitVec.getLsbD_and, BitVec.getLsbD_ofNat]
  cases hm : m.getLsbD i with
  | false => simp
  | true => simp [BitVec.lt_of_getLsbD hm]

theorem maskComponent_d8_bit (m : BitVec 10) (x i : Nat) :
    (maskComponent .d8 m x).getLsbD i = (x.testBit i && m.getLsbD i && decide (i < 8)) := by
  have hlow : (255 : BitVec 10).getLsbD i = decide (i < 8) := by
    rcases Nat.lt_or_ge i 10 with hi | hi
    · interval_cases i <;> rfl
    · rw [BitVec.getLsbD_of_ge _ _ hi, decide_eq_false (by omega)]
  have hd10 := maskComponent_d10_bit m x i
  simp only [maskComponent, BitVec.getLsbD_and, hlow] at hd10 ⊢
  rw [← Bool.and_assoc, hd10]

/-- The entries of the identity table, in channel 0 (R119). -/
theorem bankEntry_identity {i : Nat} (h : i < 257) : bankEntry identityBank Three.c0 i = min 4095 (16 * i) := by
  rw [bankEntry, List.getD_eq_getElem?_getD, identityBank_getElem? h, Option.getD_some, BitVec.toNat_ofNat]
  omega

/-- The identity table is four times the component, but for the clamp of its last entry (R119). -/
theorem lutMap_identity (v : BitVec 10) :
    lutMap identityBank Three.c0 v.toNat = if v.toNat = 1023 then 4091 else 4 * v.toNat := by
  have hv := v.isLt
  have hf : v.toNat % 4 < 4 := Nat.mod_lt _ (by omega)
  have hdiv := Nat.div_add_mod v.toNat 4
  simp only [lutMap]
  rw [bankEntry_identity (by omega), bankEntry_identity (by omega)]
  generalize v.toNat / 4 = i at *
  generalize v.toNat % 4 = f at *
  interval_cases f <;> split <;> omega

/-- A component that passes the table as four times itself leaves at depth 10 as it came (R116, R117). -/
theorem finishComponent_d10 (v : BitVec 10) {x : Nat} (h : min 1023 ((x + 2) / 4) = v.toNat) : finishComponent .d10 1023 x = v := by
  rw [finishComponent, reduceDepth, h, maskComponent, BitVec.ofNat_toNat, BitVec.setWidth_eq]
  exact BitVec.and_allOnes

/-- Settles O60: each stage of the path on its own. -/
theorem colourPathRounds : Obligations.ColourPathRounds := by
  refine ⟨fun bank comp v => ?_, fun x hx => ?_, fun m x i _ => ⟨maskComponent_d10_bit m x i, fun _ => maskComponent_d8_bit m x i⟩,
    fun v => ⟨lutMap_identity v, fun bank => rfl, fun lut => finishComponent_d10 v ?_⟩, fun set bank p => ⟨rfl, rfl⟩⟩
  · exact weightedMean_bounds (bankEntry_le ..) (bankEntry_le ..) (Nat.mod_lt _ (by omega))
  · simp only [reduceDepth]
    omega
  · have hv := v.isLt
    cases lut with
    | false =>
      simp only [out12, Bool.false_eq_true, if_false]
      omega
    | true =>
      rw [out12, if_pos rfl, show State.reset.cs.active = identityBank from rfl, lutMap_identity]
      split <;> omega

end Sys2Proof.Machine
end

section
/-! A line stored, and a strip sent without a splice. -/

namespace Sys2Proof.Machine

theorem frame_state_armed {s : State} (h : s.sp.state.attached = true) : s.sp.state ≠ .unarmed := by
  intro hst
  simp [hst, SourceState.attached] at h

theorem lineEvent_of_taken {s : State} (hatt : s.sp.state.attached = true) (hc : s.sp.cond = .taken) (e : Bool)
    (pixels : List Pixel) : lineEvent e pixels s = takenLine e pixels s := by
  rw [lineEvent, if_neg (frame_state_armed hatt), hc]

/-- A line inside the frame, of the right width if it is the first (R30). -/
theorem takenLine_of_good {s : State} {pixels : List Pixel} (hline : s.sp.lineCount < s.prof.height)
    (hfirst : s.sp.lineCount = 0 → pixels.length = s.prof.width) (e : Bool) :
    takenLine e pixels s = goodLine e pixels s :=
  (if_neg hline.not_ge).trans (if_neg fun ⟨h0, hne⟩ => hne (hfirst h0))

/-- The state after a line has been stored and counted, before the strip is (R2, R30). -/
def State.lineStored (s : State) (k : Slot) (e : Bool) (pixels : List Pixel) : State :=
  { s with
    pool := { s.pool with store := Store.writeLine s.pool.store k s.sp.lineCount s.prof.width pixels }
    sp := { s.sp with
      lineCount := s.sp.lineCount + 1
      stripErr := if s.sp.lineCount % 8 = 7 then false else s.sp.stripErr || e || decide (pixels.length ≠ s.prof.width)
      firstPixels := if s.sp.lineCount = 0 then pixels.length else s.sp.firstPixels } }

/-- The line count below its cap (R26). -/
theorem countLine_of_room {s : State} (h : s.sp.lineCount < s.prof.height + 1) :
    countLine s = s.setSp { s.sp with lineCount := s.sp.lineCount + 1 } := by
  simp only [countLine, if_pos h]

/-- A stored line, and at the end of a strip the strip-filled event (R30, R31). -/
theorem goodLine_eq {s : State} {k : Slot} (hk : s.pool.filling = some k) (hline : s.sp.lineCount < s.prof.height)
    (e : Bool) (pixels : List Pixel) : goodLine e pixels s =
      if s.sp.lineCount % 8 = 7 then
        stripFilled (s.sp.stripErr || e || decide (pixels.length ≠ s.prof.width)) (s.lineStored k e pixels)
      else s.lineStored k e pixels := by
  have hstore : storeLine s.sp.lineCount pixels s =
      s.setPool { s.pool with store := Store.writeLine s.pool.store k s.sp.lineCount s.prof.width pixels } := by
    simp only [storeLine, hk]
  simp only [goodLine, hstore]
  rw [countLine_of_room]
  · rfl
  · exact Nat.lt_succ_of_lt hline

/-- The record of a slot after a strip of it has been filled (R7). -/
def SlotRec.counted (r : SlotRec) (bad : Bool) : SlotRec :=
  { r with filled := r.filled + 1, bad := if bad then r.bad + 1 else r.bad }

/-- A strip-filled event of the filling slot: the counts, then the judgement (R7, R13). -/
theorem stripFilled_of_filling {s : State} {k : Slot} (hk : s.pool.filling = some k) (bad : Bool) :
    stripFilled bad s =
      if (s.setSlot k ((s.slot k).counted bad)).judges k then
        eligibilityEvent (markEligible k (s.setSlot k ((s.slot k).counted bad)))
      else s.setSlot k ((s.slot k).counted bad) := by
  have hcount : countStrip bad s = s.setSlot k ((s.slot k).counted bad) := by
    simp only [countStrip, hk]
    rfl
  have hfilling : (s.setSlot k ((s.slot k).counted bad)).pool.filling = some k := hk
  simp only [stripFilled, hcount, hfilling]

theorem slot_setSlot_self (s : State) (k : Slot) (r : SlotRec) : (s.setSlot k r).slot k = r := by
  simp [State.slot]

/-- Judging the FILLING slot is the race test (R12, R13). -/
theorem judges_of_filling {s : State} {k : Slot} (hfill : (s.slot k).fill = .filling) :
    s.judges k = true ↔ k ∈ s.pool.cands ∧ (s.slot k).eligible = false ∧ s.prof.race = true ∧
      s.sp.state.healthy = true ∧ ∃ q, s.pool.q = some q ∧ q ≤ (s.slot k).filled := by
  simp only [State.judges, State.isEligible, hfill, State.raceReady, Bool.and_eq_true, List.contains_iff_mem,
    Bool.not_eq_true', and_assoc]
  cases s.pool.q <;> simp

/-- Judging the filling slot after one more strip (R12, R13, R31). -/
theorem judges_counted {s : State} {k : Slot} (hfill : (s.slot k).fill = .filling) (bad : Bool) :
    (s.setSlot k ((s.slot k).counted bad)).judges k = true ↔
      k ∈ s.pool.cands ∧ (s.slot k).eligible = false ∧ s.prof.race = true ∧ s.sp.state.healthy = true ∧
        ∃ q, s.pool.q = some q ∧ q ≤ (s.slot k).filled + 1 := by
  rw [judges_of_filling (by rw [slot_setSlot_self]; exact hfill), slot_setSlot_self]
  rfl

/-- Two line positions with one key are one position (Log 7). -/
theorem Store.key_inj {k k' : Slot} {line line' : Nat} (h : line < 2160) (h' : line' < 2160) :
    Store.key k' line' = Store.key k line ↔ k' = k ∧ line' = line := by
  simp only [Store.key, linesPerSlot, Fin.ext_iff]
  omega

/-- A pixel of the store after a line has been written (R2). -/
theorem pixel_writeLine (st : List StoreRow) (k k' : Slot) {line line' : Nat} (width col : Nat) (pixels : List Pixel)
    (hwf : Store.wf st = true) (h : line < 2160) (h' : line' < 2160) :
    Store.pixel (Store.writeLine st k line width pixels) k' line' col =
      if k' = k ∧ line' = line ∧ col < min width pixels.length then pixels.getD col ⟨0, 0, 0⟩
      else Store.pixel st k' line' col := by
  by_cases hkey : k' = k ∧ line' = line
  · obtain ⟨rfl, rfl⟩ := hkey
    rw [Store.pixel, Store.row_writeLine_self _ _ _ _ _ hwf]
    by_cases hcol : col < min width pixels.length
    · have htake : col < (pixels.take width).length := by simpa using hcol
      rw [if_pos ⟨rfl, rfl, hcol⟩, List.getElem?_append_left htake, List.getElem?_take_of_lt (by omega),
        List.getD_eq_getElem?_getD, List.getElem?_eq_getElem (by omega)]
      rfl
    · have htake : (pixels.take width).length ≤ col := by simp at hcol ⊢; omega
      rw [if_neg (fun hc => hcol hc.2.2), List.getElem?_append_right htake, List.getElem?_drop, Nat.add_sub_cancel' htake]
      rfl
  · rw [Store.pixel, Store.row_writeLine_other _ _ _ _ _ (mt (Store.key_inj h h').mp hkey),
      if_neg (fun hc => hkey ⟨hc.1, hc.2.1⟩)]
    rfl

/-- Settles O47: `goodLine_eq`, with the strip counted where it is full, and the store pixel by pixel. -/
theorem lineIsStored : Obligations.LineIsStored := by
  refine ⟨fun s k e pixels hr hatt hc hk hline hlen hfirst => ?_, fun st k k' line line' width col pixels hwf h h' =>
    pixel_writeLine st k k' width col pixels hwf h h'⟩
  rw [exec_line hr e hlen, lineEvent_of_taken hatt hc, takenLine_of_good hline hfirst, goodLine_eq hk hline]
  refine ⟨fun hmod => ?_, fun hmod hfill hnot => ?_⟩
  · rw [if_neg hmod, State.lineStored, if_neg hmod]
  · rw [if_pos hmod, stripFilled_of_filling (s := s.lineStored k e pixels) hk, if_neg]
    · rw [State.lineStored, if_pos hmod]
      rfl
    · rwa [judges_counted (s := s.lineStored k e pixels) hfill]

/-- The source of a strip is that of R100. -/
theorem stripSource_eq_sourceOf (s : State) (k : Nat) : s.stripSource k = s.pool.sourceOf k := by
  rw [State.stripSource, SlotPool.sourceOf]
  cases s.pool.onScreen with
  | none => rfl
  | some a => cases s.pool.held <;> rfl

/-- A splice check at which no splice is made (R103, R104, R105). -/
theorem spliceCheck_of_no_splice {s : State} {j : Nat} (h : ¬ (s.ps.watchOpen = true ∧ s.prof.tear = .splice ∧
      j ≤ s.prof.spliceLimit ∧ (s.spliceCandidate j).isSome = true)) :
    spliceCheck j s = if s.ps.watchOpen = true ∧ s.prof.tear = .splice ∧ s.prof.spliceLimit < j then closeWatch s else s := by
  rw [spliceCheck]
  by_cases hopen : (s.ps.watchOpen && decide (s.prof.tear = .splice)) = true
  · obtain ⟨hwatch, htear⟩ := by simpa using hopen
    rw [if_pos hopen]
    by_cases hlate : s.prof.spliceLimit < j
    · rw [if_pos hlate, if_pos ⟨hwatch, htear, hlate⟩]
    · rw [if_neg hlate, if_neg (fun hc => hlate hc.2.2)]
      have hnone : s.spliceCandidate j = none := by
        simpa [hwatch, htear, not_lt.mp hlate] using h
      rw [hnone]
  · rw [if_neg hopen, if_neg (fun hc => hopen (by simp [hc.1, hc.2.1]))]

/-- The frame of which strip `k` is substituted: the on-screen one, short of that strip (R101). -/
def SlotPool.substituted (p : SlotPool) (k : Nat) : Option FrameNo :=
  p.onScreen.bind fun a => if k < (p.slot a).filled then none else (p.slot a).frameNo

/-- A ring after the substitution of strip `k` of the on-screen frame (R101, R157). -/
def SlotPool.substitute (p : SlotPool) (k : Nat) (ring : List FrameRec) : List FrameRec :=
  match p.substituted k with
  | some n => ring.map fun r => if r.frameNo = n then r.substitutedOne else r
  | none => ring

/-- A substituted strip reaches the ring only (R101, R157). -/
theorem reportSubstitution_eq (k : Nat) (s : State) :
    reportSubstitution k s = s.setHr (s.pool.substitute k s.hr) := by
  rw [reportSubstitution, SlotPool.substitute, SlotPool.substituted]
  cases s.pool.onScreen with
  | none => rfl
  | some a =>
    dsimp only [Option.bind_some]
    by_cases hfilled : k < (s.pool.slot a).filled
    · rw [if_pos hfilled]
      exact if_pos hfilled
    · rw [if_neg hfilled]
      refine (if_neg hfilled).trans ?_
      rw [State.slot]
      cases (s.pool.slot a).frameNo <;> rfl

theorem opensWatch_iff {k : Nat} {last : Option RefreshKind} :
    (k = 0 ∧ last ≠ some .blank ∧ last ≠ none) ↔ k = 0 ∧ (last = some .new ∨ last = some .repeated) := by
  rcases last with _ | (_ | _ | _) <;> simp

/-- The splice watch after a strip read that makes no splice (R103, R105). -/
def Scheduler.watchAfter (x : Scheduler) (p : Profile) (k : Nat) : Scheduler :=
  if x.watchOpen = true ∧ p.tear = .splice ∧ p.spliceLimit < k then { x with watchOpen := false }
  else if k = 0 ∧ (x.lastKind = some .new ∨ x.lastKind = some .repeated) then { x with watchOpen := true }
  else x

/-- The watch closes past the splice limit and opens after strip 0, never both (R103, R105). -/
theorem openWatch_ps {k : Nat} {s u : State} (hps : u.ps =
      if s.ps.watchOpen = true ∧ s.prof.tear = .splice ∧ s.prof.spliceLimit < k then { s.ps with watchOpen := false }
      else s.ps) : openWatch k u = u.setPs (s.ps.watchAfter s.prof k) := by
  have hsame (h : u.ps = s.ps.watchAfter s.prof k) : u = u.setPs (s.ps.watchAfter s.prof k) := by rw [← h]; rfl
  rw [openWatch]
  by_cases hlate : s.ps.watchOpen = true ∧ s.prof.tear = .splice ∧ s.prof.spliceLimit < k
  · rw [if_pos hlate] at hps
    rw [if_neg (fun h => by omega)]
    exact hsame (by rw [hps, Scheduler.watchAfter, if_pos hlate])
  · rw [if_neg hlate] at hps
    rw [hps]
    by_cases hopen : k = 0 ∧ (s.ps.lastKind = some .new ∨ s.ps.lastKind = some .repeated)
    · rw [if_pos (opensWatch_iff.mpr hopen), Scheduler.watchAfter, if_neg hlate, if_pos hopen]
    · rw [if_neg (mt opensWatch_iff.mp hopen)]
      exact hsame (by rw [hps, Scheduler.watchAfter, if_neg hlate, if_neg hopen])

/-- The state at a strip read, its settings copied at strip 0 (R71, R113). -/
def State.stripReached (s : State) (k : Nat) : State :=
  { s with
    otg := { s.otg with nextStrip := k + 1 }
    cs := if k = 0 then { s.cs with scan := some s.prof.settings } else s.cs }

theorem readStrip_eq (k : Nat) (s : State) : readStrip k s =
    openWatch k (reportSubstitution k (sendStrip k ((spliceCheck k (s.stripReached k)).stripSource k)
      (spliceCheck k (s.stripReached k)))) := by
  have hreach : (if k = 0 then copySettings (s.setOtg { s.otg with nextStrip := k + 1 })
      else s.setOtg { s.otg with nextStrip := k + 1 }) = s.stripReached k := by
    rw [State.stripReached]
    split <;> rfl
  simp only [readStrip, hreach]

theorem stripReached_active (s : State) (k : Nat) : (s.stripReached k).cs.active = s.cs.active := by
  rw [State.stripReached]
  split <;> rfl

theorem stripReached_settings (s : State) (k : Nat) :
    (s.stripReached k).settings = if k = 0 then s.prof.settings else s.settings := by
  rw [State.stripReached]
  split <;> rfl

/-- A strip read that makes no splice, block by block (R71, R100, R101, R103, R105, R113). -/
theorem readStrip_of_no_splice {s : State} {k : Nat} (h : ¬ (s.ps.watchOpen = true ∧ s.prof.tear = .splice ∧
      k ≤ s.prof.spliceLimit ∧ (s.spliceCandidate k).isSome = true)) :
    readStrip k s = (((s.stripReached k).setPanel { s.panel with strip := some ⟨k, s.timeBase, s.pool.sourceOf k,
      (s.stripReached k).settings.depth, stripLines (s.stripReached k) k (s.pool.sourceOf k)⟩ }).setHr
        (s.pool.substitute k s.hr)).setPs (s.ps.watchAfter s.prof k) := by
  have hcheck := spliceCheck_of_no_splice (s := s.stripReached k) h
  have hchecked : spliceCheck k (s.stripReached k) = (s.stripReached k).setPs
      (if s.ps.watchOpen = true ∧ s.prof.tear = .splice ∧ s.prof.spliceLimit < k then { s.ps with watchOpen := false }
      else s.ps) := by
    rw [hcheck]
    by_cases hlate : s.ps.watchOpen = true ∧ s.prof.tear = .splice ∧ s.prof.spliceLimit < k
    · rw [if_pos hlate]
      exact if_pos hlate
    · rw [if_neg hlate]
      exact if_neg hlate
  rw [readStrip_eq, hchecked, stripSource_eq_sourceOf, reportSubstitution_eq, openWatch_ps (s := s) rfl]
  rfl

/-- The lines of a strip read in the settings of the scan (R100, R113). -/
theorem stripLines_stripReached (s : State) (k : Nat) (src : StripSource) : stripLines (s.stripReached k) k src =
    stripLines (s.setCs { s.cs with scan := some (if k = 0 then s.prof.settings else s.settings) }) k src := by
  cases src <;> simp only [stripLines, stripReached_settings, stripReached_active] <;> rfl

/-- Settles O54: `readStrip_of_no_splice`, with the source, the lines and the record written out. -/
theorem stripReadSendsStrip : Obligations.StripReadSendsStrip := by
  intro s hr hdue hno
  have hexec : exec .stripRead s = .next (settle (readStrip s.otg.nextStrip s)) := whenDue_of_due hr hdue
  rw [hexec, readStrip_of_no_splice hno, stripReached_settings]
  refine congrArg (fun u => Host.Outcome.next (settle u)) ?_
  rw [SlotPool.substitute, SlotPool.substituted, stripLines_stripReached]
  dsimp only
  generalize s.pool.sourceOf s.otg.nextStrip = src
  cases hon : s.pool.onScreen with
  | none => cases src <;> rfl
  | some a =>
    dsimp only [Option.bind_some]
    by_cases hfilled : s.otg.nextStrip < (s.slot a).filled
    · rw [if_pos hfilled, if_pos (show s.otg.nextStrip < (s.pool.slot a).filled from hfilled)]
      cases src <;> rfl
    · rw [if_neg hfilled, if_neg (show ¬ s.otg.nextStrip < (s.pool.slot a).filled from hfilled)]
      cases hn : (s.slot a).frameNo with
      | none =>
        rw [show (s.pool.slot a).frameNo = none from hn]
        cases src <;> rfl
      | some n =>
        rw [show (s.pool.slot a).frameNo = some n from hn]
        cases src <;> rfl

end Sys2Proof.Machine
end

section
/-! The acceptance of a Pipeline Reset (section 4.7), block by block. -/

namespace Sys2Proof.Machine

/-- The link after an operation has completed with a status (R167). -/
def MessageLink.complete (m : MessageLink) (k : DeferredKind) (st : Status) : MessageLink :=
  match m.deferred k with
  | .waiting tag => { m.setDeferred k (.completed tag st) with doneOrder := m.doneOrder ++ [k] }
  | .empty | .completed _ _ => m

theorem completeDeferred_eq (k : DeferredKind) (st : Status) (s : State) :
    completeDeferred k st s = s.setMl (s.ml.complete k st) := by
  rw [completeDeferred, MessageLink.complete]
  cases s.ml.deferred k <;> rfl

theorem complete_of_waiting {m : MessageLink} {k : DeferredKind} {tag : Byte} (st : Status) (h : m.deferred k = .waiting tag) :
    m.complete k st = { m.setDeferred k (.completed tag st) with doneOrder := m.doneOrder ++ [k] } := by
  simp only [MessageLink.complete, h]

/-- An operation that completes keeps the order of completion lawful (R167). -/
theorem complete_doneHolds {m : MessageLink} (k : DeferredKind) (st : Status) (h : m.doneHolds) : (m.complete k st).doneHolds := by
  cases hk : m.deferred k with
  | empty | completed => simpa only [MessageLink.complete, hk] using h
  | waiting tag =>
    obtain ⟨hdone, hnodup⟩ := h
    have hnew : k ∉ m.doneOrder := fun hin => by
      obtain ⟨tag', st', hc⟩ := hdone k hin
      simp [hk] at hc
    have hdef : (m.complete k st).deferred = Function.update m.deferred k (.completed tag st) := by
      rw [complete_of_waiting st hk, ← MessageLink.deferred_setDeferred_eq]
      exact MessageLink.deferred_congr rfl rfl rfl
    have horder : (m.complete k st).doneOrder = m.doneOrder ++ [k] := by rw [complete_of_waiting st hk]
    refine ⟨fun j hj => ?_, ?_⟩
    · rw [horder, List.mem_append, List.mem_singleton] at hj
      rw [hdef]
      by_cases hjk : j = k
      · exact ⟨tag, st, by rw [hjk, Function.update_self]⟩
      · obtain ⟨tag', st', hc⟩ := hdone j (hj.resolve_right hjk)
        exact ⟨tag', st', by rw [Function.update_of_ne hjk, hc]⟩
    · rw [horder]
      exact List.nodup_append.mpr ⟨hnodup, List.nodup_singleton k, by rintro a ha b hb rfl; exact hnew (List.mem_singleton.mp hb ▸ ha)⟩

theorem doneHolds_of_nil {m : MessageLink} (h : m.doneOrder = []) : m.doneHolds := by
  simp [MessageLink.doneHolds, h]

/-- The link after a reset's acceptance has aborted a pending application and cancelled a pending commit (R87, R125). -/
def MessageLink.aborted (m : MessageLink) (app commit : Bool) : MessageLink :=
  let m := if app then m.complete .profileApply .aborted else m
  if commit then m.complete .lutCommit .aborted else m

theorem aborted_doneHolds {m : MessageLink} (app commit : Bool) (h : m.doneHolds) : (m.aborted app commit).doneHolds := by
  cases app <;> cases commit
  · exact h
  · exact complete_doneHolds _ _ h
  · exact complete_doneHolds _ _ h
  · exact complete_doneHolds _ _ (complete_doneHolds _ _ h)

/-- The state in which a reset has been accepted: no proposal, no commit and no application (R87). -/
def State.resetAccepted (s : State) : State :=
  { s with
    pc := { s.pc with propState := .none, proposal := none }
    cs := { s.cs with shadowPending := false }
    otg := { s.otg with pendingApp := false }
    ml := s.ml.aborted s.otg.pendingApp s.cs.shadowPending }

/-- A commit that is cancelled, if one is pending (R125). -/
theorem cancelCommit_eq (s : State) : cancelCommit s = (s.setCs { s.cs with shadowPending := false }).setMl
    (if s.cs.shadowPending then s.ml.complete .lutCommit .aborted else s.ml) := by
  rw [cancelCommit]
  cases hc : s.cs.shadowPending with
  | true => exact completeDeferred_eq ..
  | false =>
    have hsame : { s.cs with shadowPending := false } = s.cs := by rw [← hc]
    rw [hsame]
    rfl

/-- The acceptance of a reset, its conditions of the profile controller standing (R87, R127, R136). -/
theorem acceptReset_eq_resetAccepted {s : State} (h : s.profileHolds) : acceptReset s = s.resetAccepted := by
  obtain ⟨hnone, -, -, -, happ, -⟩ := h
  rw [acceptReset_eq, abortApplication, State.resetAccepted, MessageLink.aborted]
  cases hp : s.otg.pendingApp with
  | true =>
    have hst : s.pc.propState = .confirmed := happ.mp hp
    rw [if_pos rfl, completeDeferred_eq, cancelCommit_eq, if_neg (by simp)]
    rfl
  | false =>
    have hotg : { s.otg with pendingApp := false } = s.otg := by rw [← hp]
    rw [if_neg Bool.false_ne_true, cancelCommit_eq, hotg]
    cases hst : s.pc.propState with
    | held =>
      rw [if_pos (by simpa using hst)]
      rfl
    | none =>
      have hpc : { s.pc with propState := .none, proposal := none } = s.pc := by rw [← hst, ← hnone.mp hst]
      rw [if_neg (by simp [hst]), hpc]
      rfl
    | confirmed => simp [happ.mpr hst] at hp

/-- A Pipeline Reset accepted in SCAN waits for the scan's end (R87). -/
theorem pipelineReset_of_scan {s : State} {p : Profile} (r : Request) (hactive : s.pc.active = some p)
    (hreset : s.otg.pendingReset = false) (hscan : s.otg.timing = .scan) (h : s.profileHolds) :
    pipelineReset r s = { s.resetAccepted with
      otg := { s.otg with pendingReset := true, pendingApp := false }
      ml := s.resetAccepted.ml.setDeferred .pipelineReset (.waiting r.tag) } := by
  simp only [pipelineReset, hactive, hreset, acceptReset_eq_resetAccepted h]
  rw [if_neg Bool.false_ne_true, if_pos (by exact hscan)]
  rfl

theorem complete_doneOrder {m : MessageLink} {k j : DeferredKind} {st : Status} (hj : j ≠ k) (h : j ∉ m.doneOrder) :
    j ∉ (m.complete k st).doneOrder := by
  cases hk : m.deferred k with
  | empty | completed => simpa only [MessageLink.complete, hk] using h
  | waiting tag =>
    rw [complete_of_waiting st hk]
    simp [h, hj]

/-- The acceptance of a reset leaves the reset's own record out of the order of completion. -/
theorem aborted_doneOrder {m : MessageLink} (app commit : Bool) (h : m.doneOrder = []) :
    .pipelineReset ∉ (m.aborted app commit).doneOrder := by
  have hm : .pipelineReset ∉ m.doneOrder := by simp [h]
  cases app <;> cases commit
  · exact hm
  · exact complete_doneOrder nofun hm
  · exact complete_doneOrder nofun hm
  · exact complete_doneOrder nofun (complete_doneOrder nofun hm)

theorem complete_keeps (m : MessageLink) (k : DeferredKind) (st : Status) :
    (m.complete k st).slots = m.slots ∧ (m.complete k st).replies = m.replies := by
  rw [MessageLink.complete]
  split
  · cases k <;> exact ⟨rfl, rfl⟩
  all_goals exact ⟨rfl, rfl⟩

theorem aborted_keeps (m : MessageLink) (app commit : Bool) :
    (m.aborted app commit).slots = m.slots ∧ (m.aborted app commit).replies = m.replies := by
  cases app <;> cases commit <;> simp [MessageLink.aborted, complete_keeps]

/-- A record that is written out of the order of completion keeps the order lawful. -/
theorem setDeferred_doneHolds {m : MessageLink} {k : DeferredKind} (d : Deferred) (hk : k ∉ m.doneOrder) (h : m.doneHolds) :
    (m.setDeferred k d).doneHolds := by
  obtain ⟨hdone, hnodup⟩ := h
  have horder : (m.setDeferred k d).doneOrder = m.doneOrder := by simp
  refine ⟨fun j hj => ?_, by rwa [horder]⟩
  rw [horder] at hj
  rw [MessageLink.deferred_setDeferred_eq, Function.update_of_ne (by rintro rfl; exact hk hj)]
  exact hdone j hj

/-- The link after an event (R167, R168): the claims are made, and the choice touches no record of them. -/
theorem settle_link {s : State} {ks : List DeferredKind} (h : s.ml.doneHolds)
    (hks : s.ml.doneOrder.take (4 - s.ml.replies.length) = ks) :
    (settle s).ml.replies = s.ml.replies ++ s.ml.completedReplies ks ∧
      (settle s).ml.doneOrder = s.ml.doneOrder.drop ks.length ∧ (settle s).ml.deferred = (s.ml.afterClaims ks).deferred := by
  rw [settle_eq_afterClaims h, hks]
  refine ⟨by simp [MessageLink.afterClaims], by simp [MessageLink.afterClaims],
    MessageLink.deferred_congr (by simp) (by simp) (by simp)⟩

theorem deferred_aborted_app {m : MessageLink} {a : Byte} (ha : m.defProfile = .waiting a) :
    m.complete .profileApply .aborted = { m with
      defProfile := .completed a .aborted, doneOrder := m.doneOrder ++ [.profileApply] } :=
  complete_of_waiting (k := .profileApply) .aborted ha

theorem deferred_aborted_lut {m : MessageLink} {b : Byte} (hb : m.defLut = .waiting b) :
    m.complete .lutCommit .aborted = { m with defLut := .completed b .aborted, doneOrder := m.doneOrder ++ [.lutCommit] } :=
  complete_of_waiting (k := .lutCommit) .aborted hb

section Acceptance
variable {u : State} {m : MessageLink} {app commit : Bool} {tag : Byte}

/-- The link of a reset's acceptance is lawful, and its order of completion is free of the reset (R167). -/
theorem acceptance_doneHolds (hu : u.ml = (m.aborted app commit).setDeferred .pipelineReset (.waiting tag))
    (hdone : m.doneOrder = []) : u.ml.doneHolds ∧ .pipelineReset ∉ u.ml.doneOrder := by
  rw [hu]
  exact ⟨setDeferred_doneHolds _ (aborted_doneOrder app commit hdone) (aborted_doneHolds app commit (doneHolds_of_nil hdone)),
    by simpa using aborted_doneOrder app commit hdone⟩

/-- The reset's own record waits (R87). -/
theorem acceptance_waits (hu : u.ml = (m.aborted app commit).setDeferred .pipelineReset (.waiting tag))
    (hdone : m.doneOrder = []) : (settle u).ml.defReset = .waiting tag := by
  obtain ⟨hlawful, hfree⟩ := acceptance_doneHolds hu hdone
  obtain ⟨-, -, hdef⟩ := settle_link hlawful rfl
  calc (settle u).ml.defReset = (u.ml.afterClaims (u.ml.doneOrder.take (4 - u.ml.replies.length))).deferred .pipelineReset :=
        congrFun hdef .pipelineReset
    _ = u.ml.deferred .pipelineReset := afterClaims_deferred _ fun hk => hfree (List.mem_of_mem_take hk)
    _ = .waiting tag := by rw [hu]; rfl

/-- Nothing was pending: nothing is answered (R87). -/
theorem acceptance_of_none (hu : u.ml = (m.aborted false false).setDeferred .pipelineReset (.waiting tag))
    (hdone : m.doneOrder = []) : (settle u).ml.replies = m.replies ∧ (settle u).ml.defProfile = m.defProfile ∧
      (settle u).ml.defLut = m.defLut := by
  have hks : u.ml.doneOrder.take (4 - u.ml.replies.length) = [] := by simp [hu, MessageLink.aborted, hdone]
  obtain ⟨hreplies, -, hdef⟩ := settle_link (acceptance_doneHolds hu hdone).1 hks
  rw [afterClaims_nil, hu] at hdef
  exact ⟨by rw [hreplies, hu]; simp [MessageLink.completedReplies, MessageLink.aborted], congrFun hdef .profileApply,
    congrFun hdef .lutCommit⟩

/-- A pending application is aborted, with its reply (R87). -/
theorem acceptance_of_app {a : Byte} (hu : u.ml = (m.aborted true false).setDeferred .pipelineReset (.waiting tag))
    (hdone : m.doneOrder = []) (hroom : m.replies.length < 4) (ha : m.defProfile = .waiting a) :
    (settle u).ml.replies = m.replies ++ [⟨a, .aborted, 0, []⟩] ∧ (settle u).ml.defProfile = .empty ∧
      (settle u).ml.defLut = m.defLut := by
  have hml : u.ml = { m with
      defProfile := .completed a .aborted, defReset := .waiting tag, doneOrder := [.profileApply] } := by
    simp [hu, MessageLink.aborted, deferred_aborted_app ha, MessageLink.setDeferred, hdone]
  have hks : u.ml.doneOrder.take (4 - u.ml.replies.length) = [.profileApply] := by
    rw [hml]
    exact List.take_of_length_le (by simp; omega)
  obtain ⟨hreplies, -, hdef⟩ := settle_link (acceptance_doneHolds hu hdone).1 hks
  rw [hml] at hreplies hdef
  exact ⟨hreplies, congrFun hdef .profileApply, congrFun hdef .lutCommit⟩

/-- A pending commit is cancelled, with its reply (R125). -/
theorem acceptance_of_commit {b : Byte} (hu : u.ml = (m.aborted false true).setDeferred .pipelineReset (.waiting tag))
    (hdone : m.doneOrder = []) (hroom : m.replies.length < 4) (hb : m.defLut = .waiting b) :
    (settle u).ml.replies = m.replies ++ [⟨b, .aborted, 0, []⟩] ∧ (settle u).ml.defLut = .empty ∧
      (settle u).ml.defProfile = m.defProfile := by
  have hml : u.ml = { m with defLut := .completed b .aborted, defReset := .waiting tag, doneOrder := [.lutCommit] } := by
    simp [hu, MessageLink.aborted, deferred_aborted_lut hb, MessageLink.setDeferred, hdone]
  have hks : u.ml.doneOrder.take (4 - u.ml.replies.length) = [.lutCommit] := by
    rw [hml]
    exact List.take_of_length_le (by simp; omega)
  obtain ⟨hreplies, -, hdef⟩ := settle_link (acceptance_doneHolds hu hdone).1 hks
  rw [hml] at hreplies hdef
  exact ⟨hreplies, congrFun hdef .lutCommit, congrFun hdef .profileApply⟩

/-- Both were pending: the application's reply first, and the commit's where an entry is free (R87, R167). -/
theorem acceptance_of_both {a b : Byte} (hu : u.ml = (m.aborted true true).setDeferred .pipelineReset (.waiting tag))
    (hdone : m.doneOrder = []) (ha : m.defProfile = .waiting a) (hb : m.defLut = .waiting b) :
    (m.replies.length ≤ 2 → (settle u).ml.replies = m.replies ++ [⟨a, .aborted, 0, []⟩, ⟨b, .aborted, 0, []⟩] ∧
      (settle u).ml.defProfile = .empty ∧ (settle u).ml.defLut = .empty) ∧
    (m.replies.length = 3 → (settle u).ml.replies = m.replies ++ [⟨a, .aborted, 0, []⟩] ∧
      (settle u).ml.defProfile = .empty ∧ (settle u).ml.defLut = .completed b .aborted ∧
      (settle u).ml.doneOrder = [.lutCommit]) := by
  have hml : u.ml = { m with
      defProfile := .completed a .aborted, defLut := .completed b .aborted, defReset := .waiting tag
      doneOrder := [.profileApply, .lutCommit] } := by
    rw [hu, MessageLink.aborted, if_pos rfl, if_pos rfl, deferred_aborted_app ha, deferred_aborted_lut (by exact hb), hdone]
    rfl
  have hlawful := (acceptance_doneHolds hu hdone).1
  refine ⟨fun hlen => ?_, fun hlen => ?_⟩
  · have hks : u.ml.doneOrder.take (4 - u.ml.replies.length) = [.profileApply, .lutCommit] := by
      rw [hml]
      exact List.take_of_length_le (by simp; omega)
    obtain ⟨hreplies, -, hdef⟩ := settle_link hlawful hks
    rw [hml] at hreplies hdef
    exact ⟨hreplies, congrFun hdef .profileApply, congrFun hdef .lutCommit⟩
  · have hks : u.ml.doneOrder.take (4 - u.ml.replies.length) = [.profileApply] := by
      simp [hml, hlen]
    obtain ⟨hreplies, horder, hdef⟩ := settle_link hlawful hks
    rw [hml] at hreplies horder hdef
    exact ⟨hreplies, congrFun hdef .profileApply, congrFun hdef .lutCommit, horder⟩

end Acceptance

/-- Settles O34: without a profile, BUSY, and the acceptance in SCAN with the two replies it may abort. -/
theorem pipelineResetAccepted : Obligations.PipelineResetAccepted := by
  intro s r hserves
  have hexec : exec .pipelineReset s = .next (settle (pipelineReset r (takeRequest s))) := execRequest_of_serves hserves
  rw [hexec]
  refine ⟨fun hnone => ?_, fun hsome hbusy => ?_, fun hsome hreset hscan h => ?_⟩
  · simp only [pipelineReset, takeRequest_frame, hnone]
    rfl
  · obtain ⟨p, hp⟩ := Option.ne_none_iff_exists'.mp hsome
    simp only [pipelineReset, takeRequest_frame, hp, hbusy]
    rfl
  · obtain ⟨p, hp⟩ := Option.ne_none_iff_exists'.mp hsome
    rw [pipelineReset_of_scan (s := takeRequest s) r hp hreset hscan h]
    obtain ⟨-, hgranted, -⟩ := hserves
    obtain ⟨hroom, hdone⟩ := granted_room hgranted
    let u : State := { (takeRequest s).resetAccepted with
      otg := { s.otg with pendingReset := true, pendingApp := false }
      ml := (takeRequest s).resetAccepted.ml.setDeferred .pipelineReset (.waiting r.tag) }
    have hu {app commit : Bool} (happ : s.otg.pendingApp = app) (hcommit : s.cs.shadowPending = commit) :
        u.ml = ((takeRequest s).ml.aborted app commit).setDeferred .pipelineReset (.waiting r.tag) := by
      rw [← happ, ← hcommit]
      rfl
    have hslots : u.ml.slots = s.ml.slots.drop 1 := (aborted_keeps (takeRequest s).ml s.otg.pendingApp s.cs.shadowPending).1
    refine ⟨settle u, rfl, by simp [u], by simp [u, State.resetAccepted], by simp [u, State.resetAccepted],
      acceptance_waits (hu rfl rfl) hdone, by simpa using hslots, by simp [u, State.resetAccepted],
      by simp [u, State.resetAccepted], by simp [u, State.resetAccepted], by simp [u, State.resetAccepted],
      by simp [u, State.resetAccepted], by simp [u, State.resetAccepted], by simp [u, State.resetAccepted],
      fun happ hcommit => acceptance_of_none (m := (takeRequest s).ml) (hu happ hcommit) hdone,
      fun a ha happ hcommit => acceptance_of_app (m := (takeRequest s).ml) (hu happ hcommit) hdone hroom ha,
      fun b hb happ hcommit => acceptance_of_commit (m := (takeRequest s).ml) (hu happ hcommit) hdone hroom hb,
      fun a b ha hb happ hcommit => ?_⟩
    obtain ⟨htwo, hthree⟩ := acceptance_of_both (hu happ hcommit) hdone ha hb
    refine ⟨?_, fun hlen => ?_, fun hlen => ?_⟩
    · rcases (show s.ml.replies.length ≤ 2 ∨ s.ml.replies.length = 3 by omega) with hlen | hlen
      · exact (htwo hlen).2.1
      · exact (hthree hlen).2.1
    · obtain ⟨hreplies, -, hlut⟩ := htwo hlen
      exact ⟨hreplies, hlut⟩
    · obtain ⟨hreplies, -, hlut, horder⟩ := hthree hlen
      exact ⟨hreplies, hlut, horder⟩

end Sys2Proof.Machine
end

section
/-! The profile controller and the detach time (chapters 4, 5 and 7). The conditions read the profile controller, what is
pending, whether the generator is IDLE or in SCAN and whether the source is UNARMED or DETACHED; `Carried` says how the
shared operations treat these. -/

namespace Sys2Proof.Machine

/-- The profile controller is kept or the tune set merged, the generator neither enters nor leaves IDLE and stays in SCAN,
and nothing becomes pending or ceases to be. -/
structure Cycled (s t : State) : Prop where
  pc : PcMerged s t
  idle : t.otg.timing = .idle ↔ s.otg.timing = .idle
  scan : s.otg.timing = .scan → t.otg.timing = .scan
  app : t.otg.pendingApp = s.otg.pendingApp
  reset : t.otg.pendingReset = s.otg.pendingReset

/-- The source stays armed or UNARMED, and the detach time lawful, besides. -/
structure Carried (s t : State) : Prop extends Cycled s t where
  unarmed : t.sp.state = .unarmed ↔ s.sp.state = .unarmed
  detach : s.detachHolds → t.detachHolds

theorem Cycled.trans {s t u : State} (h : Cycled s t) (g : Cycled t u) : Cycled s u where
  pc := h.pc.trans g.pc
  idle := g.idle.trans h.idle
  scan hs := g.scan (h.scan hs)
  app := g.app.trans h.app
  reset := g.reset.trans h.reset

theorem Cycled.of_eq {s t : State} (h : t.pc = s.pc ∧ t.otg.timing = s.otg.timing ∧
    t.otg.pendingApp = s.otg.pendingApp ∧ t.otg.pendingReset = s.otg.pendingReset) : Cycled s t := by
  obtain ⟨hpc, htiming, happ, hreset⟩ := h
  exact ⟨.of_eq hpc, by rw [htiming], fun h => htiming.trans h, happ, hreset⟩

theorem detachHolds_congr {s t : State} (hstate : t.sp.state = s.sp.state) (htime : t.ps.detachTime = s.ps.detachTime)
    (h : s.detachHolds) : t.detachHolds := by
  rw [State.detachHolds, hstate, htime]
  exact h

theorem Carried.of_refreshed {s t : State} (h : Refreshed s t) (hscan : s.otg.timing = .scan → t.otg.timing = .scan)
    (happ : t.otg.pendingApp = s.otg.pendingApp) (hreset : t.otg.pendingReset = s.otg.pendingReset)
    (hstate : t.sp.state = s.sp.state) (htime : t.ps.detachTime = s.ps.detachTime) : Carried s t :=
  ⟨⟨h.1, h.2, hscan, happ, hreset⟩, by rw [hstate], detachHolds_congr hstate htime⟩

/-- An operation that touches none of what the conditions read. -/
theorem Carried.of_eq {s t : State} (h : t.pc = s.pc ∧ t.otg.timing = s.otg.timing ∧
    t.otg.pendingApp = s.otg.pendingApp ∧ t.otg.pendingReset = s.otg.pendingReset ∧ t.sp.state = s.sp.state ∧
    t.ps.detachTime = s.ps.detachTime) : Carried s t := by
  obtain ⟨hpc, htiming, happ, hreset, hstate, htime⟩ := h
  exact .of_refreshed (.of_eq hpc htiming) (fun h => htiming.trans h) happ hreset hstate htime

theorem Carried.refl (s : State) : Carried s s := .of_eq ⟨rfl, rfl, rfl, rfl, rfl, rfl⟩

theorem Carried.trans {s t u : State} (h : Carried s t) (g : Carried t u) : Carried s u where
  toCycled := h.toCycled.trans g.toCycled
  unarmed := g.unarmed.trans h.unarmed
  detach hs := g.detach (h.detach hs)

theorem refreshBy_timing (expired planned : Bool) (s : State) : (refreshBy expired planned s).otg.timing = .scan := by
  simp [refreshBy, beginScan]

theorem refreshBy_carried (expired planned : Bool) {s : State} (h : s.otg.timing ≠ .idle) :
    Carried s (refreshBy expired planned s) :=
  .of_refreshed (refreshBy_refreshed expired planned s h) (fun _ => refreshBy_timing expired planned s) (by simp) (by simp)
    (by simp) (by simp)

theorem repeatExpiryOpen_carried {s : State} (h : s.otg.timing = .blankOpen) : Carried s (repeatExpiryOpen s) :=
  .of_refreshed (repeatExpiryOpen_refreshed s (by simp [h])) (by simp [h]) (by simp) (by simp) (by simp) (by simp)

theorem enterBlankOpen_carried {s : State} (h : s.otg.timing = .blankMin) : Carried s (enterBlankOpen s) :=
  .of_refreshed (enterBlankOpen_refreshed s (by simp [h])) (by simp [h]) (by simp) (by simp) (by simp) (by simp)

theorem eligibilityEvent_scan {s : State} (h : s.otg.timing = .scan) : (eligibilityEvent s).otg.timing = .scan := by
  simp only [eligibilityEvent, h]
  simp [h]

theorem eligibilityEvent_carried (s : State) : Carried s (eligibilityEvent s) :=
  .of_refreshed (eligibilityEvent_refreshed s) eligibilityEvent_scan (by simp) (by simp) (by simp) (by simp)

theorem markEligible_carried (k : Slot) (s : State) : Carried s (markEligible k s) :=
  .of_eq (by simp)

theorem judgeAll_carried (s : State) : Carried s (judgeAll eligibilityEvent s) :=
  judgeAll_inv (Carried s) eligibilityEvent (fun u h => h.trans (eligibilityEvent_carried u))
    (fun k u h => h.trans (markEligible_carried k u)) s (.refl s)

theorem recomputeQ_carried (s : State) : Carried s (recomputeQ eligibilityEvent s) := by
  simp only [recomputeQ]
  split
  · exact .of_eq (by simp)
  · simp only [publishQ]
    exact Carried.trans (.of_eq (by simp)) (judgeAll_carried _)

theorem fillsChanged_carried (w : List Nat) (s : State) : Carried s (fillsChanged eligibilityEvent w s) := by
  simp only [fillsChanged]
  exact Carried.trans (.of_eq (by simp)) (recomputeQ_carried _)

theorem clearWindows_carried (s : State) : Carried s (clearWindows s) := by
  simp only [clearWindows]
  exact Carried.trans (.of_eq (by simp)) (fillsChanged_carried _ _)

theorem stripFilled_carried (bad : Bool) (s : State) : Carried s (stripFilled bad s) := by
  have hcount : Carried s (countStrip bad s) := .of_eq (by simp)
  simp only [stripFilled]
  repeat' split
  · exact (hcount.trans (markEligible_carried _ _)).trans (eligibilityEvent_carried _)
  all_goals exact hcount

/-- The source moves to another state of an armed source that is not DETACHED, out of one that is not either. -/
theorem moveSource_carried {st : SourceState} {score : Nat} {s : State} (hs : s.sp.state.attached = true)
    (hst : st.attached = true) : Carried s (moveSource st score s) where
  toCycled := .of_eq (by simp)
  unarmed := by
    cases hold : s.sp.state <;> cases st <;> simp_all [SourceState.attached]
  detach h := by
    have hnone : s.sp.state ≠ .detached := fun hd => by simp [hd, SourceState.attached] at hs
    have hnone' : (moveSource st score s).sp.state ≠ .detached := fun hd => by
      simp only [moveSource_sets] at hd
      simp [hd, SourceState.attached] at hst
    refine iff_of_false hnone' fun htime => hnone (h.mpr ?_)
    simpa using htime

/-- The entry to DETACHED empties the windows, with what follows from it (R37, R47). -/
theorem enterDetached_cycled (score : Nat) (s : State) : Cycled s (enterDetached score s) := by
  simp only [enterDetached]
  exact Cycled.trans (.of_eq (by simp)) (clearWindows_carried _).toCycled

/-- The source detaches: the detach time is set (R37, R108). -/
theorem enterDetached_carried (score : Nat) {s : State} (hs : s.sp.state ≠ .unarmed) :
    Carried s (enterDetached score s) where
  toCycled := enterDetached_cycled score s
  unarmed := by simp [hs]
  detach _ := by simp [State.detachHolds]

/-- Outside the band of DETACHED a score belongs to an attached source (R36). -/
theorem bandOf_attached {score : Nat} (h : bandOf score ≠ .detached) : (bandOf score).attached = true := by
  unfold bandOf at h ⊢
  repeat' split
  all_goals simp_all [SourceState.attached]

/-- A change of the score moves an attached source to the state whose band it is (R36). -/
theorem changeScore_carried (f : Nat → Nat) (s : State) : Carried s (changeScore f s) := by
  cases hatt : s.sp.state.attached with
  | false =>
    rw [changeScore_of_not_attached hatt]
    exact .refl s
  | true =>
    simp only [changeScore, hatt, if_true]
    split
    · exact enterDetached_carried _ (frame_state_armed hatt)
    next hband =>
      exact moveSource_carried hatt (bandOf_attached hband)

theorem strayEvent_carried (s : State) : Carried s (strayEvent s) := by
  simp only [strayEvent]
  split
  case h_1 | h_2 | h_3 => exact changeScore_carried _ s
  all_goals exact .of_eq (by simp)

theorem foreignFrame_carried (s : State) : Carried s (foreignFrame s) := by
  have habort : Carried s (abortFilling false (reportFate s.sp.frameCounter .foreign s)) :=
    .of_eq (by simp)
  exact (habort.trans (clearWindows_carried _)).trans (.of_eq (by simp [foreignFrame]))

theorem goodLine_carried (e : Bool) (pixels : List Pixel) (s : State) : Carried s (goodLine e pixels s) := by
  simp only [goodLine]
  split
  · exact Carried.trans (.of_eq (by simp)) (stripFilled_carried _ _)
  · exact .of_eq (by simp)

theorem foreignAtLine_carried (s : State) : Carried s (foreignAtLine s) := by
  have hline : Carried s (s.setSp { s.sp with closeBad := s.fillingBad }) :=
    .of_eq (by simp)
  exact (hline.trans (foreignFrame_carried _)).trans (.of_eq (by simp [foreignAtLine]))

theorem takenLine_carried (e : Bool) (pixels : List Pixel) (s : State) : Carried s (takenLine e pixels s) := by
  simp only [takenLine]
  repeat' split
  · exact Carried.trans (.of_eq (by simp)) (foreignAtLine_carried _)
  · exact Carried.trans (.of_eq (by simp)) (foreignAtLine_carried _)
  · exact goodLine_carried e pixels s

theorem lineEvent_carried (e : Bool) (pixels : List Pixel) (s : State) : Carried s (lineEvent e pixels s) := by
  simp only [lineEvent]
  repeat' split
  · exact .refl s
  · exact strayEvent_carried s
  · exact takenLine_carried e pixels s
  all_goals exact .of_eq (by simp)

theorem completeSlot_carried (k : Slot) (s : State) : Carried s (completeSlot k s) := by
  simp only [completeSlot]
  repeat' split
  case isFalse.isFalse.isFalse =>
    exact Carried.trans (.of_eq (by simp)) (eligibilityEvent_carried _)
  all_goals exact .of_eq (by simp)

theorem fillSample_carried (first : Option Time) (s : State) : Carried s (fillSample first s) := by
  simp only [fillSample]
  split
  · exact Carried.trans (.of_eq (by simp)) (fillsChanged_carried _ _)
  · exact .refl s

theorem completeFrame_carried (s : State) : Carried s (completeFrame s) := by
  have hend (u : State) : Carried u (endFrame u) := .of_eq (by simp)
  simp only [completeFrame]
  split
  next k _ =>
    refine Carried.trans (Carried.trans ?_ (changeScore_carried _ _)) (hend _)
    split
    · exact Carried.trans ((completeSlot_carried k s).trans (fillSample_carried (s.slot k).firstLine _)) (.of_eq (by simp))
    · exact (completeSlot_carried k s).trans (.of_eq (by simp))
  · exact hend s

theorem foreignAtEnd_carried (s : State) : Carried s (foreignAtEnd s) :=
  (foreignFrame_carried s).trans (.of_eq (by simp [foreignAtEnd]))

theorem reattach_carried {s : State} (hs : s.sp.state ≠ .unarmed) : Carried s (reattach s) where
  toCycled := .of_eq (by simp)
  unarmed := by simp [hs]
  detach _ := by simp [State.detachHolds]

theorem observedEnd_carried {s : State} (hs : s.sp.state ≠ .unarmed) : Carried s (observedEnd s) := by
  have hend : Carried s (endFrame s) := .of_eq (by simp)
  simp only [observedEnd]
  repeat' split
  · exact hend.trans (reattach_carried (by simpa using hs))
  all_goals exact .of_eq (by simp)

theorem frameEndEvent_carried (s : State) : Carried s (frameEndEvent s) := by
  simp only [frameEndEvent]
  repeat' split
  · exact .of_eq (by simp)
  · exact strayEvent_carried s
  · exact completeFrame_carried s
  · exact foreignAtEnd_carried s
  · exact .of_eq (by simp)
  · exact .of_eq (by simp)
  next hs _ _ => exact observedEnd_carried hs

theorem signalLostEvent_carried (s : State) : Carried s (signalLostEvent s) := by
  have hclose : Carried s (endFrame (closeByLoss (s.setSp { s.sp with signal := false }))) := .of_eq (by simp)
  simp only [signalLostEvent]
  split
  next hs => exact hclose.trans (enterDetached_carried 128 (by simp_all))
  next hs => exact hclose.trans (enterDetached_carried 128 (by simp_all))
  next hs => exact hclose.trans (enterDetached_carried 128 (by simp_all))
  all_goals exact .of_eq (by simp)

theorem closeByStart_carried (s : State) : Carried s (closeByStart s) := by
  simp only [closeByStart]
  split
  case h_5 => exact Carried.trans (.of_eq (by simp)) (changeScore_carried _ _)
  all_goals exact .of_eq (by simp)

theorem tminExpired_carried (s : State) : Carried s (tminExpired s) := by
  simp only [tminExpired]
  split
  next => exact .of_eq (by simp)
  next hmin => exact Carried.trans (.of_eq (by simp)) (enterBlankOpen_carried hmin)
  all_goals exact .of_eq (by simp)

theorem repeatExpired_carried (s : State) : Carried s (repeatExpired s) := by
  simp only [repeatExpired]
  split
  next hopen => exact Carried.trans (.of_eq (by simp)) (repeatExpiryOpen_carried hopen)
  all_goals exact .of_eq (by simp)

theorem fixedExpired_carried (s : State) : Carried s (fixedExpired s) := by
  simp only [fixedExpired]
  split
  next hblank => exact Carried.trans (.of_eq (by simp)) (refreshBy_carried true false (by simpa using hblank.symm ▸ nofun))
  all_goals exact .of_eq (by simp)

/-- The controller's standing conditions, but for where what is pending waits. -/
def State.profileSound (s : State) : Prop :=
  (s.pc.propState = .none ↔ s.pc.proposal = none) ∧
    (∀ p, s.pc.active = some p → ∃ l, s.pc.limits = some l ∧ p.meets l) ∧
    (∀ p, s.pc.proposal = some p → ∃ l, s.pc.limits = some l ∧ p.meets l) ∧
    ¬ (s.pc.propState = .held ∧ s.pc.faulted = true) ∧
    (s.otg.pendingApp = true ↔ s.pc.propState = .confirmed) ∧
    (s.pc.active = none ↔ s.sp.state = .unarmed) ∧ (s.pc.active = none ↔ s.otg.timing = .idle) ∧
    (s.pc.active = none → s.otg.pendingReset = false ∧ s.pc.tune = TuneSet.empty)

theorem profileHolds_iff (s : State) : s.profileHolds ↔
    s.profileSound ∧ (s.otg.pendingApp = true ∨ s.otg.pendingReset = true → s.otg.timing = .scan) := by
  simp only [State.profileHolds, State.profileSound, and_assoc]

/-- The merge changes no field that the limits check (R131, R141). -/
theorem merge_meets {p : Profile} {l : Limits} (t : TuneSet) : (p.merge t).meets l ↔ p.meets l := Iff.rfl

/-- The conditions hold of a merged tune set as before (R141). -/
theorem profileSound_of_refreshed {s t : State} (h : Refreshed s t) (happ : t.otg.pendingApp = s.otg.pendingApp)
    (hreset : t.otg.pendingReset = s.otg.pendingReset) (hunarmed : t.sp.state = .unarmed ↔ s.sp.state = .unarmed)
    (hs : s.profileSound) : t.profileSound := by
  obtain ⟨hpc, hidle⟩ := h
  obtain ⟨hprop, hactive, hproposal, hheld, hpending, harmed, htiming, hnone⟩ := hs
  rw [← hunarmed] at harmed
  rw [← hidle] at htiming
  rw [State.profileSound, happ, hreset]
  rcases hpc with hpc | hpc
  · rw [hpc]
    exact ⟨hprop, hactive, hproposal, hheld, hpending, harmed, htiming, hnone⟩
  · have hmap : (mergeTune s).pc.active = none ↔ s.pc.active = none := Option.map_eq_none_iff
    rw [hpc, hmap]
    refine ⟨hprop, fun p hp => ?_, hproposal, hheld, hpending, harmed, htiming, fun h => ⟨(hnone h).1, rfl⟩⟩
    obtain ⟨q, hq, rfl⟩ := Option.map_eq_some_iff.mp hp
    exact hactive q hq

theorem State.profileSound.armed {s : State} (h : s.profileSound) : s.pc.active = none ↔ s.sp.state = .unarmed := by
  obtain ⟨-, -, -, -, -, harmed, -, -⟩ := h
  exact harmed

theorem State.profileSound.idle {s : State} (h : s.profileSound) : s.pc.active = none ↔ s.otg.timing = .idle := by
  obtain ⟨-, -, -, -, -, -, hidle, -⟩ := h
  exact hidle

/-- A pending application has its proposal (R127, R136). -/
theorem State.profileSound.pending {s : State} (h : s.profileSound) (happ : s.otg.pendingApp = true) :
    ∃ p, s.pc.proposal = some p := by
  obtain ⟨hprop, -, -, -, hpending, -, -, -⟩ := h
  refine Option.ne_none_iff_exists'.mp fun hnone => ?_
  rw [← hprop, hpending.mp happ] at hnone
  exact absurd hnone nofun

/-- What every shared operation keeps (R127, R131, R136). -/
theorem Carried.profileHolds {s t : State} (h : Carried s t) (hs : s.profileHolds) : t.profileHolds := by
  rw [profileHolds_iff] at hs ⊢
  obtain ⟨hsound, hscan⟩ := hs
  refine ⟨profileSound_of_refreshed ⟨h.pc, h.idle⟩ h.app h.reset h.unarmed hsound, ?_⟩
  rw [h.app, h.reset]
  exact fun hp => h.scan (hscan hp)

/-- The controller after an application, whose profile meets the limits (R136, R138). -/
def ProfileCtl.appliedUnder (c : ProfileCtl) (l : Limits) : Prop :=
  c.propState = .none ∧ c.proposal = none ∧ c.limits = some l ∧ ∃ q, c.active = some q ∧ q.meets l

theorem appliedUnder_of_merged {s t : State} {l : Limits} (h : PcMerged s t) (hs : s.pc.appliedUnder l) :
    t.pc.appliedUnder l := by
  obtain ⟨hprop, hproposal, hlimits, q, hq, hmeets⟩ := hs
  rcases h with h | h
  · rw [h]
    exact ⟨hprop, hproposal, hlimits, q, hq, hmeets⟩
  · rw [h]
    exact ⟨hprop, hproposal, hlimits, _, congrArg (Option.map _) hq, (merge_meets _).mpr hmeets⟩

theorem refreshBy_pc (expired planned : Bool) (s : State) : PcMerged s (refreshBy expired planned s) :=
  PcMerged.trans (t := mergeAndChoose (beginScan s)) (PcMerged.trans (.of_eq (by simp)) (mergeAndChoose_pc _))
    (.of_eq (by simp [refreshBy]))

theorem startOutput_merged (s : State) : PcMerged s (startOutput s) ∧ (startOutput s).otg.timing = .scan := by
  have hpc : PcMerged s (refreshStart false (s.setOtg { s.otg with mode := some s.prof.pacing })) :=
    PcMerged.trans (.of_eq (by simp)) (refreshBy_pc false false _)
  simp only [startOutput]
  split
  · exact ⟨hpc.trans (.of_eq (by simp)), refreshBy_timing ..⟩
  · exact ⟨hpc, refreshBy_timing ..⟩

theorem restartCycle_timing (s : State) :
    (restartCycle s).otg.timing ≠ .idle ∧ (restartCycle s).otg.timing ≠ .scan := by
  simp only [restartCycle]
  split <;> simp

/-- The application leaves the source armed and its detach time lawful (R43, R44). -/
theorem applyFrames_armed {s : State} (old : Option Profile) (geo : Bool) (hold : old = none ↔ s.sp.state = .unarmed) :
    PcMerged s (applyFrames old geo s) ∧ (applyFrames old geo s).sp.state ≠ .unarmed ∧
      (s.detachHolds → (applyFrames old geo s).detachHolds) := by
  cases old with
  | none =>
    have hst : s.sp.state = .unarmed := hold.mp rfl
    have hflush : PcMerged s (setCond (flushPool s).sp.cond.passedOver (flushPool s)) := .of_eq (by simp)
    simp only [applyFrames, armSource]
    split
    · refine ⟨hflush.trans (.of_eq (by simp)), by simp, fun h => iff_of_false (by simp) fun htime => ?_⟩
      have hdet : s.sp.state = .detached := h.mpr (by simpa using htime)
      simp [hst] at hdet
    · exact ⟨hflush.trans (enterDetached_cycled 128 _).pc, by simp, fun _ => by simp [State.detachHolds]⟩
  | some o =>
    have hst : s.sp.state ≠ .unarmed := fun h => by simpa using hold.mpr h
    have hcarried : Carried s (applyFrames (some o) geo s) := by
      simp only [applyFrames]
      split
      · exact .of_eq (by simp)
      · exact .refl s
    exact ⟨hcarried.pc, mt hcarried.unarmed.mp hst, hcarried.detach⟩

/-- The application of a proposal leaves the controller lawful (R85, R136, R138). -/
theorem applyProfile_profileHolds {s : State} {p : Profile} (hs : s.profileSound) (hp : s.pc.proposal = some p)
    (hreset : s.otg.pendingReset = false) :
    (applyProfile s).profileHolds ∧ (s.detachHolds → (applyProfile s).detachHolds) := by
  obtain ⟨-, -, hproposal, -, -, harmed, -, -⟩ := hs
  obtain ⟨l, hlimits, hmeets⟩ := hproposal p hp
  let begun : State := s.setPc { s.pc with active := some p, proposal := none, propState := .none }
  let framed : State := applyFrames s.pc.active (geometryDiffers s.pc.active p) begun
  let paced : State := applyPacing (geometryDiffers s.pc.active p) (windowDiffers s.pc.active p) framed
  obtain ⟨hframed, hstate, hdetach⟩ := applyFrames_armed (s := begun) s.pc.active (geometryDiffers s.pc.active p) harmed
  have hpaced : PcMerged begun paced := hframed.trans (.of_eq (by simp [paced, framed]))
  have hstart : ∃ u, applyProfile s = completeDeferred .profileApply .ok (u.setOtg { u.otg with pendingApp := false }) ∧
      PcMerged paced u ∧ u.otg.timing ≠ .idle ∧ u.sp = paced.sp ∧ u.ps.detachTime = paced.ps.detachTime ∧
      u.otg.pendingReset = paced.otg.pendingReset := by
    simp only [applyProfile, hp]
    by_cases hidle : s.otg.timing = .idle
    · simp only [hidle, if_true]
      obtain ⟨hpc, hscan⟩ := startOutput_merged paced
      exact ⟨startOutput paced, rfl, hpc, by rw [hscan]; decide, by simp, by simp, by simp⟩
    · simp only [hidle, if_false]
      exact ⟨restartCycle paced, rfl, .of_eq (by simp), (restartCycle_timing paced).1, by simp, by simp, by simp⟩
  obtain ⟨u, hu, hpc, htiming, hsp, htime, hpend⟩ := hstart
  obtain ⟨hprop, hprop', hlim, q, hq, hqmeets⟩ := appliedUnder_of_merged (l := l) (hpaced.trans hpc)
    ⟨rfl, rfl, hlimits, p, rfl, hmeets⟩
  have hnotreset : u.otg.pendingReset = false := by simpa [hpend, paced, framed, begun] using hreset
  have hust : u.sp.state ≠ .unarmed := by simpa [hsp, paced] using hstate
  rw [hu]
  refine ⟨?_, fun h => detachHolds_congr (s := framed) (by simp [hsp, paced]) (by simp [htime, paced]) (hdetach h)⟩
  simp only [State.profileHolds, completeDeferred_frame, State.setOtg_fields, hprop, hprop', hq, hlim]
  simp [hnotreset, hust, htiming, hqmeets]

theorem resetSource_armed {s : State} (hs : s.sp.state ≠ .unarmed) :
    Cycled s (resetSource s) ∧ (resetSource s).sp.state ≠ .unarmed ∧ (s.detachHolds → (resetSource s).detachHolds) := by
  simp only [resetSource]
  repeat' split
  · exact ⟨.of_eq (by simp), by simp, fun _ => by simp [State.detachHolds]⟩
  next hdet => exact ⟨.of_eq (by simp), by simpa using hs, fun h => detachHolds_congr (s := s) (by simp) (by simp) h⟩
  · refine ⟨Cycled.trans ?_ (enterDetached_cycled 128 _), by simp, fun _ => by simp [State.detachHolds]⟩
    exact .of_eq (by simp)

/-- The conditions of a controller with an active profile, after an operation that may restart the cycle. -/
theorem profileSound_of_active {s t : State} (hpc : PcMerged s t) (hactive : s.pc.active ≠ none) (hs : s.profileSound)
    (happ : t.otg.pendingApp = s.otg.pendingApp) (hstate : t.sp.state ≠ .unarmed) (htiming : t.otg.timing ≠ .idle) :
    t.profileSound := by
  obtain ⟨hprop, hmeets, hproposal, hheld, hpending, -, -, -⟩ := hs
  obtain ⟨p, hp⟩ := Option.ne_none_iff_exists'.mp hactive
  rw [State.profileSound, happ]
  rcases hpc with hpc | hpc
  · rw [hpc]
    exact ⟨hprop, hmeets, hproposal, hheld, hpending, by simp [hp, hstate], by simp [hp, htiming], by simp [hp]⟩
  · have hmerged : (mergeTune s).pc.active = some (p.merge s.pc.tune) := congrArg (Option.map _) hp
    rw [hpc, hmerged]
    refine ⟨hprop, fun q hq => ?_, hproposal, hheld, hpending, by simp [hstate], by simp [htiming], nofun⟩
    cases hq
    exact hmeets p hp

/-- The reset point leaves the controller lawful, out of SCAN (R88, R142). -/
theorem resetPoint_profileSound {s : State} (hs : s.profileSound) (hactive : s.pc.active ≠ none) :
    (resetPoint s).profileSound ∧ (resetPoint s).otg.pendingReset = false ∧ (s.detachHolds → (resetPoint s).detachHolds) := by
  have harmed : s.sp.state ≠ .unarmed := fun h => hactive (hs.armed.mpr h)
  obtain ⟨hcycled, hstate, hdetach⟩ := resetSource_armed (s := resetPool s) (by simpa using harmed)
  have hsource : PcMerged s (resetSource (resetPool s)) := PcMerged.trans (.of_eq (by simp)) hcycled.pc
  have hmerge : PcMerged (resetSource (resetPool s)) (resetPoint s) := .inr (by simp [resetPoint, mergeTune])
  refine ⟨profileSound_of_active (hsource.trans hmerge) hactive hs (by simp) (by simpa [resetPoint] using hstate) ?_,
    by simp [resetPoint], fun h => ?_⟩
  · simp only [resetPoint, completeDeferred_frame, State.setOtg_fields]
    exact (restartCycle_timing _).1
  · exact detachHolds_congr (by simp [resetPoint]) (by simp [resetPoint])
      (hdetach (detachHolds_congr (s := s) (by simp) (by simp) h))

/-- The generator leaves SCAN (R73, R79). -/
theorem leaveScan_refreshed (s : State) (h : s.otg.timing ≠ .idle) : Refreshed s (leaveScan s) := by
  have hblank : Refreshed s (s.setOtg { s.otg with timing := .blank }) := ⟨.of_eq rfl, by simp [h]⟩
  simp only [leaveScan]
  repeat' split
  · exact enterBlankOpen_refreshed s h
  · exact ⟨.of_eq rfl, by simp [h]⟩
  · exact hblank.trans (Refreshed.trans (.of_eq rfl rfl) (fixedRefresh_refreshed _ (by simp)))
  · exact hblank

/-- A scan end: the points, or the generator leaves SCAN with nothing pending (R71, R85, R88). -/
theorem endScan_profileHolds {s : State} (h : s.profileHolds) (hscan : s.otg.timing = .scan) :
    (endScan s).profileHolds ∧ (s.detachHolds → (endScan s).detachHolds) := by
  let ended : State := scanEndPool (closeWatch (s.setOtg { s.otg with nextStrip := s.prof.strips }))
  have hended : Carried s ended := .of_eq (by simp [ended])
  have htiming : ended.otg.timing = .scan := hended.scan hscan
  obtain ⟨hsound, -⟩ := (profileHolds_iff ended).mp (hended.profileHolds h)
  have hactive : ended.pc.active ≠ none := fun hnone => by simp [hsound.idle.mp hnone] at htiming
  have hend : endScan s =
      if ended.otg.pendingReset || ended.otg.pendingApp then
        if (if ended.otg.pendingReset then resetPoint ended else ended).otg.pendingApp then
          applyProfile (if ended.otg.pendingReset then resetPoint ended else ended)
        else if ended.otg.pendingReset then resetPoint ended else ended
      else leaveScan ended := rfl
  obtain ⟨hreset, hnotreset, hdetach⟩ := resetPoint_profileSound hsound hactive
  rw [hend]
  cases hr : ended.otg.pendingReset with
  | true =>
    simp only [Bool.true_or, if_true]
    split
    next happ =>
      obtain ⟨p, hp⟩ := hreset.pending happ
      obtain ⟨hholds, hdet⟩ := applyProfile_profileHolds hreset hp hnotreset
      exact ⟨hholds, fun hd => hdet (hdetach (hended.detach hd))⟩
    next happ =>
      exact ⟨(profileHolds_iff _).mpr ⟨hreset, by rw [hnotreset]; exact fun hp => absurd hp (by simpa using happ)⟩, fun hd => hdetach (hended.detach hd)⟩
  | false =>
    simp only [Bool.false_or, Bool.false_eq_true, if_false]
    split
    next happ =>
      obtain ⟨p, hp⟩ := hsound.pending happ
      obtain ⟨hholds, hdet⟩ := applyProfile_profileHolds hsound hp hr
      exact ⟨hholds, fun hd => hdet (hended.detach hd)⟩
    next happ =>
      have hleave := profileSound_of_refreshed (leaveScan_refreshed ended (by simp [htiming])) (by simp) (by simp) (by simp)
        hsound
      exact ⟨(profileHolds_iff _).mpr ⟨hleave, by simp [hr, happ]⟩,
        fun hd => detachHolds_congr (by simp) (by simp) (hended.detach hd)⟩

/-- The controller's conditions, and the detach time's where they are asked for. -/
def State.lawful (d : Prop) (s : State) : Prop := s.profileHolds ∧ (d → s.detachHolds)

variable {d : Prop}

theorem Carried.lawful {s t : State} (h : Carried s t) (hs : s.lawful d) : t.lawful d :=
  ⟨h.profileHolds hs.1, fun hd => h.detach (hs.2 hd)⟩

theorem lawful_of_step {s t : State} (h : t.profileHolds ∧ (s.detachHolds → t.detachHolds)) (hs : s.lawful d) : t.lawful d :=
  ⟨h.1, fun hd => h.2 (hs.2 hd)⟩

/-- A request that changes the controller alone. -/
theorem answer_setPc_lawful {s : State} {c : ProfileCtl} {r : Request} {st : Status} (hs : s.lawful d)
    (hc : (s.setPc c).profileHolds) : (answer r st (s.setPc c)).lawful d :=
  Carried.lawful (s := s.setPc c) (.of_eq (by simp)) ⟨hc, fun hd => detachHolds_congr (s := s) rfl rfl (hs.2 hd)⟩

/-- The sequence check (R133, R134): what it discards leaves the controller lawful. -/
theorem sequenceCheck_lawful {f : Request → State → State} {r : Request} {s : State} (hs : s.lawful d)
    (hf : s.pc.faulted = false → (f r s).lawful d) : (sequenceCheck f r s).lawful d := by
  simp only [sequenceCheck]
  repeat' split
  next hheld =>
    refine answer_setPc_lawful hs ?_
    obtain ⟨-, hmeets, -, -, hpending, hrest⟩ := hs.1
    have happ : ¬ s.otg.pendingApp = true := fun h => by simp [hheld] at hpending; simp [hpending] at h
    exact ⟨by simp, hmeets, nofun, by simp, by simp [happ], hrest⟩
  · exact Carried.lawful (.of_eq (by simp)) hs
  next hfault => exact hf (by simpa using hfault)

theorem setPanelLimits_lawful (r : Request) {s : State} (hs : s.lawful d) : (setPanelLimits r s).lawful d := by
  simp only [setPanelLimits]
  repeat' split
  · exact Carried.lawful (.of_eq (by simp)) hs
  · exact Carried.lawful (.of_eq (by simp)) hs
  next hnone _ _ =>
    have hlimits : s.pc.limits = none := by simpa using hnone
    refine answer_setPc_lawful hs ?_
    obtain ⟨hprop, hmeets, hproposal, hrest⟩ := hs.1
    refine ⟨hprop, fun p hp => ?_, fun p hp => ?_, hrest⟩
    · obtain ⟨l, hl, -⟩ := hmeets p hp
      simp [hlimits] at hl
    · obtain ⟨l, hl, -⟩ := hproposal p hp
      simp [hlimits] at hl

theorem proposeProfile_lawful (r : Request) {s : State} (hs : s.lawful d) (hfault : s.pc.faulted = false) : (proposeProfile r s).lawful d := by
  simp only [proposeProfile]
  repeat' split
  case h_2 l hl hconf _ hok =>
    refine answer_setPc_lawful hs ?_
    obtain ⟨-, hmeets, -, -, hpending, hrest⟩ := hs.1
    have happ : ¬ s.otg.pendingApp = true := fun h => hconf (hpending.mp h)
    refine ⟨by simp, hmeets, fun p hp => ?_, by simp [hfault], by simp [happ], hrest⟩
    cases hp
    exact ⟨l, hl, toProfile_meets hok⟩
  all_goals exact Carried.lawful (.of_eq (by simp)) hs

theorem confirmProfile_lawful (r : Request) {s : State} (hs : s.lawful d) : (confirmProfile r s).lawful d := by
  simp only [confirmProfile]
  split
  next hheld =>
    let waiting : State := (deferReply .profileApply r.tag (s.setPc { s.pc with propState := .confirmed })).setOtg
      { s.otg with pendingApp := true }
    obtain ⟨hprop, hmeets, hproposal, -, hpending, harmed, hidle, hnone, hscan⟩ := hs.1
    have hsome : s.pc.proposal ≠ none := fun h => by simp [hprop.mpr h] at hheld
    have hsound : waiting.profileSound := by
      refine ⟨by simp [waiting, hsome], hmeets, hproposal, by simp [waiting], by simp [waiting], harmed, hidle, hnone⟩
    obtain ⟨p, hp⟩ := Option.ne_none_iff_exists'.mp hsome
    have hdetach : s.detachHolds → waiting.detachHolds := detachHolds_congr rfl rfl
    split
    next hin =>
      exact lawful_of_step ⟨(profileHolds_iff waiting).mpr ⟨hsound, fun _ => hin⟩, hdetach⟩ hs
    next hout =>
      have hreset : s.otg.pendingReset = false := by
        simpa using fun h => hout (hscan (.inr h))
      obtain ⟨hholds, hdet⟩ := applyProfile_profileHolds hsound hp hreset
      exact lawful_of_step ⟨hholds, fun h => hdet (hdetach h)⟩ hs
  · exact Carried.lawful (.of_eq (by simp)) hs

theorem withdrawProfile_lawful (r : Request) {s : State} (hs : s.lawful d) : (withdrawProfile r s).lawful d := by
  simp only [withdrawProfile]
  split
  next hheld =>
    refine answer_setPc_lawful hs ?_
    obtain ⟨-, hmeets, -, -, hpending, hrest⟩ := hs.1
    have happ : ¬ s.otg.pendingApp = true := fun h => by simp [hheld] at hpending; simp [hpending] at h
    exact ⟨by simp, hmeets, nofun, by simp, by simp [happ], hrest⟩
  · exact Carried.lawful (.of_eq (by simp)) hs

theorem clearFault_lawful (r : Request) {s : State} (hs : s.lawful d) : (clearFault r s).lawful d := by
  refine answer_setPc_lawful hs ?_
  obtain ⟨hprop, hmeets, hproposal, -, hrest⟩ := hs.1
  exact ⟨hprop, hmeets, hproposal, by simp, hrest⟩

theorem tuneProfile_lawful (r : Request) {s : State} (hs : s.lawful d) : (tuneProfile r s).lawful d := by
  simp only [tuneProfile]
  split
  · exact Carried.lawful (.of_eq (by simp)) hs
  next p hp =>
    split
    · exact Carried.lawful (.of_eq (by simp)) hs
    · refine Carried.lawful (s := s.setPc { s.pc with tune := tuneAdd r.payload p s.pc.tune }) (.of_eq (by simp))
        ⟨?_, fun hd => detachHolds_congr (s := s) rfl rfl (hs.2 hd)⟩
      obtain ⟨hprop, hmeets, hproposal, hheld, hpending, harmed, hidle, hnone, hscan⟩ := hs.1
      exact ⟨hprop, hmeets, hproposal, hheld, hpending, harmed, hidle, fun h => by simp [hp] at h, hscan⟩

/-- An accepted reset: no proposal, and nothing pending but the reset (R87). -/
theorem resetAccepted_profileSound {s : State} (h : s.profileHolds) : s.resetAccepted.profileSound := by
  obtain ⟨-, hmeets, -, -, -, harmed, hidle, hnone, -⟩ := h
  exact ⟨by simp [State.resetAccepted], hmeets, nofun, by simp [State.resetAccepted], by simp [State.resetAccepted], harmed,
    hidle, hnone⟩

theorem pipelineReset_lawful (r : Request) {s : State} (hs : s.lawful d) : (pipelineReset r s).lawful d := by
  cases hactive : s.pc.active with
  | none =>
    simp only [pipelineReset, hactive]
    exact Carried.lawful (.of_eq (by simp)) hs
  | some p =>
    simp only [pipelineReset, hactive]
    split
    · exact Carried.lawful (.of_eq (by simp)) hs
    · rw [acceptReset_eq_resetAccepted hs.1]
      have hsound : (deferReply .pipelineReset r.tag s.resetAccepted).profileSound := resetAccepted_profileSound hs.1
      have hsome : (deferReply .pipelineReset r.tag s.resetAccepted).pc.active ≠ none := by
        simp [State.resetAccepted, hactive]
      have hdetach : s.detachHolds → (deferReply .pipelineReset r.tag s.resetAccepted).detachHolds := detachHolds_congr rfl rfl
      split
      next hscan =>
        refine lawful_of_step ⟨(profileHolds_iff _).mpr ⟨?_, fun _ => hscan⟩, hdetach⟩ hs
        exact profileSound_of_active (s := deferReply .pipelineReset r.tag s.resetAccepted) (.of_eq rfl) hsome hsound rfl (mt hsound.armed.mpr hsome)
          (fun h => absurd (h.symm.trans hscan) nofun)
      next hout =>
        obtain ⟨hreset, hnotreset, hdet⟩ := resetPoint_profileSound hsound hsome
        refine lawful_of_step ⟨(profileHolds_iff _).mpr ⟨hreset, ?_⟩, fun h => hdet (hdetach h)⟩ hs
        rw [hnotreset]
        simp [State.resetAccepted]

theorem powerOnState_lawful (s : State) : (powerOnState s).lawful d := by
  obtain ⟨-, -, hprofile, -⟩ := resetIsSound
  exact ⟨hprofile, fun _ => iff_of_false nofun nofun⟩

theorem reattachSource_carried (r : Request) {s : State} : Carried s (reattachSource r s) := by
  simp only [reattachSource]
  split
  next hdet => exact (reattach_carried (by simp [hdet])).trans (.of_eq (by simp))
  · exact .of_eq (by simp)

/-- The commands that reach the profile controller or the detach time keep both lawful; every other effect leaves what the
conditions read. -/
theorem lawful_keeps : Keeps (State.lawful d) := by
  constructor
  case powerOn => exact fun s _ => powerOnState_lawful s
  case line => exact fun e p s hs => (lineEvent_carried e p s).lawful hs
  case frameEnd => exact fun s hs => (frameEndEvent_carried s).lawful hs
  case signalLost => exact fun s hs => (signalLostEvent_carried s).lawful hs
  case startDetached => exact fun s _ hs => Carried.lawful (.of_eq (by split <;> simp)) hs
  case startObserved =>
    exact fun s _ _ hs => (Carried.trans (closeByStart_carried s) (.of_eq (by simp))).lawful hs
  case startTaken =>
    exact fun s k _ _ _ hs => (Carried.trans (closeByStart_carried s) (.of_eq (by simp))).lawful hs
  case tmin => exact fun s _ hs => (tminExpired_carried s).lawful hs
  case repeatTimer => exact fun s _ hs => (repeatExpired_carried s).lawful hs
  case fixedTimer => exact fun s _ hs => (fixedExpired_carried s).lawful hs
  case scanEnd =>
    exact fun s hdue hs => lawful_of_step (endScan_profileHolds hs.1 (by simp [scanEndDue] at hdue; exact hdue.1.1)) hs
  case setPanelLimits => exact fun s r _ hs => sequenceCheck_lawful (s := takeRequest s) hs fun _ => setPanelLimits_lawful r (s := takeRequest s) hs
  case proposeProfile =>
    exact fun s r _ hs => sequenceCheck_lawful (s := takeRequest s) hs fun hf => proposeProfile_lawful r (s := takeRequest s) hs hf
  case confirmProfile => exact fun s r _ hs => confirmProfile_lawful r (s := takeRequest s) hs
  case withdrawProfile => exact fun s r _ hs => withdrawProfile_lawful r (s := takeRequest s) hs
  case clearFault => exact fun s r _ hs => clearFault_lawful r (s := takeRequest s) hs
  case tuneProfile => exact fun s r _ hs => sequenceCheck_lawful (s := takeRequest s) hs fun _ => tuneProfile_lawful r (s := takeRequest s) hs
  case lutWrite =>
    exact fun s r _ hs => sequenceCheck_lawful (s := takeRequest s) hs fun _ => Carried.lawful (s := takeRequest s) (.of_eq (by simp)) hs
  case lutCommit =>
    exact fun s r _ hs => sequenceCheck_lawful (s := takeRequest s) hs fun _ => Carried.lawful (s := takeRequest s) (.of_eq (by simp)) hs
  case setFilter =>
    exact fun s r _ hs => sequenceCheck_lawful (s := takeRequest s) hs fun _ => Carried.lawful (s := takeRequest s) (.of_eq (by simp)) hs
  case reattachSource => exact fun s r _ hs => Carried.lawful (s := takeRequest s) (reattachSource_carried r) hs
  case pipelineReset => exact fun s r _ hs => pipelineReset_lawful r (s := takeRequest s) hs
  case settle | tick | gap => exact fun s hs => Carried.lawful (.of_eq (by simp)) hs
  case packet => exact fun a b c s hs => Carried.lawful (.of_eq (by simp)) hs
  all_goals
    intros
    refine Carried.lawful (.of_eq ?_) ‹State.lawful d _›
    simp

/-- Settles O8: the conditions are kept by every effect, with the detach time where it was lawful. -/
theorem activeProfileStaysLawful : Obligations.ActiveProfileStaysLawful := by
  intro s t hs hstep
  obtain ⟨hprofile, hdetach⟩ := step_kept (lawful_keeps (d := s.detachHolds)) hstep ⟨hs, id⟩
  exact ⟨hprofile, hdetach⟩

end Sys2Proof.Machine
end

section
/-! The slot pool apart from the rest of the state: what each role change makes of it (chapter 1). -/

namespace Sys2Proof.Machine

/-- A pool is its records, its markers, its list, its copy of Q and the strip store. -/
theorem SlotPool.ext_slot {p p' : SlotPool} (hslot : ∀ k, p.slot k = p'.slot k) (hfilling : p.filling = p'.filling)
    (hready : p.ready = p'.ready) (hheld : p.held = p'.held) (hscreen : p.onScreen = p'.onScreen)
    (hcands : p.cands = p'.cands) (hq : p.q = p'.q) (hstore : p.store = p'.store) : p = p' := by
  have hslots : p.slots = p'.slots := Vector.ext fun i hi => hslot ⟨i, hi⟩
  cases p
  cases p'
  simp_all

theorem SlotPool.slot_setSlot (p : SlotPool) (k j : Slot) (r : SlotRec) :
    (p.setSlot k r).slot j = if j = k then r else p.slot j := by
  by_cases h : j = k
  · subst h
    simp
  · rw [if_neg h, SlotPool.slot_setSlot_ne p r h]

@[simp] theorem SlotPool.slot_ofFn (p : SlotPool) (f : Slot → SlotRec) (k : Slot) :
    ({ p with slots := Vector.ofFn f } : SlotPool).slot k = f k := by
  simp [SlotPool.slot]

/-- Several slots freed: off the list, no marker theirs, their records at the free values (R5). -/
def SlotPool.released (p : SlotPool) (ks : List Slot) : SlotPool :=
  let stays := fun j : Slot => decide (j ∉ ks)
  { p with
    slots := Vector.ofFn fun j => if j ∈ ks then SlotRec.free else p.slot j
    cands := p.cands.filter stays
    filling := p.filling.filter stays
    ready := p.ready.filter stays
    held := p.held.filter stays
    onScreen := p.onScreen.filter stays }

@[simp] theorem SlotPool.released_slot (p : SlotPool) (ks : List Slot) (j : Slot) :
    (p.released ks).slot j = if j ∈ ks then SlotRec.free else p.slot j := by
  simp [SlotPool.slot, SlotPool.released]

theorem filter_of_all (m : Option Slot) : m.filter (fun _ => true) = m := by
  cases m <;> rfl

theorem clearMarker_eq_filter (k : Slot) (m : Option Slot) : clearMarker k m = m.filter fun j => decide (j ≠ k) := by
  cases m with
  | none => simp [clearMarker]
  | some j =>
    by_cases h : j = k
    · simp [clearMarker, h, Option.filter]
    · simp [clearMarker, h, Option.filter]

/-- Freeing one slot more. -/
theorem SlotPool.released_cons (p : SlotPool) (k : Slot) (ks : List Slot) :
    (p.release k).released ks = p.released (k :: ks) := by
  have hmarker (m : Option Slot) :
      (clearMarker k m).filter (fun j => decide (j ∉ ks)) = m.filter fun j => decide (j ∉ k :: ks) := by
    rw [clearMarker_eq_filter]
    simp only [Option.filter_filter, List.mem_cons, not_or, Bool.decide_and, ne_eq]
  refine SlotPool.ext_slot (fun j => ?_) (hmarker _) (hmarker _) (hmarker _) (hmarker _) ?_ rfl rfl
  · have hrelease : (p.release k).slot j = if j = k then SlotRec.free else p.slot j := SlotPool.slot_setSlot p k j _
    rw [SlotPool.released_slot, SlotPool.released_slot, hrelease]
    by_cases h : j = k <;> simp [h]
  · simp only [SlotPool.released, SlotPool.release, List.filter_filter, List.mem_cons, not_or, Bool.decide_and, ne_eq]
    exact List.filter_congr fun j _ => Bool.and_comm _ _

theorem SlotPool.released_nil (p : SlotPool) : p.released [] = p := by
  refine SlotPool.ext_slot (by simp) ?_ ?_ ?_ ?_ (by simp [SlotPool.released]) rfl rfl
  all_goals simp [SlotPool.released, filter_of_all]

theorem SlotPool.release_eq (p : SlotPool) (k : Slot) : p.release k = p.released [k] := by
  rw [← SlotPool.released_cons, SlotPool.released_nil]

@[simp] theorem reportSlotFate_pool (r : SlotRec) (fate : Fate) (s : State) : (reportSlotFate r fate s).pool = s.pool := by
  simp

theorem freeSlot_pool (k : Slot) (fate : Fate) (s : State) : (freeSlot k fate s).pool = s.pool.released [k] := by
  rw [freeSlot, reportSlotFate_pool]
  exact SlotPool.release_eq _ k

theorem freeSlots_pool (ks : List Slot) (fate : Fate) (s : State) :
    (freeSlots ks fate s).pool = s.pool.released ks := by
  induction ks generalizing s with
  | nil => exact (SlotPool.released_nil _).symm
  | cons k ks ih =>
    have hcons : freeSlots (k :: ks) fate s = freeSlots ks fate (freeSlot k fate s) := rfl
    rw [hcons, ih, freeSlot_pool, ← SlotPool.release_eq, SlotPool.released_cons]

/-- A candidate goes on screen: the older ones freed, then the slot off the list and ready no more (R15, R19). -/
theorem SlotPool.toScreen_eq (p : SlotPool) (k : Slot) (shown : SlotRec) :
    p.toScreen k shown =
      let older := p.released (p.cands.takeWhile (· ≠ k))
      { older.setSlot k shown with
        cands := older.cands.filter (· ≠ k), ready := clearMarker k older.ready, onScreen := some k } := by
  refine SlotPool.ext_slot (fun j => ?_) rfl ?_ rfl rfl ?_ rfl rfl
  · have hset := SlotPool.slot_setSlot (p.released (p.cands.takeWhile (· ≠ k))) k j shown
    refine Eq.trans ?_ hset.symm
    simp [SlotPool.slot, SlotPool.toScreen, SlotPool.released]
  · simp only [clearMarker_eq_filter, SlotPool.toScreen, SlotPool.released, Option.filter_filter, Bool.and_comm]
  · simp [SlotPool.toScreen, SlotPool.released, List.filter_filter]

/-- The slot chosen is none of the older candidates. -/
theorem not_mem_older (p : SlotPool) (k : Slot) : k ∉ p.cands.takeWhile (· ≠ k) := by
  intro h
  simpa using List.mem_takeWhile_imp h

theorem chooseSlot_pool (k : Slot) (s : State) :
    (chooseSlot k s).pool = s.pool.toScreen k { s.slot k with presented := true, shownTop := true } := by
  have hk := not_mem_older s.pool k
  rw [SlotPool.toScreen_eq]
  simp only [chooseSlot, State.setPool_fields, State.slot, freeSlots_pool, SlotPool.released_slot, if_neg hk]

theorem repeatHeld_pool (k : Slot) (s : State) : (repeatHeld k s).pool =
    { s.pool.setSlot k { s.slot k with presented := true, shownTop := true } with onScreen := some k } := rfl

/-- A COMPLETE slot becomes held: another held slot is freed (R18). -/
def SlotPool.heldBy (p : SlotPool) (k : Slot) : SlotPool :=
  match p.held with
  | some j => if j = k then p else ({ p with held := some k } : SlotPool).released [j]
  | none => { p with held := some k }

theorem makeHeld_pool (k : Slot) (s : State) : (makeHeld k s).pool = s.pool.heldBy k := by
  simp only [makeHeld, reportSlotFate_pool, SlotPool.heldBy]
  cases hheld : s.pool.held with
  | none => rfl
  | some j =>
    by_cases hj : j = k
    · simp only [hj, if_true, State.setPool_fields]
      rw [← hj, ← hheld]
    · simp only [hj, if_false, freeSlot_pool, State.setPool_fields]

/-- The pool at a scan end (R17). -/
def SlotPool.offScreen (p : SlotPool) : SlotPool :=
  match p.onScreen with
  | none => p
  | some k =>
    match (p.slot k).fill with
    | .complete => ({ p with onScreen := none } : SlotPool).heldBy k
    | .filling => { p with onScreen := none, cands := p.cands ++ [k] }
    | .aborted => ({ p with onScreen := none } : SlotPool).released [k]
    | .empty => { p with onScreen := none }

theorem scanEndPool_pool (s : State) : (scanEndPool s).pool = s.pool.offScreen := by
  rw [scanEndPool, SlotPool.offScreen]
  cases s.pool.onScreen with
  | none => rfl
  | some k =>
    have hslot : (s.setPool { s.pool with onScreen := none }).slot k = s.pool.slot k := rfl
    simp only [hslot]
    cases (s.pool.slot k).fill with
    | complete => exact makeHeld_pool k _
    | aborted => exact freeSlot_pool k _ _
    | filling | empty => rfl

/-- The pool once the frame on screen has left it at a splice (R19). -/
def SlotPool.screenLeft (p : SlotPool) : SlotPool :=
  match p.onScreen with
  | none => p
  | some a =>
    match (p.slot a).fill with
    | .complete => p.heldBy a
    | .aborted => p.released [a]
    | .empty | .filling => p

theorem leaveScreen_pool (s : State) : (leaveScreen s).pool = s.pool.screenLeft := by
  rw [leaveScreen, SlotPool.screenLeft]
  cases s.pool.onScreen with
  | none => rfl
  | some a =>
    have hslot : s.slot a = s.pool.slot a := rfl
    simp only [hslot]
    cases (s.pool.slot a).fill with
    | complete =>
      by_cases hheld : s.pool.held = some a
      · simp [hheld, SlotPool.heldBy]
      · simp only [if_neg hheld, makeHeld_pool]
    | aborted => exact freeSlot_pool a _ _
    | filling | empty => rfl

theorem spliceSlot_pool (n : Slot) (s : State) : (spliceSlot n s).pool =
    s.pool.screenLeft.toScreen n { s.pool.screenLeft.slot n with presented := true } := by
  have hn := not_mem_older s.pool.screenLeft n
  rw [SlotPool.toScreen_eq]
  simp only [spliceSlot, State.setPool_fields, State.slot, freeSlots_pool, leaveScreen_pool, SlotPool.released_slot,
    if_neg hn]

/-- The filling frame aborted: ABORTED on screen, freed otherwise (R6, R10). -/
def SlotPool.aborted (p : SlotPool) (truncated : Bool) : SlotPool :=
  match p.filling with
  | none => p
  | some k =>
    if p.onScreen = some k then
      { p.setSlot k { p.slot k with fill := .aborted, truncated := truncated } with filling := none }
    else p.released [k]

theorem abortFilling_pool (truncated : Bool) (s : State) :
    (abortFilling truncated s).pool = s.pool.aborted truncated := by
  rw [abortFilling, SlotPool.aborted]
  cases hfilling : s.pool.filling with
  | none => rfl
  | some k =>
    have hscreen : (s.setPool { s.pool.setSlot k { s.slot k with fill := .aborted, truncated := truncated } with
        filling := none }).pool.onScreen = s.pool.onScreen := rfl
    simp only [hscreen]
    by_cases hk : s.pool.onScreen = some k
    · rw [if_pos hk, if_pos hk]
      rfl
    · rw [if_neg hk, if_neg hk, freeSlot_pool]
      refine SlotPool.ext_slot (fun j => ?_) ?_ rfl rfl rfl rfl rfl rfl
      · by_cases hj : j = k
        · simp [hj]
        · rw [SlotPool.released_slot, SlotPool.released_slot, if_neg (by simpa using hj), if_neg (by simpa using hj)]
          exact SlotPool.slot_setSlot_ne s.pool _ hj
      · simp [SlotPool.released, hfilling, Option.filter]

end Sys2Proof.Machine
end

section
/-! The roles of the slot pool: every role change keeps them (R4 to R22). -/

namespace Sys2Proof.Machine

section
variable {p : SlotPool}

theorem SlotPool.isFree_iff (k : Slot) : p.isFree k = true ↔
    p.filling ≠ some k ∧ p.ready ≠ some k ∧ p.held ≠ some k ∧ p.onScreen ≠ some k := by
  simp [SlotPool.isFree, and_assoc]

/-- The COMPLETE slots that wait are not the filling one. -/
theorem SlotPool.rolesHold.ready_ne_filling (h : p.rolesHold) {k : Slot} (hk : p.ready = some k) : p.filling ≠ some k := by
  obtain ⟨-, hfill, hready, -, -, -⟩ := h
  obtain ⟨hcomplete, -⟩ := hready k hk
  intro hf
  rw [(hfill k).mpr hf] at hcomplete
  cases hcomplete

theorem SlotPool.rolesHold.held_ne_filling (h : p.rolesHold) {k : Slot} (hk : p.held = some k) : p.filling ≠ some k := by
  obtain ⟨-, hfill, -, hheld, -, -⟩ := h
  intro hf
  have hcomplete := hheld k hk
  rw [(hfill k).mpr hf] at hcomplete
  cases hcomplete

/-- A candidate is the ready slot, or the filling one off the screen (R11). -/
theorem SlotPool.rolesHold.mem_cands (h : p.rolesHold) {k : Slot} :
    k ∈ p.cands ↔ p.ready = some k ∨ p.filling = some k ∧ p.onScreen ≠ some k := by
  obtain ⟨-, -, -, -, -, hcands⟩ := h
  rw [hcands]
  by_cases hs : p.onScreen = p.filling
  · simp [hs]
  · simp only [if_neg hs, List.mem_append, Option.mem_toList]
    refine or_congr_right ⟨fun hf => ⟨hf, fun ho => hs (ho.trans hf.symm)⟩, And.left⟩

/-- Freeing slots keeps the roles (R5). -/
theorem SlotPool.rolesHold.released (h : p.rolesHold) (ks : List Slot) : (p.released ks).rolesHold := by
  obtain ⟨hfree, hfill, hready, hheld, hscreen, hcands⟩ := h
  have hmarker {m : Option Slot} {k : Slot} : m.filter (fun j => decide (j ∉ ks)) = some k ↔ m = some k ∧ k ∉ ks := by
    simp
  refine ⟨fun k hk => ?_, fun k => ?_, fun k hk => ?_, fun k hk => ?_, fun k hk => ?_, ?_⟩
  · rw [SlotPool.released_slot]
    split
    · rfl
    next hmem =>
      refine hfree k ?_
      rw [SlotPool.isFree_iff] at hk ⊢
      simpa [SlotPool.released, hmarker, hmem] using hk
  · rw [SlotPool.released_slot]
    refine Iff.trans ?_ hmarker.symm
    split
    next hmem => simp [SlotRec.free, hmem]
    next hmem => simp [hmem, hfill k]
  · obtain ⟨hk, hmem⟩ := hmarker.mp hk
    obtain ⟨hcomplete, heligible, hnheld, hnscreen⟩ := hready k hk
    rw [SlotPool.released_slot, if_neg hmem]
    exact ⟨hcomplete, heligible, fun hc => hnheld (hmarker.mp hc).1, fun hc => hnscreen (hmarker.mp hc).1⟩
  · obtain ⟨hk, hmem⟩ := hmarker.mp hk
    rw [SlotPool.released_slot, if_neg hmem]
    exact hheld k hk
  · obtain ⟨hk, hmem⟩ := hmarker.mp hk
    rw [SlotPool.released_slot, if_neg hmem]
    obtain ⟨hne, hrace⟩ := hscreen k hk
    refine ⟨hne, fun hf => ?_⟩
    simp [SlotPool.released, hrace (hmarker.mp hf).1]
  · simp only [SlotPool.released, hcands, List.filter_append]
    congr 1
    · cases hr : p.ready with
      | none => rfl
      | some r => by_cases hm : r ∈ ks <;> simp [hm, Option.filter]
    · cases hf : p.filling with
      | none => cases hs : p.onScreen <;> simp
      | some f =>
        by_cases hm : f ∈ ks
        · cases hs : p.onScreen with
          | none => simp [hm, Option.filter]
          | some o =>
            by_cases ho : o = f <;> simp [hm, ho, Option.filter]
        · cases hs : p.onScreen with
          | none => simp [hm, Option.filter]
          | some o =>
            by_cases ho : o = f
            · simp [hm, ho, Option.filter]
            · by_cases hmo : o ∈ ks <;> simp [hm, hmo, ho, Option.filter]

/-- A record written anew, with its fill state and its mark. -/
theorem SlotPool.rolesHold.setSlot (h : p.rolesHold) {k : Slot} {r : SlotRec} (hr : r.fill = (p.slot k).fill)
    (hmark : p.ready = some k → r.eligible = true) (hk : p.isFree k = false) : (p.setSlot k r).rolesHold := by
  obtain ⟨hfree, hfill, hready, hheld, hscreen, hcands⟩ := h
  have hfillEq (j : Slot) : ((p.setSlot k r).slot j).fill = (p.slot j).fill := by
    rw [SlotPool.slot_setSlot]
    split
    next hj => rw [hr, hj]
    · rfl
  refine ⟨fun j hj => ?_, fun j => ?_, fun j hj => ?_, fun j hj => ?_, fun j hj => ?_, hcands⟩
  · have hjk : j ≠ k := by
      rintro rfl
      exact absurd (hj.symm.trans hk) nofun
    rw [SlotPool.slot_setSlot_ne _ _ hjk]
    exact hfree j hj
  · rw [hfillEq]
    exact hfill j
  · obtain ⟨hcomplete, heligible, hmarkers⟩ := hready j hj
    refine ⟨(hfillEq j).trans hcomplete, ?_, hmarkers⟩
    rw [SlotPool.slot_setSlot]
    split
    next hjk => exact hmark (hjk ▸ hj)
    · exact heligible
  · rw [hfillEq]
    exact hheld j hj
  · rw [hfillEq]
    exact hscreen j hj

theorem SlotPool.slot_of_slots {p p' : SlotPool} (h : p'.slots = p.slots) (k : Slot) : p'.slot k = p.slot k := by
  simp only [SlotPool.slot, h]

/-- The frame that fills on screen ends there, COMPLETE or ABORTED (R6, R8, R10). -/
theorem SlotPool.rolesHold.endOnScreen (h : p.rolesHold) {k : Slot} (hk : p.filling = some k) (hs : p.onScreen = some k)
    {r : SlotRec} (hne : r.fill ≠ .empty) (hnf : r.fill ≠ .filling) :
    ({ p.setSlot k r with filling := none } : SlotPool).rolesHold := by
  have hnready (j : Slot) (hj : p.ready = some j) : j ≠ k := fun e => h.ready_ne_filling hj (e ▸ hk)
  have hnheld (j : Slot) (hj : p.held = some j) : j ≠ k := fun e => h.held_ne_filling hj (e ▸ hk)
  obtain ⟨hfree, hfill, hready, hheld, hscreen, hcands⟩ := h
  have hslot (j : Slot) : ({ p.setSlot k r with filling := none } : SlotPool).slot j = if j = k then r else p.slot j :=
    SlotPool.slot_setSlot p k j r
  refine ⟨fun j hj => ?_, fun j => ?_, fun j hj => ?_, fun j hj => ?_, fun j hj => ?_, ?_⟩
  · obtain ⟨-, hr, hd, ho⟩ := (SlotPool.isFree_iff j).mp hj
    have hjk : j ≠ k := fun e => ho (e ▸ hs)
    have hf : p.filling ≠ some j := fun e => hjk (Option.some.inj (e.symm.trans hk))
    rw [hslot, if_neg hjk]
    exact hfree j ((SlotPool.isFree_iff j).mpr ⟨hf, hr, hd, ho⟩)
  · rw [hslot]
    refine iff_of_false (fun hj => ?_) nofun
    split at hj
    · exact hnf hj
    next hjk => exact hjk (Option.some.inj (((hfill j).mp hj).symm.trans hk))
  · rw [hslot, if_neg (hnready j hj)]
    exact hready j hj
  · rw [hslot, if_neg (hnheld j hj)]
    exact hheld j hj
  · have hjk : j = k := Option.some.inj (hj.symm.trans hs)
    rw [hslot, if_pos hjk]
    exact ⟨hne, nofun⟩
  · simp [hcands, hs, hk]

/-- An aborted filling frame (R6, R10). -/
theorem SlotPool.rolesHold.aborted (h : p.rolesHold) (truncated : Bool) : (p.aborted truncated).rolesHold := by
  rw [SlotPool.aborted]
  split
  · exact h
  next k hk =>
    split
    next hs => exact h.endOnScreen hk hs nofun nofun
    · exact h.released [k]

/-- A COMPLETE slot that is not ready becomes held where none was (R18). -/
theorem SlotPool.rolesHold.hold (h : p.rolesHold) {k : Slot} (hk : (p.slot k).fill = .complete)
    (hready : p.ready ≠ some k) (hnone : p.held = none) : ({ p with held := some k } : SlotPool).rolesHold := by
  obtain ⟨hfree, hfill, hreadies, -, hscreen, hcands⟩ := h
  refine ⟨fun j hj => ?_, hfill, fun j hj => ?_, fun j hj => ?_, hscreen, hcands⟩
  · obtain ⟨hf, hr, hd, ho⟩ := (SlotPool.isFree_iff j).mp hj
    exact hfree j ((SlotPool.isFree_iff j).mpr ⟨hf, hr, by simp [hnone], ho⟩)
  · obtain ⟨hcomplete, heligible, -, hnscreen⟩ := hreadies j hj
    refine ⟨hcomplete, heligible, fun hd => hready ?_, hnscreen⟩
    rw [Option.some.inj hd]
    exact hj
  · obtain rfl := Option.some.inj hj
    exact hk

/-- Another held slot is freed first (R18). -/
theorem SlotPool.heldBy_of_other {j k : Slot} (hj : p.held = some j) (hjk : j ≠ k) :
    p.heldBy k = { p.released [j] with held := some k } := by
  have hkj : ¬ k = j := fun e => hjk e.symm
  simp only [SlotPool.heldBy, hj, if_neg hjk, SlotPool.released, Option.filter_some]
  simp [SlotPool.slot, hkj]

/-- A COMPLETE slot that is not ready becomes held (R18). -/
theorem SlotPool.rolesHold.heldBy (h : p.rolesHold) {k : Slot} (hk : (p.slot k).fill = .complete)
    (hready : p.ready ≠ some k) : (p.heldBy k).rolesHold := by
  cases hheld : p.held with
  | none =>
    simp only [SlotPool.heldBy, hheld]
    exact h.hold hk hready hheld
  | some j =>
    by_cases hj : j = k
    · simpa [SlotPool.heldBy, hheld, hj] using h
    · rw [SlotPool.heldBy_of_other hheld hj]
      refine (h.released [j]).hold ?_ ?_ ?_
      · rwa [SlotPool.released_slot, if_neg (by simpa using Ne.symm hj)]
      · simp [SlotPool.released, hready]
      · simp [SlotPool.released, hheld, Option.filter]

theorem SlotPool.heldBy_fields (k : Slot) : (p.heldBy k).held = some k ∧
    ((∀ j, p.held = some j → p.ready ≠ some j ∧ p.filling ≠ some j ∧ (p.onScreen = some j → j = k)) →
      (p.heldBy k).onScreen = p.onScreen ∧ (p.heldBy k).ready = p.ready ∧ (p.heldBy k).filling = p.filling) := by
  cases hheld : p.held with
  | none => simp [SlotPool.heldBy, hheld]
  | some j =>
    by_cases hj : j = k
    · simp [SlotPool.heldBy, hheld, hj]
    · rw [SlotPool.heldBy_of_other hheld hj]
      refine ⟨rfl, fun h => ?_⟩
      obtain ⟨hr, hf, ho⟩ := h j rfl
      have ho : p.onScreen ≠ some j := fun e => hj (ho e)
      have hstay {m : Option Slot} (hm : m ≠ some j) : m.filter (fun i => decide (i ∉ [j])) = m := by
        cases m with
        | none => rfl
        | some i => simpa [Option.filter] using hm
      exact ⟨hstay ho, hstay hr, hstay hf⟩

/-- The on-screen slot leaves the screen, and another marker keeps it (R4). -/
theorem SlotPool.rolesHold.dropScreen (h : p.rolesHold) (hheld : ∀ k, p.onScreen = some k → p.held = some k) :
    ({ p with onScreen := none } : SlotPool).rolesHold := by
  have hnf (k : Slot) (hk : p.onScreen = some k) : p.filling ≠ some k := h.held_ne_filling (hheld k hk)
  obtain ⟨hfree, hfill, hready, hheldc, hscreen, hcands⟩ := h
  refine ⟨fun j hj => ?_, hfill, fun j hj => ?_, hheldc, nofun, ?_⟩
  · obtain ⟨hf, hr, hd, -⟩ := (SlotPool.isFree_iff j).mp hj
    exact hfree j ((SlotPool.isFree_iff j).mpr ⟨hf, hr, hd, fun ho => hd (hheld j ho)⟩)
  · obtain ⟨hcomplete, heligible, hnheld, -⟩ := hready j hj
    exact ⟨hcomplete, heligible, hnheld, nofun⟩
  · rw [hcands]
    cases ho : p.onScreen with
    | none => rfl
    | some k =>
      have hne : ¬ some k = p.filling := fun e => hnf k ho e.symm
      cases hf : p.filling with
      | none => simp
      | some f =>
        rw [hf] at hne
        rw [if_neg hne, if_neg nofun]

/-- The scan ends (R17). -/
theorem SlotPool.rolesHold.offScreen (h : p.rolesHold) : p.offScreen.rolesHold := by
  rw [SlotPool.offScreen]
  split
  · exact h
  next k hk =>
    obtain ⟨hfree, hfill, hready, hheld, hscreen, hcands⟩ := id h
    obtain ⟨hne, hrace⟩ := hscreen k hk
    cases hf : (p.slot k).fill with
    | empty => exact absurd hf hne
    | complete =>
      have hcomm : ({ p with onScreen := none } : SlotPool).heldBy k = { p.heldBy k with onScreen := none } := by
        cases hd : p.held with
        | none => simp [SlotPool.heldBy, hd]
        | some j =>
          by_cases hj : j = k
          · simp [SlotPool.heldBy, hd, hj]
          · simp [SlotPool.heldBy, hd, hj, SlotPool.released, SlotPool.slot]
      have hnready : p.ready ≠ some k := fun e => (hready k e).2.2.2 hk
      have hall := h.heldBy hf hnready
      simp only [hcomm]
      refine hall.dropScreen fun j hj => ?_
      have hj' : p.onScreen = some j := by
        cases hd : p.held with
        | none => simpa [SlotPool.heldBy, hd] using hj
        | some i =>
          by_cases hi : i = k
          · simpa [SlotPool.heldBy, hd, hi] using hj
          · rw [SlotPool.heldBy_of_other hd hi] at hj
            exact (Option.filter_eq_some_iff.mp hj).1
      rw [(SlotPool.heldBy_fields k).1, ← hk, hj']
    | filling =>
      have hkf := (hfill k).mp hf
      refine ⟨fun j hj => ?_, hfill, fun j hj => ?_, hheld, nofun, ?_⟩
      · obtain ⟨hnf, hr, hd, -⟩ := (SlotPool.isFree_iff j).mp hj
        exact hfree j ((SlotPool.isFree_iff j).mpr ⟨hnf, hr, hd, fun ho => hnf (hkf.trans (hk.symm.trans ho))⟩)
      · obtain ⟨hcomplete, heligible, hnheld, -⟩ := hready j hj
        exact ⟨hcomplete, heligible, hnheld, nofun⟩
      · simp [hcands, hk, hkf, hrace hkf]
    | aborted =>
      have hsame : ({ p with onScreen := none } : SlotPool).released [k] = p.released [k] := by
        simp [SlotPool.released, hk, Option.filter, SlotPool.slot]
      simp only [hsame]
      exact h.released [k]

/-- What is left of the screen's old frame at a splice: the held frame or the filling one, or none (R19). -/
theorem SlotPool.rolesHold.screenLeft (h : p.rolesHold) : p.screenLeft.rolesHold ∧
    ∀ k, p.screenLeft.onScreen = some k → p.screenLeft.held = some k ∨ p.screenLeft.filling = some k := by
  rw [SlotPool.screenLeft]
  split
  next hk => exact ⟨h, fun k e => absurd (hk.symm.trans e) nofun⟩
  next a ha =>
    obtain ⟨hfree, hfill, hready, hheld, hscreen, hcands⟩ := id h
    obtain ⟨hne, hrace⟩ := hscreen a ha
    cases hf : (p.slot a).fill with
    | empty => exact absurd hf hne
    | complete =>
      refine ⟨h.heldBy hf fun e => (hready a e).2.2.2 ha, fun k hk => .inl ?_⟩
      have hk' : p.onScreen = some k := by
        cases hd : p.held with
        | none => simpa [SlotPool.heldBy, hd] using hk
        | some i =>
          by_cases hi : i = a
          · simpa [SlotPool.heldBy, hd, hi] using hk
          · simp only [SlotPool.heldBy_of_other hd hi] at hk
            exact (Option.filter_eq_some_iff.mp hk).1
      simp only [(SlotPool.heldBy_fields a).1, ← ha, hk']
    | filling => exact ⟨h, fun k hk => .inr ((hfill k).mp (by rw [← Option.some.inj (ha.symm.trans hk)]; exact hf))⟩
    | aborted =>
      refine ⟨h.released [a], fun k hk => ?_⟩
      simp [SlotPool.released, ha, Option.filter] at hk

/-- A candidate goes on screen; the older ones are freed (R15, R19). -/
theorem SlotPool.rolesHold.toScreen (h : p.rolesHold) {k : Slot} {r : SlotRec} (hk : k ∈ p.cands)
    (hon : ∀ a, p.onScreen = some a → p.held = some a) (hr : r.fill = (p.slot k).fill) : (p.toScreen k r).rolesHold := by
  have holder := not_mem_older p k
  have hready : ∀ j, (p.released (p.cands.takeWhile (· ≠ k))).ready = some j → j = k := by
    intro j hj
    obtain ⟨hj, hmem⟩ := Option.filter_eq_some_iff.mp hj
    by_contra hne
    obtain ⟨-, -, -, -, -, hcands⟩ := h
    simp [hcands, hj, hne] at hmem
  have hon' : ∀ a, (p.released (p.cands.takeWhile (· ≠ k))).onScreen = some a →
      (p.released (p.cands.takeWhile (· ≠ k))).held = some a := by
    intro a ha
    obtain ⟨ha, hmem⟩ := Option.filter_eq_some_iff.mp ha
    exact Option.filter_eq_some_iff.mpr ⟨hon a ha, hmem⟩
  have hk' : k ∈ (p.released (p.cands.takeWhile (· ≠ k))).cands := List.mem_filter.mpr ⟨hk, by simpa using holder⟩
  have hr' : r.fill = ((p.released (p.cands.takeWhile (· ≠ k))).slot k).fill := by
    rw [SlotPool.released_slot, if_neg holder, hr]
  have hP := h.released (p.cands.takeWhile (· ≠ k))
  rw [SlotPool.toScreen_eq]
  generalize p.released (p.cands.takeWhile (· ≠ k)) = P at *
  have hdesignated := hP.mem_cands.mp hk'
  have hnf (j : Slot) (hj : P.onScreen = some j) : P.filling ≠ some j := hP.held_ne_filling (hon' j hj)
  obtain ⟨hfree, hfill, hreadies, hheld, hscreen, hcands⟩ := hP
  have hfillEq (j : Slot) : ((P.setSlot k r).slot j).fill = (P.slot j).fill := by
    rw [SlotPool.slot_setSlot]
    split
    next hj => rw [hr', hj]
    · rfl
  have hnone : clearMarker k P.ready = none := by
    cases hp : P.ready with
    | none => simp [clearMarker]
    | some j => simp [clearMarker, hready j hp]
  refine ⟨fun j hj => ?_, fun j => ?_, fun j hj => ?_, fun j hj => ?_, fun j hj => ?_, ?_⟩
  · obtain ⟨hf, hr, hd, ho⟩ := (SlotPool.isFree_iff j).mp hj
    have hjk : j ≠ k := fun e => ho (by rw [e])
    refine (SlotPool.slot_setSlot_ne P r hjk).trans (hfree j ((SlotPool.isFree_iff j).mpr ⟨hf, ?_, hd, ?_⟩))
    · exact fun e => hjk (hready j e)
    · exact fun e => hd (hon' j e)
  · exact (iff_of_eq (congrArg (· = _) (hfillEq j))).trans (hfill j)
  · exact absurd (hnone.symm.trans hj) nofun
  · exact (hfillEq j).trans (hheld j hj)
  · obtain rfl := Option.some.inj hj
    refine ⟨fun he => ?_, fun _ => hnone⟩
    have he := (hfillEq k).symm.trans he
    rcases hdesignated with hd | ⟨hd, -⟩
    · rw [(hreadies k hd).1] at he
      cases he
    · rw [(hfill k).mpr hd] at he
      cases he
  · simp only [hnone, SlotPool.setSlot_fields, hcands, List.filter_append]
    have hfirst : P.ready.toList.filter (· ≠ k) = [] := by
      cases hp : P.ready with
      | none => rfl
      | some j => simp [hready j hp]
    rw [hfirst]
    cases hf : P.filling with
    | none => simp
    | some f =>
      have hne : ¬ P.onScreen = some f := fun e => hnf f e hf
      rw [if_neg hne]
      by_cases hfk : f = k
      · simp [hfk]
      · simp [hfk, Ne.symm hfk]

/-- The held frame goes on screen again (R16). -/
theorem SlotPool.rolesHold.repeated (h : p.rolesHold) {k : Slot} {r : SlotRec} (hk : p.held = some k)
    (hon : p.onScreen = none) (hr : r.fill = (p.slot k).fill) (hmark : r.eligible = (p.slot k).eligible) :
    ({ p.setSlot k r with onScreen := some k } : SlotPool).rolesHold := by
  have hnf := h.held_ne_filling hk
  have hnfree : p.isFree k = false := by simp [SlotPool.isFree, hk]
  have hset := h.setSlot (k := k) (r := r) hr (fun hready => by
    obtain ⟨-, -, hreadies, -⟩ := h
    rw [hmark]
    exact (hreadies k hready).2.1) hnfree
  have hheldFill : ((p.setSlot k r).slot k).fill = .complete := by
    obtain ⟨-, -, -, hheld, -⟩ := h
    rw [SlotPool.slot_setSlot_self, hr]
    exact hheld k hk
  obtain ⟨hfree, hfill, hready, hheld, hscreen, hcands⟩ := hset
  refine ⟨fun j hj => ?_, hfill, fun j hj => ?_, hheld, fun j hj => ?_, ?_⟩
  · obtain ⟨hf, hr, hd, ho⟩ := (SlotPool.isFree_iff j).mp hj
    exact hfree j ((SlotPool.isFree_iff j).mpr ⟨hf, hr, hd, by simp [hon]⟩)
  · obtain ⟨hcomplete, heligible, hnheld, -⟩ := hready j hj
    exact ⟨hcomplete, heligible, hnheld, fun e => hnheld (hk.trans e)⟩
  · obtain rfl := Option.some.inj hj
    exact ⟨fun e => absurd (hheldFill.symm.trans e) nofun, fun e => absurd e hnf⟩
  · refine hcands.trans ?_
    simp only [SlotPool.setSlot_fields, hon]
    cases hf : p.filling with
    | none => simp
    | some f => rw [if_neg nofun, if_neg fun e => hnf (hf.trans e.symm)]

/-- A free slot takes a new frame where none fills (R6). -/
theorem SlotPool.rolesHold.take (h : p.rolesHold) {k : Slot} {r : SlotRec} (hk : p.isFree k = true)
    (hnone : p.filling = none) (hr : r.fill = .filling) :
    ({ p.setSlot k r with filling := some k, cands := p.cands ++ [k] } : SlotPool).rolesHold := by
  obtain ⟨-, hnready, hnheld, hnscreen⟩ := (SlotPool.isFree_iff k).mp hk
  obtain ⟨hfree, hfill, hready, hheld, hscreen, hcands⟩ := h
  have hslot (j : Slot) : ({ p.setSlot k r with filling := some k, cands := p.cands ++ [k] } : SlotPool).slot j =
      if j = k then r else p.slot j := SlotPool.slot_setSlot p k j r
  have hne {m : Option Slot} {j : Slot} (hm : m ≠ some k) (hj : m = some j) : j ≠ k := fun e => hm (e ▸ hj)
  refine ⟨fun j hj => ?_, fun j => ?_, fun j hj => ?_, fun j hj => ?_, fun j hj => ?_, ?_⟩
  · obtain ⟨hf, hmarkers⟩ := (SlotPool.isFree_iff j).mp hj
    rw [hslot, if_neg fun e => hf (by rw [e])]
    exact hfree j ((SlotPool.isFree_iff j).mpr ⟨by simp [hnone], hmarkers⟩)
  · rw [hslot]
    split
    next hjk => simp [hr, hjk]
    next hjk =>
      rw [hfill j, hnone]
      simpa using fun e : k = j => hjk e.symm
  · rw [hslot, if_neg (hne hnready hj)]
    exact hready j hj
  · rw [hslot, if_neg (hne hnheld hj)]
    exact hheld j hj
  · have hjk := hne hnscreen hj
    rw [hslot, if_neg hjk]
    exact ⟨(hscreen j hj).1, fun e => absurd (Option.some.inj e).symm hjk⟩
  · simp only [hcands, hnone, SlotPool.setSlot_fields, if_neg hnscreen]
    cases p.onScreen <;> simp

/-- The filling frame off the screen completes where none is ready (R8). -/
theorem SlotPool.rolesHold.complete (h : p.rolesHold) {k : Slot} {r : SlotRec} (hk : p.filling = some k)
    (hscreen : p.onScreen ≠ some k) (hnone : p.ready = none) (hr : r.fill = .complete) (hmark : r.eligible = true) :
    ({ p.setSlot k r with filling := none, ready := some k } : SlotPool).rolesHold := by
  have hnheld : p.held ≠ some k := fun e => h.held_ne_filling e hk
  obtain ⟨hfree, hfill, hready, hheld, hscreens, hcands⟩ := h
  have hslot (j : Slot) : ({ p.setSlot k r with filling := none, ready := some k } : SlotPool).slot j =
      if j = k then r else p.slot j := SlotPool.slot_setSlot p k j r
  have hne {m : Option Slot} {j : Slot} (hm : m ≠ some k) (hj : m = some j) : j ≠ k := fun e => hm (e ▸ hj)
  refine ⟨fun j hj => ?_, fun j => ?_, fun j hj => ?_, fun j hj => ?_, fun j hj => ?_, ?_⟩
  · obtain ⟨-, hr, hmarkers⟩ := (SlotPool.isFree_iff j).mp hj
    have hjk : j ≠ k := fun e => hr (by rw [e])
    rw [hslot, if_neg hjk]
    refine hfree j ((SlotPool.isFree_iff j).mpr ⟨fun e => hjk (Option.some.inj (e.symm.trans hk)), by simp [hnone], hmarkers⟩)
  · rw [hslot]
    refine iff_of_false (fun hj => ?_) nofun
    split at hj
    · exact absurd (hr.symm.trans hj) nofun
    next hjk => exact hjk (Option.some.inj (((hfill j).mp hj).symm.trans hk))
  · obtain rfl := Option.some.inj hj
    rw [hslot, if_pos rfl]
    exact ⟨hr, hmark, hnheld, hscreen⟩
  · rw [hslot, if_neg (hne hnheld hj)]
    exact hheld j hj
  · rw [hslot, if_neg (hne hscreen hj)]
    exact ⟨(hscreens j hj).1, nofun⟩
  · simp [hcands, hnone, hk, hscreen]

end

end Sys2Proof.Machine
end

section
/-! Judging the candidates (R13): under the roles of the pool only the filling candidate can become eligible, and with Q
unknown none does. -/

namespace Sys2Proof.Machine

theorem rolesHold_isFree_of_cand {p : SlotPool} (h : p.rolesHold) {k : Slot} (hk : k ∈ p.cands) : p.isFree k = false := by
  rcases h.mem_cands.mp hk with hk | ⟨hk, -⟩ <;> simp [SlotPool.isFree, hk]

theorem mem_cands_of_judges {s : State} {k : Slot} (hj : s.judges k = true) : k ∈ s.pool.cands := by
  simp only [State.judges, Bool.and_eq_true, List.contains_iff_mem] at hj
  exact hj.1.1

theorem not_judges_ready {s : State} (h : s.pool.rolesHold) {k : Slot} (hk : s.pool.ready = some k) : s.judges k = false := by
  obtain ⟨-, -, hready, -⟩ := h
  obtain ⟨-, heligible, -⟩ := hready k hk
  simp [State.judges, State.slot, heligible]

/-- A judgement that sets a mark is of the filling candidate (R12, R13). -/
theorem filling_of_judges {s : State} (h : s.pool.rolesHold) {k : Slot} (hj : s.judges k = true) : s.pool.filling = some k := by
  rcases h.mem_cands.mp (mem_cands_of_judges hj) with hk | ⟨hk, -⟩
  · exact absurd (hj.symm.trans (not_judges_ready h hk)) nofun
  · exact hk

theorem judgeAll_of_quiet (event : State → State) {s : State} (hj : ∀ k, s.judges k = false) : judgeAll event s = s := by
  suffices hall : ∀ l : List Slot,
      l.foldl (fun s k => if s.judges k then event (markEligible k s) else s) s = s from hall _
  intro l
  induction l with
  | nil => rfl
  | cons k l ih => simpa [hj k] using ih

/-- One candidate's mark is set, and its event handed on (R13, R14). -/
theorem judgeAll_of_judges (event : State → State) {s : State} (h : s.pool.rolesHold) {k : Slot} (hj : s.judges k = true) :
    judgeAll event s = event (markEligible k s) := by
  have hk := filling_of_judges h hj
  have hmem := mem_cands_of_judges hj
  have hnready : s.pool.ready ≠ some k := fun e => h.ready_ne_filling e hk
  have hscreen : s.pool.onScreen ≠ s.pool.filling := by
    rcases h.mem_cands.mp hmem with hr | ⟨-, ho⟩
    · exact absurd hr hnready
    · exact fun e => ho (e.trans hk)
  obtain ⟨-, -, -, -, -, hcands⟩ := id h
  have hlist : s.pool.cands = s.pool.ready.toList ++ [k] := by rw [hcands, if_neg hscreen, hk]; rfl
  rw [judgeAll, hlist]
  cases hready : s.pool.ready with
  | none => simp [hj]
  | some r => simp [hj, not_judges_ready h hready]

theorem not_judges_of_q_none {s : State} (h : s.pool.rolesHold) (hq : s.pool.q = none) (k : Slot) : s.judges k = false := by
  by_contra hj
  have hj : s.judges k = true := by simpa using hj
  obtain ⟨-, hfill, -⟩ := id h
  have hk : (s.slot k).fill = .filling := (hfill k).mpr (filling_of_judges h hj)
  obtain ⟨-, -, -, -, q, hq', -⟩ := (judges_of_filling hk).mp hj
  exact absurd (hq.symm.trans hq') nofun

theorem markEligible_rolesHold {s : State} (h : s.pool.rolesHold) {k : Slot} (hk : k ∈ s.pool.cands) :
    (markEligible k s).pool.rolesHold :=
  h.setSlot rfl (fun _ => rfl) (rolesHold_isFree_of_cand h hk)

/-- Q has this value, and has been published (R57, R91). -/
def State.qPublished (s : State) (q : Option Nat) : State :=
  ((s.setPu { s.pu with q := q, lastQ := q }).setPool { s.pool with q := q }).setPs { s.ps with q := q }

theorem recomputeQ_of_changed (event : State → State) {s : State} (h : computeQ s.pc.active s.pu.fi ≠ s.pu.lastQ) :
    recomputeQ event s = judgeAll event (s.qPublished (computeQ s.pc.active s.pu.fi)) := by
  simp only [recomputeQ, State.setPu_fields, if_neg h]
  rfl

theorem recomputeQ_of_same (event : State → State) {s : State} (h : computeQ s.pc.active s.pu.fi = s.pu.lastQ) :
    recomputeQ event s = s.setPu { s.pu with q := computeQ s.pc.active s.pu.fi } := by
  simp only [recomputeQ, State.setPu_fields, if_pos h]

/-- Q has become unknown and, if it was known, has been published (R56, R57). -/
def State.qUnknown (s : State) : State :=
  if s.pu.lastQ = none then s.setPu { s.pu with q := none } else s.qPublished none

theorem recomputeQ_of_none (event : State → State) {s : State} (h : s.pool.rolesHold)
    (hq : computeQ s.pc.active s.pu.fi = none) : recomputeQ event s = s.qUnknown := by
  rw [State.qUnknown]
  by_cases hlast : s.pu.lastQ = none
  · rw [if_pos hlast, recomputeQ_of_same event (hq.trans hlast.symm), hq]
  · rw [if_neg hlast, recomputeQ_of_changed event (hq ▸ Ne.symm hlast), hq]
    exact judgeAll_of_quiet event (not_judges_of_q_none (s := s.qPublished none) h rfl)

theorem computeQ_none (p : Option Profile) : computeQ p none = none := by
  cases p <;> rfl

/-- Both windows are emptied, and no candidate's mark is set (R13, R47). -/
theorem clearWindows_eq {s : State} (h : s.pool.rolesHold) : clearWindows s =
    ((clearIntervals s).setPu { (clearIntervals s).pu with fills := [], fi := none }).qUnknown := by
  have hpool : (clearIntervals s).pool = s.pool := by simp
  rw [clearWindows, fillsChanged, recomputeQ_of_none]
  · rfl
  · simpa using h
  · exact computeQ_none _

end Sys2Proof.Machine
end

section
/-! The roles under every operation (R4, R11, R17, R27, R103). -/

namespace Sys2Proof.Machine

/-- The roles are kept and the filling slot with them. -/
def Reroled (s t : State) : Prop := s.poolHolds → t.poolHolds ∧ t.pool.filling = s.pool.filling

/-- The roles hold, nothing is on screen and the splice watch is closed. -/
def State.screenOff (s : State) : Prop := s.pool.rolesHold ∧ s.pool.onScreen = none ∧ s.ps.watchOpen = false

theorem Reroled.trans {s t u : State} (h : Reroled s t) (g : Reroled t u) : Reroled s u := fun hs =>
  have ⟨ht, hf⟩ := h hs
  have ⟨hu, hf'⟩ := g ht
  ⟨hu, hf'.trans hf⟩

/-- The pool but for its copy of Q and the store, which no role reads. -/
def SlotPool.roles (p : SlotPool) : SlotPool := { p with q := none, store := [] }

theorem SlotPool.roles_rolesHold (p : SlotPool) : p.roles.rolesHold ↔ p.rolesHold := Iff.rfl

theorem rolesHold_congr {p p' : SlotPool} (h : p'.roles = p.roles) : p'.rolesHold ↔ p.rolesHold := by
  rw [← SlotPool.roles_rolesHold p', h, SlotPool.roles_rolesHold]

theorem filling_congr {p p' : SlotPool} (h : p'.roles = p.roles) : p'.filling = p.filling :=
  by
  have hroles : p'.roles.filling = p.roles.filling := congrArg SlotPool.filling h
  exact hroles

theorem onScreen_congr {p p' : SlotPool} (h : p'.roles = p.roles) : p'.onScreen = p.onScreen :=
  by
  have hroles : p'.roles.onScreen = p.roles.onScreen := congrArg SlotPool.onScreen h
  exact hroles

theorem Reroled.of_eq {s t : State} (h : t.pool.roles = s.pool.roles ∧ t.otg.timing = s.otg.timing ∧
    t.ps.watchOpen = s.ps.watchOpen) : Reroled s t := by
  obtain ⟨hpool, htiming, hwatch⟩ := h
  rintro ⟨hroles, hoff⟩
  refine ⟨⟨(rolesHold_congr hpool).mpr hroles, fun ht => ?_⟩, filling_congr hpool⟩
  rw [onScreen_congr hpool, hwatch]
  exact hoff (htiming ▸ ht)

theorem Reroled.refl (s : State) : Reroled s s := .of_eq ⟨rfl, rfl, rfl⟩

theorem screenOff_of_poolHolds {s : State} (h : s.poolHolds) (ht : s.otg.timing ≠ .scan) : s.screenOff :=
  ⟨h.1, h.2 ht⟩

theorem poolHolds_of_screenOff {s : State} (h : s.screenOff) : s.poolHolds :=
  ⟨h.1, fun _ => h.2⟩

theorem screenOff_congr {s t : State} (hpool : t.pool.roles = s.pool.roles) (hwatch : t.ps.watchOpen = s.ps.watchOpen)
    (h : s.screenOff) : t.screenOff := by
  obtain ⟨hroles, hscreen, hclosed⟩ := h
  exact ⟨(rolesHold_congr hpool).mpr hroles, (onScreen_congr hpool).trans hscreen, hwatch.trans hclosed⟩

/-- A candidate that goes on screen does not free the filling slot (R15, R19). -/
theorem toScreen_filling {p : SlotPool} (h : p.rolesHold) {k : Slot} (hk : k ∈ p.cands) (r : SlotRec) :
    (p.toScreen k r).filling = p.filling := by
  have hcand := h.mem_cands.mp hk
  have hr (f : Slot) (hf : p.filling = some f) : p.ready ≠ some f := fun e => h.ready_ne_filling e hf
  obtain ⟨-, -, -, -, -, hcands⟩ := h
  cases hf : p.filling with
  | none => simp [SlotPool.toScreen, hf]
  | some f =>
    suffices hout : f ∉ p.cands.takeWhile (· ≠ k) by
      simpa [SlotPool.toScreen, hf, Option.filter] using hout
    intro hmem
    have hfk : f ≠ k := by simpa using List.mem_takeWhile_imp hmem
    have hready : p.ready = some k := by
      rcases hcand with hr | ⟨hf', -⟩
      · exact hr
      · exact absurd (Option.some.inj (hf.symm.trans hf')) hfk
    simp [hcands, hready] at hmem

/-- Freeing a slot that is neither ready nor filling leaves these and the list (R5). -/
theorem released_singleton_stays {p : SlotPool} (h : p.rolesHold) {a : Slot} (hr : p.ready ≠ some a)
    (hf : p.filling ≠ some a) : (p.released [a]).cands = p.cands ∧ (p.released [a]).filling = p.filling ∧
      (p.released [a]).ready = p.ready := by
  have hmarker {m : Option Slot} (hm : m ≠ some a) : m.filter (fun i => decide (i ∉ [a])) = m := by
    cases m with
    | none => rfl
    | some i => simpa [Option.filter] using hm
  refine ⟨List.filter_eq_self.mpr fun j hj => ?_, hmarker hf, hmarker hr⟩
  simp only [List.mem_singleton, decide_eq_true_eq]
  rintro rfl
  rcases h.mem_cands.mp hj with e | ⟨e, -⟩
  · exact hr e
  · exact hf e

/-- The screen's old frame leaves at a splice: the candidates and the filling slot stay (R19). -/
theorem screenLeft_stays {p : SlotPool} (h : p.rolesHold) :
    p.screenLeft.cands = p.cands ∧ p.screenLeft.filling = p.filling ∧ p.screenLeft.ready = p.ready := by
  obtain ⟨hfree, hfill, hready, hheld, hscreen, hcands⟩ := id h
  rw [SlotPool.screenLeft]
  split
  · exact ⟨rfl, rfl, rfl⟩
  next a ha =>
    have hra : p.ready ≠ some a := fun e => (hready a e).2.2.2 ha
    cases hfa : (p.slot a).fill with
    | empty | filling => exact ⟨rfl, rfl, rfl⟩
    | aborted =>
      have hf : p.filling ≠ some a := fun e => absurd (hfa.symm.trans ((hfill a).mpr e)) nofun
      exact released_singleton_stays h hra hf
    | complete =>
      cases hd : p.held with
      | none => simp [SlotPool.heldBy, hd]
      | some j =>
        by_cases hj : j = a
        · simp [SlotPool.heldBy, hd, hj]
        · have hrj : p.ready ≠ some j := fun e => (hready j e).2.2.1 hd
          simp only [SlotPool.heldBy_of_other hd hj]
          exact released_singleton_stays h hrj (h.held_ne_filling hd)

/-- With a candidate at all, the on-screen slot is not the filling one (R11, R15). -/
theorem onScreen_ne_filling_of_cand {p : SlotPool} (h : p.rolesHold) {k : Slot} (hk : k ∈ p.cands) {a : Slot}
    (ha : p.onScreen = some a) : p.filling ≠ some a := by
  intro hf
  have hcand := h.mem_cands.mp hk
  obtain ⟨-, -, -, -, hscreen, -⟩ := h
  have hnone := (hscreen a ha).2 hf
  rcases hcand with hr | ⟨hk', ho⟩
  · exact absurd (hnone.symm.trans hr) nofun
  · exact ho (Option.some.inj (hf.symm.trans hk') ▸ ha)

/-- A splice to a candidate keeps the roles (R19). -/
theorem spliceSlot_rolesHold {s : State} (h : s.pool.rolesHold) {n : Slot} (hn : n ∈ s.pool.cands) :
    (spliceSlot n s).pool.rolesHold ∧ (spliceSlot n s).pool.filling = s.pool.filling := by
  obtain ⟨hcands, hfilling, -⟩ := screenLeft_stays h
  obtain ⟨hleft, hon⟩ := h.screenLeft
  have hn' : n ∈ s.pool.screenLeft.cands := hcands ▸ hn
  rw [spliceSlot_pool]
  refine ⟨hleft.toScreen hn' (fun a ha => ?_) rfl, (toScreen_filling hleft hn' _).trans hfilling⟩
  exact (hon a ha).resolve_right (onScreen_ne_filling_of_cand hleft hn' ha)

theorem mem_cands_of_spliceCandidate {s : State} {j : Nat} {n : Slot} (h : s.spliceCandidate j = some n) :
    n ∈ s.pool.cands ∧ s.spliceFits j n = true :=
  List.mem_filter.mp (List.mem_of_getLast? h)

theorem mem_cands_of_newestEligible {s : State} {k : Slot} (h : s.newestEligible = some k) :
    k ∈ s.pool.cands ∧ (s.slot k).eligible = true := by
  simpa using List.mem_filter.mp (List.mem_of_getLast? h)

theorem makeSplice_pool (j : Nat) (n : Slot) (s : State) : (makeSplice j n s).pool = (spliceSlot n s).pool ∧
    (makeSplice j n s).ps = { s.ps with watchOpen := false } ∧ (makeSplice j n s).otg = s.otg := by
  simp only [makeSplice, closeWatch]
  split <;> simp

/-- A splice check keeps the roles: the screen is handed over only with the watch open, so in SCAN (R103, R106). -/
theorem spliceCheck_reroled (j : Nat) (s : State) : Reroled s (spliceCheck j s) := by
  simp only [spliceCheck]
  split
  next hopen =>
    obtain ⟨hwatch, -⟩ : s.ps.watchOpen = true ∧ s.prof.tear = .splice := by simpa using hopen
    split
    · rintro ⟨hroles, hoff⟩
      exact ⟨⟨hroles, fun ht => ⟨(hoff ht).1, rfl⟩⟩, rfl⟩
    · split
      next n hn =>
        rintro ⟨hroles, hoff⟩
        obtain ⟨hpool, hps, hotg⟩ := makeSplice_pool j n s
        obtain ⟨hcand, -⟩ := mem_cands_of_spliceCandidate hn
        obtain ⟨hspliced, hfilling⟩ := spliceSlot_rolesHold hroles hcand
        refine ⟨⟨hpool ▸ hspliced, fun ht => absurd (hoff (hotg ▸ ht)).2 ?_⟩, hpool ▸ hfilling⟩
        simp [hwatch]
      · exact .refl s
  · exact .refl s

theorem spliceCheck_of_closed (j : Nat) {s : State} (h : s.ps.watchOpen = false) : spliceCheck j s = s := by
  simp [spliceCheck, h]

theorem phaseMeasure_reroled (s : State) : Reroled s (phaseMeasure s) := .of_eq (by simp)

/-- With the watch closed, the publication before or after a choice marks, and does nothing to the screen (R57). -/
theorem publishMargin_screen (changed : Bool) {s : State} (hroles : s.pool.rolesHold) (hwatch : s.ps.watchOpen = false) :
    (publishMargin changed s).pool.rolesHold ∧ (publishMargin changed s).ps.watchOpen = false ∧
      (publishMargin changed s).pool.filling = s.pool.filling ∧ (publishMargin changed s).pool.onScreen = s.pool.onScreen := by
  rw [publishMargin]
  split
  · by_cases hsame : computeQ s.pc.active s.pu.fi = s.pu.lastQ
    · rw [recomputeQ_of_same _ hsame]
      exact ⟨hroles, hwatch, rfl, rfl⟩
    · rw [recomputeQ_of_changed _ hsame]
      by_cases hj : ∃ k, (s.qPublished (computeQ s.pc.active s.pu.fi)).judges k = true
      · obtain ⟨k, hj⟩ := hj
        rw [judgeAll_of_judges _ (s := s.qPublished (computeQ s.pc.active s.pu.fi)) hroles hj, checkInScan, spliceCheck_of_closed]
        · exact ⟨markEligible_rolesHold (s := s.qPublished _) hroles (mem_cands_of_judges (s := s.qPublished (computeQ s.pc.active s.pu.fi)) hj), hwatch, rfl, rfl⟩
        · exact hwatch
      · rw [judgeAll_of_quiet]
        · exact ⟨hroles, hwatch, rfl, rfl⟩
        · intro k
          simpa using fun h => hj ⟨k, h⟩
  · exact ⟨hroles, hwatch, rfl, rfl⟩

theorem reportRefresh_pool (r : SlotRec) (s : State) : (reportRefresh r s).pool = s.pool ∧ (reportRefresh r s).ps = s.ps := by
  simp

/-- The choice at a refresh start keeps the roles (R15, R16, R92). -/
theorem chooseRefresh_roles {s : State} (h : s.screenOff) : (chooseRefresh s).pool.rolesHold ∧
    (chooseRefresh s).ps.watchOpen = false ∧ (chooseRefresh s).pool.filling = s.pool.filling := by
  obtain ⟨hroles, hscreen, hwatch⟩ := h
  simp only [chooseRefresh]
  split
  · simp [hroles, hwatch]
  · split
    next k hk =>
      obtain ⟨hcand, -⟩ := mem_cands_of_newestEligible hk
      have hpool : (reportRefresh (s.slot k) (setKind .new (chooseSlot k s))).pool =
          s.pool.toScreen k { s.slot k with presented := true, shownTop := true } := by
        rw [← chooseSlot_pool]
        simp
      rw [hpool]
      refine ⟨hroles.toScreen hcand (fun a ha => absurd (hscreen.symm.trans ha) nofun) rfl, by simp [hwatch],
        toScreen_filling hroles hcand _⟩
    · split
      next k hk =>
        have hpool : (reportRefresh (s.slot k) (setKind .repeated (repeatHeld k s))).pool =
            { s.pool.setSlot k { s.slot k with presented := true, shownTop := true } with onScreen := some k } := by
          rw [← repeatHeld_pool]
          simp
        rw [hpool]
        exact ⟨hroles.repeated hk hscreen rfl rfl, by simp [hwatch], rfl⟩
      · simp [hroles, hwatch]

/-- The merge, its publication and the choice keep the roles, in every order (R98; Log 10). -/
theorem mergeAndChoose_roles {s : State} (h : s.screenOff) : (mergeAndChoose s).pool.rolesHold ∧
    (mergeAndChoose s).pool.filling = s.pool.filling := by
  have hpublished (changed : Bool) {u : State} (hu : u.pool.rolesHold ∧ u.ps.watchOpen = false ∧
      u.pool.filling = s.pool.filling) : (publishMargin changed u).pool.rolesHold ∧
        (publishMargin changed u).pool.filling = s.pool.filling := by
    obtain ⟨hroles, hwatch, hfilling⟩ := hu
    obtain ⟨hroles, -, hfilling', -⟩ := publishMargin_screen changed hroles hwatch
    exact ⟨hroles, hfilling'.trans hfilling⟩
  simp only [mergeAndChoose]
  repeat' split
  · obtain ⟨hroles, -, hfilling⟩ := chooseRefresh_roles h
    exact ⟨hroles, hfilling⟩
  · obtain ⟨hroles, hscreen, hwatch⟩ := h
    obtain ⟨hroles', hwatch', hfilling', hscreen'⟩ :=
      publishMargin_screen s.mergeChangesMargin (s := mergeTune (s.setChoices (s.choices + 2))) hroles hwatch
    obtain ⟨hchosen, -, hfilling⟩ := chooseRefresh_roles ⟨hroles', hscreen'.trans hscreen, hwatch'⟩
    exact ⟨hchosen, hfilling.trans hfilling'⟩
  · exact hpublished _ (chooseRefresh_roles (s := mergeTune (s.setChoices (s.choices + 2))) h)
  · exact hpublished _ (chooseRefresh_roles (s := s.setChoices (s.choices + 2)) h)

/-- A refresh start from a dark screen (R70). -/
theorem refreshBy_roles (expired planned : Bool) {s : State} (h : s.screenOff) :
    (refreshBy expired planned s).poolHolds ∧ (refreshBy expired planned s).pool.filling = s.pool.filling := by
  have hbegun : (beginScan s).screenOff := screenOff_congr (by simp [beginScan]) (by simp [beginScan]) h
  have hpool : (refreshBy expired planned s).pool = (mergeAndChoose (beginScan s)).pool := by simp [refreshBy]
  have hfilling : (beginScan s).pool.filling = s.pool.filling := by simp [beginScan]
  obtain ⟨hroles, hfilling'⟩ := mergeAndChoose_roles hbegun
  refine ⟨⟨hpool ▸ hroles, fun ht => absurd (refreshBy_timing expired planned s) ht⟩, ?_⟩
  rw [hpool, hfilling', hfilling]

theorem refreshBy_reroled (expired planned : Bool) {s : State} (ht : s.otg.timing ≠ .scan) :
    Reroled s (refreshBy expired planned s) :=
  fun hs => refreshBy_roles expired planned (screenOff_of_poolHolds hs ht)

theorem eligibilityEvent_reroled (s : State) : Reroled s (eligibilityEvent s) := by
  simp only [eligibilityEvent]
  split
  · exact (phaseMeasure_reroled s).trans (spliceCheck_reroled _ _)
  next ht =>
    split
    · exact (phaseMeasure_reroled s).trans (refreshBy_reroled _ _ (by simp [ht]))
    · exact phaseMeasure_reroled s
  all_goals exact phaseMeasure_reroled s

/-- A candidate judged eligible, with its event. -/
theorem judged_reroled {s : State} {k : Slot} (hj : s.judges k = true) : Reroled s (eligibilityEvent (markEligible k s)) := by
  refine Reroled.trans ?_ (eligibilityEvent_reroled _)
  rintro ⟨hroles, hoff⟩
  exact ⟨⟨markEligible_rolesHold hroles (mem_cands_of_judges hj), hoff⟩, rfl⟩

theorem judgeAll_reroled (s : State) : Reroled s (judgeAll eligibilityEvent s) := by
  intro hs
  by_cases hj : ∃ k, s.judges k = true
  · obtain ⟨k, hj⟩ := hj
    rw [judgeAll_of_judges _ hs.1 hj]
    exact judged_reroled hj hs
  · rw [judgeAll_of_quiet]
    · exact ⟨hs, rfl⟩
    · intro k
      simpa using fun h => hj ⟨k, h⟩

theorem recomputeQ_reroled (s : State) : Reroled s (recomputeQ eligibilityEvent s) := by
  simp only [recomputeQ]
  split
  · exact .of_eq ⟨rfl, rfl, rfl⟩
  · rw [publishQ]
    refine Reroled.trans ?_ (judgeAll_reroled _)
    exact .of_eq ⟨rfl, rfl, rfl⟩

theorem fillsChanged_reroled (w : List Nat) (s : State) : Reroled s (fillsChanged eligibilityEvent w s) := by
  rw [fillsChanged]
  refine Reroled.trans ?_ (recomputeQ_reroled _)
  exact .of_eq ⟨rfl, rfl, rfl⟩

/-- Emptying both windows touches no role: with Q unknown no candidate is marked (R13, R47). -/
theorem clearWindows_roles {s : State} (h : s.pool.rolesHold) : (clearWindows s).pool.roles = s.pool.roles ∧
    (clearWindows s).otg.timing = s.otg.timing ∧ (clearWindows s).ps.watchOpen = s.ps.watchOpen := by
  rw [clearWindows_eq h, State.qUnknown]
  split
  · simp
  · refine ⟨?_, ?_, ?_⟩ <;> simp [State.qPublished, SlotPool.roles]

theorem enterDetached_roles (score : Nat) {s : State} (h : s.pool.rolesHold) :
    (enterDetached score s).pool.roles = s.pool.roles ∧ (enterDetached score s).otg.timing = s.otg.timing ∧
      (enterDetached score s).ps.watchOpen = s.ps.watchOpen := by
  simp only [enterDetached]
  obtain ⟨hpool, htiming, hwatch⟩ := clearWindows_roles
    (s := ((moveSource .detached score s).setSp { (moveSource .detached score s).sp with
        cleanRun := 0, prevRef := none }).setPs { s.ps with detachTime := some s.now }) (by simpa using h)
  simp only [moveSource_frame, State.setSp_fields, State.setPs_fields, State.now_eq] at hpool htiming hwatch ⊢
  exact ⟨hpool, htiming, hwatch⟩

theorem changeScore_roles (f : Nat → Nat) {s : State} (h : s.pool.rolesHold) :
    (changeScore f s).pool.roles = s.pool.roles ∧ (changeScore f s).otg.timing = s.otg.timing ∧
      (changeScore f s).ps.watchOpen = s.ps.watchOpen := by
  simp only [changeScore]
  repeat' split
  · exact enterDetached_roles _ h
  all_goals simp

theorem clearWindows_reroled (s : State) : Reroled s (clearWindows s) := fun hs => Reroled.of_eq (clearWindows_roles hs.1) hs

theorem enterDetached_reroled (score : Nat) (s : State) : Reroled s (enterDetached score s) :=
  fun hs => Reroled.of_eq (enterDetached_roles score hs.1) hs

theorem changeScore_reroled (f : Nat → Nat) (s : State) : Reroled s (changeScore f s) :=
  fun hs => Reroled.of_eq (changeScore_roles f hs.1) hs

theorem strayEvent_reroled (s : State) : Reroled s (strayEvent s) := by
  simp only [strayEvent]
  split
  case h_1 | h_2 | h_3 => exact changeScore_reroled _ s
  all_goals exact .of_eq (by simp)

/-- A strip of the filling frame is counted (R7). -/
theorem countStrip_reroled (bad : Bool) (s : State) : Reroled s (countStrip bad s) := by
  simp only [countStrip]
  split
  · exact .refl s
  next k hk =>
    rintro ⟨hroles, hoff⟩
    refine ⟨⟨hroles.setSlot rfl (fun hr => absurd hk (hroles.ready_ne_filling hr)) ?_, hoff⟩, rfl⟩
    simp [SlotPool.isFree, hk]

theorem stripFilled_reroled (bad : Bool) (s : State) : Reroled s (stripFilled bad s) := by
  simp only [stripFilled]
  repeat' split
  next k _ hj => exact (countStrip_reroled bad s).trans (judged_reroled hj)
  all_goals exact countStrip_reroled bad s

theorem goodLine_reroled (e : Bool) (pixels : List Pixel) (s : State) : Reroled s (goodLine e pixels s) := by
  have hstored (i : Nat) (u : State) : (storeLine i pixels u).pool.roles = u.pool.roles := by
    rw [storeLine]
    split <;> rfl
  simp only [goodLine]
  split
  · exact Reroled.trans (.of_eq (by simp [hstored])) (stripFilled_reroled _ _)
  · exact .of_eq (by simp [hstored])

/-- The filling frame is aborted: the roles hold, and no slot fills (R10). -/
theorem abortFilling_poolHolds (truncated : Bool) {s : State} (h : s.poolHolds) : (abortFilling truncated s).poolHolds := by
  obtain ⟨hroles, hoff⟩ := h
  have hscreen : (s.pool.aborted truncated).onScreen = s.pool.onScreen := by
    rw [SlotPool.aborted]
    split
    · rfl
    next k hk =>
      split
      · rfl
      next ho =>
        cases hs : s.pool.onScreen with
        | none => simp [SlotPool.released, hs]
        | some a => simpa [SlotPool.released, hs, Option.filter] using ho
  refine ⟨?_, fun ht => ?_⟩
  · rw [abortFilling_pool]
    exact hroles.aborted truncated
  · rw [abortFilling_pool, hscreen]
    have ht' : s.otg.timing ≠ .scan := by simpa using ht
    refine ⟨(hoff ht').1, ?_⟩
    simpa using (hoff ht').2

theorem foreignFrame_poolHolds {s : State} (h : s.poolHolds) :
    (foreignFrame s).poolHolds ∧ (foreignFrame s).pool.filling = none := by
  have haborted := abortFilling_poolHolds false (s := reportFate s.sp.frameCounter .foreign s)
    ((Reroled.of_eq (t := reportFate s.sp.frameCounter .foreign s) (by simp)) h).1
  obtain ⟨hcleared, hfilling⟩ := clearWindows_reroled _ haborted
  have hsame : Reroled (clearWindows (abortFilling false (reportFate s.sp.frameCounter .foreign s))) (foreignFrame s) :=
    .of_eq (by simp [foreignFrame])
  obtain ⟨hpool, hfilling'⟩ := hsame hcleared
  refine ⟨hpool, ?_⟩
  rw [hfilling', hfilling, abortFilling_filling]

end Sys2Proof.Machine
end

section
/-! The roles at the points and under every command (R4, R11, R17, R27, R103). -/

namespace Sys2Proof.Machine

/-- The scan end leaves the ready and the filling slot, and nothing on screen (R17). -/
theorem offScreen_stays {p : SlotPool} (h : p.rolesHold) :
    p.offScreen.filling = p.filling ∧ p.offScreen.ready = p.ready ∧ p.offScreen.onScreen = none := by
  obtain ⟨hfree, hfill, hready, hheld, hscreen, hcands⟩ := id h
  rw [SlotPool.offScreen]
  split
  next hk => exact ⟨rfl, rfl, hk⟩
  next a ha =>
    have hra : p.ready ≠ some a := fun e => (hready a e).2.2.2 ha
    cases hfa : (p.slot a).fill with
    | empty | filling => exact ⟨rfl, rfl, rfl⟩
    | aborted =>
      have hf : p.filling ≠ some a := fun e => absurd (hfa.symm.trans ((hfill a).mpr e)) nofun
      obtain ⟨-, hfilling, hready'⟩ := released_singleton_stays h hra hf
      exact ⟨hfilling, hready', rfl⟩
    | complete =>
      cases hd : p.held with
      | none => simp [SlotPool.heldBy]
      | some j =>
        by_cases hj : j = a
        · simp [SlotPool.heldBy, hj]
        · have hrj : p.ready ≠ some j := fun e => (hready j e).2.2.1 hd
          obtain ⟨-, hfilling, hready'⟩ := released_singleton_stays h hrj (h.held_ne_filling hd)
          rw [SlotPool.heldBy_of_other (j := j) rfl hj]
          exact ⟨hfilling, hready', rfl⟩

/-- The frame in slot `k`, its record now `r`, is the ready one; an older ready frame is freed (R8). -/
def SlotPool.readied (p : SlotPool) (k : Slot) (r : SlotRec) : SlotPool :=
  { (p.released p.ready.toList).setSlot k r with filling := none, ready := some k }

theorem becomeReady_pool {s : State} (h : s.pool.rolesHold) {k : Slot} {r : SlotRec} (hk : s.pool.filling = some k) :
    (becomeReady k (s.setPool { s.pool.setSlot k r with filling := none })).pool = s.pool.readied k r := by
  have hne (j : Slot) (hj : s.pool.ready = some j) : j ≠ k := fun e => h.ready_ne_filling hj (e ▸ hk)
  simp only [becomeReady, State.setPool_fields, SlotPool.setSlot_fields]
  cases hready : s.pool.ready with
  | none =>
    simp only [SlotPool.readied, hready, Option.toList_none, SlotPool.released_nil]
    rfl
  | some j =>
    simp only [SlotPool.readied, hready, Option.toList_some, State.setPool_fields, freeSlot_pool]
    refine SlotPool.ext_slot (fun i => ?_) rfl rfl rfl rfl rfl rfl rfl
    have hleft := SlotPool.released_slot ({ s.pool.setSlot k r with filling := none } : SlotPool) [j] i
    have hright := SlotPool.slot_setSlot (s.pool.released [j]) k i r
    have hset : ({ s.pool.setSlot k r with filling := none } : SlotPool).slot i = if i = k then r else s.pool.slot i :=
      SlotPool.slot_setSlot s.pool k i r
    refine hleft.trans (Eq.trans ?_ hright.symm)
    rw [hset, SlotPool.released_slot]
    by_cases hi : i = k
    · rw [if_pos hi, if_pos hi, if_neg (by simpa [hi] using Ne.symm (hne j hready))]
    · rw [if_neg hi, if_neg hi]

/-- A completed frame off the screen is ready and marked (R8, R12). -/
theorem readied_rolesHold {p : SlotPool} (h : p.rolesHold) {k : Slot} {r : SlotRec} (hk : p.filling = some k)
    (hscreen : p.onScreen ≠ some k) (hr : r.fill = .complete) (hmark : r.eligible = true) : (p.readied k r).rolesHold := by
  have hne (j : Slot) (hj : p.ready = some j) : k ≠ j := fun e => h.ready_ne_filling hj (e ▸ hk)
  refine (h.released p.ready.toList).complete ?_ (fun e => hscreen (Option.filter_eq_some_iff.mp e).1) ?_ hr hmark
  · refine Option.filter_eq_some_iff.mpr ⟨hk, ?_⟩
    simpa using fun e => hne k e rfl
  · cases hready : p.ready with
    | none => simp [SlotPool.released, hready]
    | some j => simp [SlotPool.released, hready, Option.filter]

/-- The pool after a completion, but for the mark and its event. -/
theorem completeSlot_poolHolds {s : State} {k : Slot} (h : s.poolHolds) (hk : s.pool.filling = some k) :
    (completeSlot k s).poolHolds ∧ (completeSlot k s).pool.filling = none := by
  obtain ⟨hroles, hoff⟩ := h
  let done : SlotRec := { s.slot k with fill := .complete, lastLine := some s.now }
  let closed : State := s.setPool { s.pool.setSlot k done with filling := none }
  have hscreen : closed.pool.onScreen = s.pool.onScreen := rfl
  simp only [completeSlot]
  split
  · have hpool : (freeSlot k .errorDropped closed).pool = s.pool.released [k] := by
      rw [freeSlot_pool]
      refine SlotPool.ext_slot (fun j => ?_) ?_ rfl rfl rfl rfl rfl rfl
      · have hset : closed.pool.slot j = if j = k then done else s.pool.slot j := SlotPool.slot_setSlot s.pool k j done
        rw [SlotPool.released_slot, SlotPool.released_slot, hset]
        by_cases hj : j = k <;> simp [hj]
      · simp [SlotPool.released, hk, Option.filter, closed]
    refine ⟨⟨hpool ▸ hroles.released [k], fun ht => ?_⟩, by rw [hpool]; simp [SlotPool.released, hk, Option.filter]⟩
    have ht' : s.otg.timing ≠ .scan := by simpa [closed] using ht
    rw [hpool]
    simp only [freeSlot_frame]
    exact ⟨by simp [SlotPool.released, (hoff ht').1], (hoff ht').2⟩
  · split
    next ho => exact ⟨⟨hroles.endOnScreen hk ho nofun nofun, hoff⟩, rfl⟩
    next ho =>
      have hpool : (becomeReady k closed).pool = s.pool.readied k done := becomeReady_pool hroles hk
      have hslot : (becomeReady k closed).slot k = done := by
        rw [State.slot, hpool]
        exact SlotPool.slot_setSlot_self _ k done
      have htiming : (becomeReady k closed).otg.timing = s.otg.timing ∧ (becomeReady k closed).ps = s.ps := by
        simp [closed]
      have hdark (hr : (s.pool.readied k done).rolesHold) (ht : (becomeReady k closed).otg.timing ≠ .scan) :
          (s.pool.readied k done).onScreen = none ∧ (becomeReady k closed).ps.watchOpen = false := by
        obtain ⟨hnone, hwatch⟩ := hoff (htiming.1 ▸ ht)
        exact ⟨by simp [SlotPool.readied, SlotPool.released, hnone], by rw [htiming.2, hwatch]⟩
      split
      next hmark =>
        have hroles' := readied_rolesHold hroles (r := done) hk ho rfl (by rw [← hslot]; exact hmark)
        refine ⟨⟨hpool ▸ hroles', fun ht => ?_⟩, by rw [hpool]; rfl⟩
        rw [hpool]
        exact hdark hroles' ht
      next hmark =>
        have hpool' : (markEligible k (becomeReady k closed)).pool = s.pool.readied k { done with eligible := true } := by
          simp only [markEligible, State.setSlot_eq, State.setPool_fields, hslot, hpool]
          refine SlotPool.ext_slot (fun j => ?_) rfl rfl rfl rfl rfl rfl rfl
          refine (SlotPool.slot_setSlot _ k j _).trans ?_
          have hone (r : SlotRec) : (s.pool.readied k r).slot j =
              if j = k then r else (s.pool.released s.pool.ready.toList).slot j := SlotPool.slot_setSlot _ k j r
          rw [hone, hone]
          split <;> rfl
        have hroles' := readied_rolesHold hroles (r := { done with eligible := true }) hk ho rfl rfl
        obtain ⟨hholds, hfilling⟩ := eligibilityEvent_reroled (markEligible k (becomeReady k closed))
          ⟨hpool' ▸ hroles', fun ht => by
            obtain ⟨hnone, hwatch⟩ := hoff (htiming.1 ▸ ht)
            rw [hpool']
            exact ⟨by simp [SlotPool.readied, SlotPool.released, hnone], by rw [← hwatch, ← htiming.2]; rfl⟩⟩
        exact ⟨hholds, by rw [hfilling, hpool']; rfl⟩

theorem fillSample_reroled (first : Option Time) (s : State) : Reroled s (fillSample first s) := by
  simp only [fillSample]
  split
  · refine Reroled.trans ?_ (fillsChanged_reroled _ _)
    exact .of_eq ⟨rfl, rfl, rfl⟩
  · exact .refl s

theorem completeFrame_poolHolds {s : State} (h : s.poolHolds) :
    (completeFrame s).poolHolds ∧ (completeFrame s).pool.filling = none := by
  simp only [completeFrame]
  split
  next k hk =>
    obtain ⟨hdone, hnone⟩ := completeSlot_poolHolds h hk
    have hreroled : Reroled (completeSlot k s) (endFrame (changeScore (if (s.slot k).bad = 0 then scoreDown else scoreUp)
        (reportClose s.sp.frameCounter (s.slot k).bad false (reportCompletion s.sp.frameCounter
          (if (s.slot k).bad = 0 then fillSample (s.slot k).firstLine (completeSlot k s) else completeSlot k s).now
          (if (s.slot k).bad = 0 then fillSample (s.slot k).firstLine (completeSlot k s) else completeSlot k s))))) := by
      have hend (u : State) : Reroled u (endFrame u) := .of_eq (by simp)
      refine Reroled.trans (Reroled.trans ?_ (changeScore_reroled _ _)) (hend _)
      split
      · exact (fillSample_reroled (s.slot k).firstLine _).trans (.of_eq (by simp))
      · exact .of_eq (by simp)
    obtain ⟨hholds, hfilling⟩ := hreroled hdone
    exact ⟨hholds, hfilling.trans hnone⟩
  next hk =>
    have hend : Reroled s (endFrame s) := .of_eq (by simp)
    obtain ⟨hholds, hfilling⟩ := hend h
    exact ⟨hholds, hfilling.trans hk⟩

/-- Both conditions of the pool. -/
def State.rolesSound (s : State) : Prop := s.poolHolds ∧ s.fillingHolds

theorem fillingHolds_of_none {s : State} (h : s.pool.filling = none) : s.fillingHolds := by
  intro hsome
  simp [h] at hsome

theorem fillingHolds_congr {s t : State} (hpool : t.pool.filling = s.pool.filling) (hsp : t.sp = s.sp)
    (h : s.fillingHolds) : t.fillingHolds := by
  rw [State.fillingHolds, hpool, hsp]
  exact h

/-- A filling slot goes with a taken frame under an attached source. -/
theorem filling_eq_none {s : State} (h : s.fillingHolds) (hc : ¬ (s.sp.cond = .taken ∧ s.sp.state.attached = true)) :
    s.pool.filling = none :=
  Option.not_isSome_iff_eq_none.mp fun hsome => hc (h hsome)

theorem rolesSound_of_none {t : State} (h : t.poolHolds ∧ t.pool.filling = none) : t.rolesSound :=
  ⟨h.1, fillingHolds_of_none h.2⟩

/-- The roles, the frame condition and the source state stay. -/
theorem Reroled.rolesSound {s t : State} (h : Reroled s t) (hcond : t.sp.cond = s.sp.cond)
    (hstate : t.sp.state = s.sp.state) (hs : s.rolesSound) : t.rolesSound := by
  obtain ⟨hpool, hfills⟩ := hs
  obtain ⟨hholds, hfilling⟩ := h hpool
  refine ⟨hholds, ?_⟩
  rw [State.fillingHolds, hfilling, hcond, hstate]
  exact hfills

/-- The roles stay where no slot fills. -/
theorem Reroled.rolesSound_of_none {s t : State} (h : Reroled s t) (hs : s.poolHolds) (hnone : s.pool.filling = none) :
    t.rolesSound := by
  obtain ⟨hholds, hfilling⟩ := h hs
  exact ⟨hholds, fillingHolds_of_none (hfilling.trans hnone)⟩

theorem lineEvent_rolesSound (e : Bool) (pixels : List Pixel) {s : State} (hs : s.rolesSound) :
    (lineEvent e pixels s).rolesSound := by
  have hforeign (u : State) (hu : u.poolHolds) : (foreignAtLine u).rolesSound := by
    have hline : Reroled u (u.setSp { u.sp with closeBad := u.fillingBad }) := .of_eq (by simp)
    obtain ⟨hholds, hnone⟩ := foreignFrame_poolHolds (hline hu).1
    have hcond (v : State) : Reroled v (setCond .foreign v) := .of_eq (by simp)
    exact (hcond _).rolesSound_of_none hholds hnone
  have hcount (u : State) : Reroled u (countLine u) := .of_eq (by simp)
  simp only [lineEvent]
  repeat' split
  · exact hs
  next hc =>
    refine (strayEvent_reroled s).rolesSound_of_none hs.1 (filling_eq_none hs.2 fun h => ?_)
    exact absurd (hc.symm.trans h.1) nofun
  · simp only [takenLine]
    repeat' split
    · exact hforeign _ (hcount s hs.1).1
    · have hpixels : Reroled s (countLine (s.setSp { s.sp with firstPixels := pixels.length })) := .of_eq (by simp)
      exact hforeign _ (hpixels hs.1).1
    · exact (goodLine_reroled e pixels s).rolesSound (by simp) (by simp) hs
  · exact (hcount s).rolesSound (by simp) (by simp) hs
  · exact (hcount s).rolesSound (by simp) (by simp) hs
  · exact Reroled.rolesSound (.of_eq (by simp [observedLine])) (by simp [observedLine]) (by simp [observedLine]) hs

theorem frameEndEvent_rolesSound {s : State} (hs : s.rolesSound) : (frameEndEvent s).rolesSound := by
  have hend (u : State) : Reroled u (endFrame u) := .of_eq (by simp)
  have hnone (hc : s.sp.cond ≠ .taken) : s.pool.filling = none := filling_eq_none hs.2 fun h => hc h.1
  simp only [frameEndEvent]
  split
  next hst =>
    refine (hend s).rolesSound_of_none hs.1 (filling_eq_none hs.2 fun h => ?_)
    simp [hst, SourceState.attached] at h
  · split
    next hc => exact (strayEvent_reroled s).rolesSound_of_none hs.1 (hnone (by simp [hc]))
    next hc =>
      split
      · exact rolesSound_of_none (completeFrame_poolHolds hs.1)
      · obtain ⟨hholds, hfilling⟩ := foreignFrame_poolHolds hs.1
        have hclose : Reroled (foreignFrame s) (foreignAtEnd s) := .of_eq (by simp [foreignAtEnd])
        exact hclose.rolesSound_of_none hholds hfilling
    next hc =>
      have hclose : Reroled s (endFrame (reportClose s.sp.frameCounter s.sp.closeBad false s)) := .of_eq (by simp)
      exact hclose.rolesSound_of_none hs.1 (hnone (by simp [hc]))
    next hc => exact (hend s).rolesSound_of_none hs.1 (hnone (by simp [hc]))
    next hc =>
      have hobserved : Reroled s (observedEnd s) := by
        simp only [observedEnd]
        repeat' split
        all_goals exact .of_eq (by simp)
      exact hobserved.rolesSound_of_none hs.1 (hnone (by simp [hc]))

theorem closeByLoss_poolHolds {s : State} (hs : s.rolesSound) :
    (closeByLoss s).poolHolds ∧ (closeByLoss s).pool.filling = none := by
  have hnone (hc : s.sp.cond ≠ .taken) : s.pool.filling = none := filling_eq_none hs.2 fun h => hc h.1
  have hclose (n : FrameNo) (bad : Nat) (trunc : Bool) (u : State) : Reroled u (reportClose n bad trunc u) := .of_eq (by simp)
  simp only [closeByLoss]
  split
  next hc =>
    obtain ⟨hholds, hfilling⟩ := hclose s.sp.frameCounter s.fillingBad false _ (abortFilling_poolHolds false hs.1)
    exact ⟨hholds, hfilling.trans (abortFilling_filling ..)⟩
  next hc =>
    obtain ⟨hholds, hfilling⟩ := hclose s.sp.frameCounter s.sp.closeBad false _ hs.1
    exact ⟨hholds, hfilling.trans (hnone (by simp [hc]))⟩
  all_goals exact ⟨hs.1, hnone (by simp_all)⟩

theorem signalLostEvent_rolesSound {s : State} (hs : s.rolesSound) : (signalLostEvent s).rolesSound := by
  have hdark : (s.setSp { s.sp with signal := false }).rolesSound := hs
  obtain ⟨hholds, hfilling⟩ := closeByLoss_poolHolds hdark
  have hdetached : Reroled (closeByLoss (s.setSp { s.sp with signal := false }))
      (enterDetached 128 (endFrame (closeByLoss (s.setSp { s.sp with signal := false })))) :=
    Reroled.trans (.of_eq (by simp)) (enterDetached_reroled 128 _)
  have hnone (hst : s.sp.state.attached = false) : s.pool.filling = none :=
    filling_eq_none hs.2 fun h => by simp [hst] at h
  simp only [signalLostEvent]
  split
  case h_1 | h_2 | h_3 => exact hdetached.rolesSound_of_none hholds hfilling
  next hst =>
    refine Reroled.rolesSound_of_none (s := s) (.of_eq (by simp)) hs.1 (hnone ?_)
    have hst : s.sp.state = .detached := hst
    simp [hst, SourceState.attached]
  next hst =>
    refine Reroled.rolesSound_of_none (s := s) (.of_eq (by simp)) hs.1 (hnone ?_)
    have hst : s.sp.state = .unarmed := hst
    simp [hst, SourceState.attached]

/-- The close by a Frame Start leaves no slot filling (R6, R28). -/
theorem closeByStart_poolHolds {s : State} (hs : s.rolesSound) :
    (closeByStart s).poolHolds ∧ (closeByStart s).pool.filling = none := by
  refine ⟨?_, closeByStart_filling hs.2⟩
  simp only [closeByStart]
  split
  case h_5 =>
    refine (changeScore_reroled _ _ (Reroled.of_eq (s := abortFilling true s) (by simp) ?_).1).1
    exact abortFilling_poolHolds true hs.1
  case h_4 => exact (Reroled.of_eq (s := s) (by simp) hs.1).1
  all_goals exact hs.1

theorem lowestFree_isFree {p : SlotPool} {k : Slot} (h : p.lowestFree = some k) : p.isFree k = true :=
  List.find?_some h

/-- A frame taken into a free slot (R29). -/
theorem takeFrame_rolesSound {s : State} {k : Slot} (h : s.poolHolds) (hnone : s.pool.filling = none)
    (hk : s.pool.lowestFree = some k) (hatt : s.sp.state.attached = true) : (takeFrame k s).rolesSound := by
  obtain ⟨hroles, hoff⟩ := h
  have hpool : (takeFrame k s).pool = (takeSlot k (s.sp.frameCounter + 1) s.now s).pool := by
    simp [takeFrame, takeSlot]
  have htaken := hroles.take (lowestFree_isFree hk) hnone (r :=
    { SlotRec.free with fill := .filling, frameNo := some (s.sp.frameCounter + 1), firstLine := some s.now }) rfl
  refine ⟨⟨by rw [hpool]; exact htaken, fun ht => ?_⟩, fun _ => ⟨by simp [takeFrame, openFrame], by simpa [takeFrame, openFrame] using hatt⟩⟩
  rw [hpool]
  have ht' : s.otg.timing ≠ .scan := by simpa using ht
  exact ⟨(hoff ht').1, by simpa using (hoff ht').2⟩

/-- The timing state changes with the screen dark. -/
theorem Reroled.of_dark {s t : State} (hs : s.otg.timing ≠ .scan) (hpool : t.pool.roles = s.pool.roles)
    (hwatch : t.ps.watchOpen = s.ps.watchOpen) : Reroled s t := fun h =>
  ⟨poolHolds_of_screenOff (screenOff_congr hpool hwatch (screenOff_of_poolHolds h hs)), filling_congr hpool⟩

theorem repeatExpiryOpen_roles {s : State} (h : s.screenOff) :
    (repeatExpiryOpen s).poolHolds ∧ (repeatExpiryOpen s).pool.filling = s.pool.filling := by
  simp only [repeatExpiryOpen]
  repeat' split
  · exact ⟨poolHolds_of_screenOff (screenOff_congr (by simp) (by simp) h), by simp⟩
  all_goals exact refreshBy_roles _ _ h

theorem enterBlankOpen_roles {s : State} (h : s.screenOff) :
    (enterBlankOpen s).poolHolds ∧ (enterBlankOpen s).pool.filling = s.pool.filling := by
  have hopen : (s.setOtg { s.otg with timing := .blankOpen }).screenOff := h
  simp only [enterBlankOpen]
  repeat' split
  · exact refreshBy_roles _ _ hopen
  · exact repeatExpiryOpen_roles (s := (s.setOtg { s.otg with timing := .blankOpen }).setOtg _) hopen
  · exact ⟨poolHolds_of_screenOff hopen, rfl⟩

theorem leaveScan_roles {s : State} (h : s.screenOff) :
    (leaveScan s).poolHolds ∧ (leaveScan s).pool.filling = s.pool.filling := by
  simp only [leaveScan]
  repeat' split
  · exact enterBlankOpen_roles h
  · exact ⟨poolHolds_of_screenOff h, rfl⟩
  · exact refreshBy_roles true false (s := (s.setOtg { s.otg with timing := .blank }).setOtg _) h
  · exact ⟨poolHolds_of_screenOff h, rfl⟩

theorem tminExpired_reroled (s : State) : Reroled s (tminExpired s) := by
  simp only [tminExpired]
  split
  · exact .of_eq (by simp)
  next ht =>
    intro hs
    have ht' : s.otg.timing ≠ .scan := fun e => absurd (ht.symm.trans e) nofun
    exact enterBlankOpen_roles (s := s.setOtg _) (screenOff_of_poolHolds hs ht')
  all_goals exact .of_eq (by simp)

theorem repeatExpired_reroled (s : State) : Reroled s (repeatExpired s) := by
  simp only [repeatExpired]
  split
  next ht =>
    intro hs
    have ht' : s.otg.timing ≠ .scan := fun e => absurd (ht.symm.trans e) nofun
    exact repeatExpiryOpen_roles (s := s.setOtg _) (screenOff_of_poolHolds hs ht')
  all_goals exact .of_eq (by simp)

theorem fixedExpired_reroled (s : State) : Reroled s (fixedExpired s) := by
  simp only [fixedExpired]
  split
  next ht =>
    intro hs
    have ht' : s.otg.timing ≠ .scan := fun e => absurd (ht.symm.trans e) nofun
    exact refreshBy_roles true false (s := s.setOtg _) (screenOff_of_poolHolds hs ht')
  all_goals exact .of_eq (by simp)

/-- The watch may open only in SCAN, where strips are read. -/
theorem readStrip_reroled (k : Nat) {s : State} (ht : s.otg.timing = .scan) : Reroled s (readStrip k s) := by
  have hscan {u v : State} (hu : u.otg.timing = .scan) (hv : v.otg.timing = .scan) (hpool : v.pool = u.pool) : Reroled u v := by
    rintro ⟨hroles, -⟩
    exact ⟨⟨hpool ▸ hroles, fun h => absurd hv h⟩, by rw [hpool]⟩
  simp only [readStrip]
  have hset : Reroled s (if k = 0 then copySettings (s.setOtg { s.otg with nextStrip := k + 1 })
      else s.setOtg { s.otg with nextStrip := k + 1 }) := by
    split <;> exact .of_eq (by simp)
  have hscanning : (if k = 0 then copySettings (s.setOtg { s.otg with nextStrip := k + 1 })
      else s.setOtg { s.otg with nextStrip := k + 1 }).otg.timing = .scan := by
    split <;> simp [ht]
  exact hset.trans (Reroled.trans (spliceCheck_reroled k _) (hscan (by simpa using hscanning) (by simpa using hscanning)
    (by simp)))

/-- Every slot freed: the pool of a flush (R21). -/
theorem flushPool_pool (s : State) : (flushPool s).pool = SlotPool.powerOn s.pool.store := by
  simp only [flushPool, State.setPool_fields, freeSlots_pool]
  have hall (k : Slot) : k ∈ List.finRange 4 := List.mem_finRange k
  have hnone (m : Option Slot) : m.filter (fun j => decide (j ∉ List.finRange 4)) = none := by
    cases m with
    | none => rfl
    | some j => simp [Option.filter, hall j]
  refine SlotPool.ext_slot (fun k => ?_) (hnone _) (hnone _) (hnone _) (hnone _) ?_ rfl rfl
  · refine (SlotPool.released_slot s.pool (List.finRange 4) k).trans ?_
    rw [if_pos (hall k)]
    simp [SlotPool.slot, SlotPool.powerOn]
  · simp [SlotPool.released, SlotPool.powerOn, hall]

theorem powerOn_rolesHold (store : List StoreRow) : (SlotPool.powerOn store).rolesHold := by
  refine ⟨fun k _ => ?_, fun k => ?_, nofun, nofun, nofun, rfl⟩
  · simp [SlotPool.slot, SlotPool.powerOn]
  · simp [SlotPool.slot, SlotPool.powerOn, SlotRec.free]

/-- The marks of a publication whose events go nowhere (R13, R66). -/
theorem judgeAll_id_screen {s : State} (h : s.screenOff) :
    (judgeAll (fun s => s) s).screenOff ∧ (judgeAll (fun s => s) s).pool.filling = s.pool.filling := by
  by_cases hj : ∃ k, s.judges k = true
  · obtain ⟨k, hj⟩ := hj
    rw [judgeAll_of_judges _ h.1 hj]
    exact ⟨⟨markEligible_rolesHold h.1 (mem_cands_of_judges hj), h.2⟩, rfl⟩
  · rw [judgeAll_of_quiet]
    · exact ⟨h, rfl⟩
    · intro k
      simpa using fun h => hj ⟨k, h⟩

theorem applyPacing_screen (geo win : Bool) {s : State} (h : s.screenOff) :
    (applyPacing geo win s).screenOff ∧ (applyPacing geo win s).pool.filling = s.pool.filling := by
  let begun : State := (emptyWindows (geo || win) geo s).setPu { (emptyWindows (geo || win) geo s).pu with
    ti := averageInterval (emptyWindows (geo || win) geo s).pu.intervals
    fi := averageFill (emptyWindows (geo || win) geo s).pu.fills }
  let published : State := begun.qPublished (computeQ begun.pc.active begun.pu.fi)
  have hpublished : published.screenOff := h
  obtain ⟨hoff, hfilling⟩ := judgeAll_id_screen hpublished
  have hsame : (applyPacing geo win s).pool = (judgeAll (fun s => s) published).pool ∧
      (applyPacing geo win s).ps = (judgeAll (fun s => s) published).ps := by
    simp only [applyPacing, setAdmission, setPlan, State.setPu_fields]
    exact ⟨rfl, rfl⟩
  refine ⟨?_, by rw [hsame.1, hfilling]; rfl⟩
  rw [State.screenOff, hsame.1, hsame.2]
  exact hoff

/-- The source port's share of an application keeps the screen dark and the filling slot with its frame (R20, R21). -/
theorem applyFrames_screen (old : Option Profile) (geo : Bool) {s : State} (h : s.screenOff) (hf : s.fillingHolds) :
    (applyFrames old geo s).screenOff ∧ (applyFrames old geo s).fillingHolds := by
  have hflushed (u : State) (hu : u.ps.watchOpen = false) : (flushPool u).screenOff ∧ (flushPool u).pool.filling = none := by
    rw [State.screenOff, flushPool_pool]
    exact ⟨⟨powerOn_rolesHold _, rfl, by simpa using hu⟩, rfl⟩
  cases old with
  | none =>
    obtain ⟨hoff, hnone⟩ := hflushed s h.2.2
    have harmed (t : State) (hpool : t.pool.roles = (flushPool s).pool.roles)
        (hwatch : t.ps.watchOpen = (flushPool s).ps.watchOpen) : t.screenOff ∧ t.fillingHolds :=
      ⟨screenOff_congr hpool hwatch hoff, fillingHolds_of_none ((filling_congr hpool).trans hnone)⟩
    simp only [applyFrames, armSource]
    split
    · exact harmed _ (by simp) (by simp)
    · obtain ⟨hpool, -, hwatch⟩ := enterDetached_roles 128 (s := setCond (flushPool s).sp.cond.passedOver (flushPool s))
        (by simpa using hoff.1)
      exact harmed _ (hpool.trans (by simp)) (hwatch.trans (by simp))
  | some o =>
    simp only [applyFrames]
    split
    · obtain ⟨hoff, hnone⟩ := hflushed (closeByGeometry s) (by simpa using h.2.2)
      exact ⟨screenOff_congr (by simp) (by simp) hoff, fillingHolds_of_none (by simpa using hnone)⟩
    · exact ⟨h, hf⟩

theorem startOutput_roles {s : State} (h : s.screenOff) :
    (startOutput s).poolHolds ∧ (startOutput s).pool.filling = s.pool.filling := by
  obtain ⟨hholds, hkept⟩ := refreshBy_roles false false (s := s.setOtg { s.otg with mode := some s.prof.pacing }) h
  have hpool : (startOutput s).pool = (refreshBy false false (s.setOtg { s.otg with mode := some s.prof.pacing })).pool := by
    simp only [startOutput]
    split <;> rfl
  rw [State.poolHolds, hpool]
  exact ⟨⟨hholds.1, fun ht => absurd (startOutput_merged s).2 ht⟩, hkept⟩

/-- An application with the screen dark (R85, R86). -/
theorem applyProfile_rolesSound {s : State} (h : s.screenOff) (hf : s.fillingHolds) : (applyProfile s).rolesSound := by
  cases hp : s.pc.proposal with
  | none =>
    simp only [applyProfile, hp]
    exact ⟨poolHolds_of_screenOff h, hf⟩
  | some p =>
    let begun : State := s.setPc { s.pc with active := some p, proposal := none, propState := .none }
    let framed : State := applyFrames s.pc.active (geometryDiffers s.pc.active p) begun
    let paced : State := applyPacing (geometryDiffers s.pc.active p) (windowDiffers s.pc.active p) framed
    obtain ⟨hframed, hfills⟩ := applyFrames_screen s.pc.active (geometryDiffers s.pc.active p) (s := begun) h hf
    obtain ⟨hpaced, hfilling⟩ := applyPacing_screen (geometryDiffers s.pc.active p) (windowDiffers s.pc.active p) hframed
    have hsp : paced.sp = framed.sp := by simp [paced]
    have hstart : ∃ u : State, applyProfile s = completeDeferred .profileApply .ok (u.setOtg { u.otg with pendingApp := false }) ∧
        u.poolHolds ∧ u.pool.filling = paced.pool.filling ∧ u.sp = paced.sp := by
      simp only [applyProfile, hp]
      by_cases hidle : s.otg.timing = .idle
      · simp only [hidle, if_true]
        obtain ⟨hholds, hkept⟩ := startOutput_roles hpaced
        exact ⟨startOutput paced, rfl, hholds, hkept, by simp⟩
      · simp only [hidle, if_false]
        exact ⟨restartCycle paced, rfl, poolHolds_of_screenOff (screenOff_congr (s := paced) (by simp) (by simp) hpaced), by simp,
          by simp⟩
    obtain ⟨u, hu, hholds, hkept, husp⟩ := hstart
    rw [hu]
    refine Reroled.rolesSound (s := u) (.of_eq (by simp)) (by simp) (by simp) ⟨hholds, ?_⟩
    exact fillingHolds_congr (hkept.trans hfilling) (husp.trans hsp) hfills

theorem resetPool_rolesHold (s : State) : (resetPool s).pool.rolesHold := powerOn_rolesHold _

/-- The reset point leaves an empty pool (R22). -/
theorem resetPoint_screen {s : State} (h : s.ps.watchOpen = false) :
    (resetPoint s).screenOff ∧ (resetPoint s).pool.filling = none := by
  have hsource : (resetSource (resetPool s)).pool.roles = (SlotPool.powerOn s.pool.store).roles ∧
      (resetSource (resetPool s)).ps.watchOpen = false := by
    simp only [resetSource]
    repeat' split
    · exact ⟨by simp [resetPool], by simpa using h⟩
    · exact ⟨by simp [resetPool], by simpa using h⟩
    · obtain ⟨hpool, -, hwatch⟩ := enterDetached_roles 128 (s := (setCond (resetPool s).sp.cond.passedOver (resetPool s)).setSp
        { (setCond (resetPool s).sp.cond.passedOver (resetPool s)).sp with cleanRun := 0, prevRef := none, stripErr := false })
        (by simpa using resetPool_rolesHold s)
      exact ⟨hpool.trans (by simp [resetPool]), hwatch.trans (by simpa using h)⟩
  have hrecomputed (u : State) (hu : u.screenOff ∧ u.pool.filling = none) :
      (recomputeQ (fun s => s) u).screenOff ∧ (recomputeQ (fun s => s) u).pool.filling = none := by
    by_cases hsame : computeQ u.pc.active u.pu.fi = u.pu.lastQ
    · rw [recomputeQ_of_same _ hsame]
      exact hu
    · rw [recomputeQ_of_changed _ hsame]
      obtain ⟨hoff, hfilling⟩ := judgeAll_id_screen (s := u.qPublished (computeQ u.pc.active u.pu.fi)) hu.1
      exact ⟨hoff, hfilling.trans hu.2⟩
  let merged : State := (mergeTune ((resetPacing (resetSource (resetPool s))).setPs
    { (resetPacing (resetSource (resetPool s))).ps with blankActive := false, q := none })).setHr []
  have hmerged : merged.screenOff ∧ merged.pool.filling = none := by
    have hroles : merged.pool.roles = (SlotPool.powerOn s.pool.store).roles := by
      rw [← hsource.1]
      simp [merged]
    refine ⟨⟨(rolesHold_congr hroles).mpr (powerOn_rolesHold _), onScreen_congr hroles, ?_⟩, filling_congr hroles⟩
    rw [← hsource.2]
    simp [merged]
  obtain ⟨hoff, hfilling⟩ := hrecomputed merged hmerged
  have hend : (resetPoint s).pool = (recomputeQ (fun s => s) merged).pool ∧
      (resetPoint s).ps = (recomputeQ (fun s => s) merged).ps := by
    simp [resetPoint, merged]
  rw [State.screenOff, hend.1, hend.2]
  exact ⟨hoff, hfilling⟩

/-- The scan end darkens the screen (R17, R71). -/
theorem scanEnded_screen {s : State} (hs : s.rolesSound) :
    (scanEndPool (closeWatch (s.setOtg { s.otg with nextStrip := s.prof.strips }))).screenOff ∧
      (scanEndPool (closeWatch (s.setOtg { s.otg with nextStrip := s.prof.strips }))).fillingHolds := by
  have hpool : (scanEndPool (closeWatch (s.setOtg { s.otg with nextStrip := s.prof.strips }))).pool = s.pool.offScreen :=
    scanEndPool_pool _
  obtain ⟨hfilling, -, hdark⟩ := offScreen_stays hs.1.1
  rw [State.screenOff, hpool]
  exact ⟨⟨hs.1.1.offScreen, hdark, by simp [closeWatch]⟩,
    fillingHolds_congr (by rw [hpool, hfilling]) (by simp [closeWatch]) hs.2⟩

theorem endScan_rolesSound {s : State} (hs : s.rolesSound) : (endScan s).rolesSound := by
  obtain ⟨hoff, hfills⟩ := scanEnded_screen hs
  simp only [endScan]
  generalize scanEndPool (closeWatch (s.setOtg { s.otg with nextStrip := s.prof.strips })) = ended at hoff hfills ⊢
  obtain ⟨hreset, hnone⟩ := resetPoint_screen hoff.2.2
  split
  · have hpoint : (if ended.otg.pendingReset then resetPoint ended else ended).screenOff ∧
        (if ended.otg.pendingReset then resetPoint ended else ended).fillingHolds := by
      split
      · exact ⟨hreset, fillingHolds_of_none hnone⟩
      · exact ⟨hoff, hfills⟩
    generalize (if ended.otg.pendingReset then resetPoint ended else ended) = point at hpoint ⊢
    split
    · exact applyProfile_rolesSound hpoint.1 hpoint.2
    · exact ⟨poolHolds_of_screenOff hpoint.1, hpoint.2⟩
  · obtain ⟨hholds, hfilling⟩ := leaveScan_roles hoff
    exact ⟨hholds, fillingHolds_congr hfilling (by simp) hfills⟩

theorem confirmProfile_rolesSound (r : Request) {s : State} (hs : s.rolesSound) : (confirmProfile r s).rolesSound := by
  simp only [confirmProfile]
  split
  · split
    · exact Reroled.rolesSound (s := s) (.of_eq (by simp)) (by simp) (by simp) hs
    next ht =>
      have ht' : s.otg.timing ≠ .scan := by simpa using ht
      refine applyProfile_rolesSound (screenOff_congr (by simp) (by simp) (screenOff_of_poolHolds hs.1 ht')) ?_
      exact fillingHolds_congr (by simp) (by simp) hs.2
  · exact Reroled.rolesSound (s := s) (.of_eq (by simp)) (by simp) (by simp) hs

theorem pipelineReset_rolesSound (r : Request) {s : State} (hs : s.rolesSound) : (pipelineReset r s).rolesSound := by
  simp only [pipelineReset]
  split
  · exact Reroled.rolesSound (s := s) (.of_eq (by simp)) (by simp) (by simp) hs
  · split
    · exact Reroled.rolesSound (s := s) (.of_eq (by simp)) (by simp) (by simp) hs
    · split
      · exact Reroled.rolesSound (s := s) (.of_eq (by simp)) (by simp) (by simp) hs
      next ht =>
        have ht' : s.otg.timing ≠ .scan := by simpa using ht
        obtain ⟨hoff, hnone⟩ := resetPoint_screen (s := deferReply .pipelineReset r.tag (acceptReset s))
          (by simpa using (hs.1.2 ht').2)
        exact ⟨poolHolds_of_screenOff hoff, fillingHolds_of_none hnone⟩

theorem reattachSource_rolesSound (r : Request) {s : State} (hs : s.rolesSound) : (reattachSource r s).rolesSound := by
  simp only [reattachSource]
  split
  next hst =>
    refine Reroled.rolesSound_of_none (s := s) (.of_eq (by simp)) hs.1 (filling_eq_none hs.2 fun h => ?_)
    simp [hst, SourceState.attached] at h
  · exact Reroled.rolesSound (s := s) (.of_eq (by simp)) (by simp) (by simp) hs

@[simp] theorem sequenceCheck_timing {f : Request → State → State} {r : Request} {s : State}
    (hf : (f r s).otg.timing = s.otg.timing) : (sequenceCheck f r s).otg.timing = s.otg.timing :=
  sequenceCheck_keeps (fun s => s.otg.timing) (by simp) (by simp) hf

@[simp] theorem sequenceCheck_ps {f : Request → State → State} {r : Request} {s : State} (hf : (f r s).ps = s.ps) :
    (sequenceCheck f r s).ps = s.ps := sequenceCheck_keeps State.ps (by simp) (by simp) hf

/-- Every effect keeps the roles, and the filling slot with its frame. -/
theorem rolesSound_keeps : Keeps State.rolesSound := by
  have hdetached {s : State} (hst : s.sp.state = .detached) (hs : s.rolesSound) : s.pool.filling = none :=
    filling_eq_none hs.2 fun h => by simp [hst, SourceState.attached] at h
  have hkeep {s t : State} (hs : s.rolesSound) (h : Reroled s t) (hcond : t.sp.cond = s.sp.cond)
      (hstate : t.sp.state = s.sp.state) : t.rolesSound := h.rolesSound hcond hstate hs
  constructor
  case powerOn => exact fun s _ => ⟨⟨powerOn_rolesHold _, fun _ => ⟨rfl, rfl⟩⟩, fillingHolds_of_none rfl⟩
  case startUnarmed =>
    refine fun s hst hs => Reroled.rolesSound_of_none (s := s) (.of_eq (by simp)) hs.1 (filling_eq_none hs.2 fun h => ?_)
    simp [hst, SourceState.attached] at h
  case startDetached =>
    exact fun s hst hs => Reroled.rolesSound_of_none (s := s) (.of_eq (by split <;> simp)) hs.1 (hdetached hst hs)
  case startObserved =>
    intro s _ _ hs
    obtain ⟨hholds, hnone⟩ := closeByStart_poolHolds hs
    exact Reroled.rolesSound_of_none (s := closeByStart s) (.of_eq (by simp)) hholds hnone
  case startTaken =>
    intro s k hatt hst hk hs
    obtain ⟨hholds, hnone⟩ := closeByStart_poolHolds hs
    refine takeFrame_rolesSound hholds hnone hk ?_
    have harmed : (closeByStart s).sp.state ≠ .unarmed := mt (closeByStart_carried s).unarmed.mp (frame_state_armed hatt)
    cases hstate : (closeByStart s).sp.state <;> simp_all [SourceState.attached]
  case line => exact fun e p s hs => lineEvent_rolesSound e p hs
  case frameEnd => exact fun s hs => frameEndEvent_rolesSound hs
  case signalLost => exact fun s hs => signalLostEvent_rolesSound hs
  case tmin => exact fun s _ hs => hkeep hs (tminExpired_reroled s) (by simp) (by simp)
  case repeatTimer => exact fun s _ hs => hkeep hs (repeatExpired_reroled s) (by simp) (by simp)
  case fixedTimer => exact fun s _ hs => hkeep hs (fixedExpired_reroled s) (by simp) (by simp)
  case stripRead =>
    exact fun s hdue hs => hkeep hs (readStrip_reroled _ (by simp [stripDue] at hdue; exact hdue.1.1)) (by simp) (by simp)
  case scanEnd => exact fun s _ hs => endScan_rolesSound hs
  case confirmProfile => exact fun s r _ hs => confirmProfile_rolesSound r (s := takeRequest s) hs
  case reattachSource => exact fun s r _ hs => reattachSource_rolesSound r (s := takeRequest s) hs
  case pipelineReset => exact fun s r _ hs => pipelineReset_rolesSound r (s := takeRequest s) hs
  case settle | tick | gap => exact fun s hs => hkeep hs (.of_eq (by simp)) (by simp) (by simp)
  case packet => exact fun a b c s hs => hkeep hs (.of_eq (by simp)) (by simp) (by simp)
  all_goals
    intros
    refine hkeep ‹State.rolesSound _› (.of_eq ?_) ?_ ?_
    all_goals simp

/-- Settles O9: every effect keeps the roles and the filling slot with its frame. -/
theorem rolesStayConsistent : Obligations.RolesStayConsistent :=
  fun _ _ hpool hfills hstep => step_kept rolesSound_keeps hstep ⟨hpool, hfills⟩

end Sys2Proof.Machine
end

section
/-! The pacing results (R52 to R59, R65, R91): they are those of the windows and the active profile after every command. -/

namespace Sys2Proof.Machine

/-- The results of the pacing unit, without the lock's own items and the model's marks. -/
def PacingUnit.results (u : PacingUnit) : PacingUnit :=
  { u with nextFixed := 0, armed := false, good := 0, bad := 0, sampledNow := false, filledNow := false }

/-- The results that do not hang on Q. -/
def State.resultsHold (s : State) : Prop :=
  s.pu.intervals.length ≤ 4 ∧ s.pu.fills.length ≤ 4 ∧ s.pu.ti = averageInterval s.pu.intervals ∧
    s.pu.fi = averageFill s.pu.fills ∧ (s.pu.planActive, s.pu.k, s.pu.tr) = planOf s.pc.active s.pu.ti ∧
    s.pu.admitted = admissionHolds s.pc.active s.pu.ti

/-- The three copies of the published Q agree (R57, R91). -/
def State.copiesAgree (s : State) : Prop := s.pool.q = s.pu.lastQ ∧ s.ps.q = s.pu.lastQ

theorem pacingHolds_iff (s : State) : s.pacingHolds ↔
    s.resultsHold ∧ s.copiesAgree ∧ s.pu.q = computeQ s.pc.active s.pu.fi ∧ s.pu.lastQ = s.pu.q := by
  simp only [State.pacingHolds, State.resultsHold, State.copiesAgree]
  constructor
  · rintro ⟨hi, hf, hti, hfi, hq, hlast, hpool, hps, hplan, hadmit⟩
    exact ⟨⟨hi, hf, hti, hfi, hplan, hadmit⟩, ⟨hpool.trans hlast.symm, hps.trans hlast.symm⟩, hq, hlast⟩
  · rintro ⟨⟨hi, hf, hti, hfi, hplan, hadmit⟩, ⟨hpool, hps⟩, hq, hlast⟩
    exact ⟨hi, hf, hti, hfi, hq, hlast, hpool.trans hlast, hps.trans hlast, hplan, hadmit⟩

theorem pacingHolds_congr {s t : State} (h : t.pu.results = s.pu.results ∧ t.pc.active = s.pc.active ∧
    t.pool.q = s.pool.q ∧ t.ps.q = s.ps.q) (hs : s.pacingHolds) : t.pacingHolds := by
  obtain ⟨hpu, hpc, hpool, hps⟩ := h
  simp only [PacingUnit.results, PacingUnit.mk.injEq] at hpu
  obtain ⟨hi, hf, hti, hfi, hq, hlast, hplan, hk, htr, -, -, -, -, hadmit, -⟩ := hpu
  rw [State.pacingHolds, hi, hf, hti, hfi, hq, hlast, hplan, hk, htr, hadmit, hpc, hpool, hps]
  exact hs

/-- The tune set changes no field that the plan reads (R58, R141). -/
theorem planOf_merge (p : Option Profile) (t : TuneSet) (ti : Option Nat) :
    planOf (p.map (·.merge t)) ti = planOf p ti := by
  cases p with
  | none => rfl
  | some p => cases ti <;> rfl

/-- The tune set changes no field that the admission test reads (R65, R141). -/
theorem admissionHolds_merge (p : Option Profile) (t : TuneSet) (ti : Option Nat) :
    admissionHolds (p.map (·.merge t)) ti = admissionHolds p ti := by
  cases p with
  | none => rfl
  | some p => cases ti <;> rfl

/-- A tune set that keeps the race margin keeps Q (R55, R141). -/
theorem computeQ_merge {p : Option Profile} {t : TuneSet} (fi : Option Nat)
    (h : ((p.getD Profile.absent).merge t).raceMargin = (p.getD Profile.absent).raceMargin) :
    computeQ (p.map (·.merge t)) fi = computeQ p fi := by
  cases p with
  | none => rfl
  | some p =>
    cases fi with
    | none => rfl
    | some fi =>
      have h : (p.merge t).raceMargin = p.raceMargin := h
      simp only [Option.map_some, computeQ, raceThreshold, h]
      rfl

theorem resultsHold_mergeTune {s t : State} (hpu : t.pu.results = s.pu.results) (hpc : t.pc = (mergeTune s).pc)
    (hs : s.resultsHold) : t.resultsHold := by
  simp only [PacingUnit.results, PacingUnit.mk.injEq] at hpu
  obtain ⟨hi, hf, hti, hfi, -, -, hplan, hk, htr, -, -, -, -, hadmit, -⟩ := hpu
  have hactive : t.pc.active = s.pc.active.map (·.merge s.pc.tune) := congrArg ProfileCtl.active hpc
  rw [State.resultsHold, hi, hf, hti, hfi, hplan, hk, htr, hadmit, hactive, planOf_merge, admissionHolds_merge]
  exact hs

theorem markEligible_pacingHolds (k : Slot) {s : State} (h : s.pacingHolds) : (markEligible k s).pacingHolds := h

/-- Q computed again and published where it changed, each event keeping the results (R56, R57). -/
theorem recomputeQ_pacingHolds {event : State → State} (hev : ∀ s : State, s.pacingHolds → (event s).pacingHolds) {s : State}
    (hresults : s.resultsHold) (hcopies : s.copiesAgree) : (recomputeQ event s).pacingHolds := by
  by_cases hsame : computeQ s.pc.active s.pu.fi = s.pu.lastQ
  · rw [recomputeQ_of_same _ hsame]
    exact (pacingHolds_iff _).mpr ⟨hresults, hcopies, rfl, hsame.symm⟩
  · rw [recomputeQ_of_changed _ hsame]
    refine judgeAll_inv State.pacingHolds event hev (fun k _ h => markEligible_pacingHolds k h) _ ?_
    exact (pacingHolds_iff _).mpr ⟨hresults, ⟨rfl, rfl⟩, rfl, rfl⟩

theorem checkInScan_pacingHolds {s : State} (h : s.pacingHolds) : (checkInScan s).pacingHolds :=
  pacingHolds_congr (by simp [checkInScan]) h

/-- The merge and the publication that follows it, before or after the choice (R57, R141). -/
theorem publishMargin_pacingHolds {s t : State} (hs : s.pacingHolds) (hpu : t.pu.results = s.pu.results)
    (hpc : t.pc = (mergeTune s).pc) (hpool : t.pool.q = s.pool.q) (hps : t.ps.q = s.ps.q) :
    (publishMargin s.mergeChangesMargin t).pacingHolds := by
  obtain ⟨hresults, ⟨hpoolq, hpsq⟩, hq, hlastq⟩ := (pacingHolds_iff s).mp hs
  have hlast : t.pu.results.lastQ = s.pu.results.lastQ := congrArg PacingUnit.lastQ hpu
  have hlast : t.pu.lastQ = s.pu.lastQ := hlast
  have hresults' := resultsHold_mergeTune hpu hpc hresults
  have hcopies : t.copiesAgree := ⟨by rw [hpool, hpoolq, hlast], by rw [hps, hpsq, hlast]⟩
  simp only [publishMargin]
  split
  · exact recomputeQ_pacingHolds (fun _ => checkInScan_pacingHolds) hresults' hcopies
  next hmargin =>
    have hmargin : (s.prof.merge s.pc.tune).raceMargin = s.prof.raceMargin := by simpa [State.mergeChangesMargin] using hmargin
    have hfi : t.pu.results.fi = s.pu.results.fi := congrArg PacingUnit.fi hpu
    have hfi : t.pu.fi = s.pu.fi := hfi
    have hq' : t.pu.results.q = s.pu.results.q := congrArg PacingUnit.q hpu
    have hq' : t.pu.q = s.pu.q := hq'
    refine (pacingHolds_iff t).mpr ⟨hresults', hcopies, ?_, by rw [hlast, hlastq, hq']⟩
    have hactive : t.pc.active = s.pc.active.map (·.merge s.pc.tune) := congrArg ProfileCtl.active hpc
    rw [hq', hq, hactive, hfi, computeQ_merge _ hmargin]

theorem chooseRefresh_pacingHolds {s : State} (h : s.pacingHolds) : (chooseRefresh s).pacingHolds :=
  pacingHolds_congr (by simp) h

theorem mergeAndChoose_pacingHolds {s : State} (h : s.pacingHolds) : (mergeAndChoose s).pacingHolds := by
  simp only [mergeAndChoose]
  repeat' split
  · exact chooseRefresh_pacingHolds h
  · exact chooseRefresh_pacingHolds (publishMargin_pacingHolds h rfl rfl rfl rfl)
  · exact publishMargin_pacingHolds h (by simp [mergeTune]) (by simp [mergeTune]) (by simp [mergeTune]) (by simp [mergeTune])
  · exact publishMargin_pacingHolds h (by simp [mergeTune]) (by simp [mergeTune]) (by simp [mergeTune]) (by simp [mergeTune])

theorem refreshBy_pacingHolds (expired planned : Bool) {s : State} (h : s.pacingHolds) :
    (refreshBy expired planned s).pacingHolds :=
  pacingHolds_congr (s := mergeAndChoose (beginScan s)) (by simp [refreshBy, PacingUnit.results])
    (mergeAndChoose_pacingHolds (pacingHolds_congr (s := s) (by simp) h))

theorem phaseMeasure_pacingHolds {s : State} (h : s.pacingHolds) : (phaseMeasure s).pacingHolds :=
  pacingHolds_congr (by simp [PacingUnit.results]) h

theorem eligibilityEvent_pacingHolds {s : State} (h : s.pacingHolds) : (eligibilityEvent s).pacingHolds := by
  simp only [eligibilityEvent]
  repeat' split
  · exact checkInScan_pacingHolds (phaseMeasure_pacingHolds h)
  · exact refreshBy_pacingHolds false false (phaseMeasure_pacingHolds h)
  all_goals exact phaseMeasure_pacingHolds h

theorem windowAdd_length {w : List Nat} (h : w.length ≤ 4) (x : Nat) : (windowAdd w x).length ≤ 4 := by
  simp only [windowAdd]
  split
  · simp
    omega
  · simp
    omega

/-- A change of the fill window: Fi, Q and what a new Q brings (R54, R56). -/
theorem fillsChanged_pacingHolds {w : List Nat} (hw : w.length ≤ 4) {s : State} (h : s.pacingHolds) :
    (fillsChanged eligibilityEvent w s).pacingHolds := by
  obtain ⟨⟨hi, -, hti, -, hplan, hadmit⟩, hcopies, -, -⟩ := (pacingHolds_iff s).mp h
  exact recomputeQ_pacingHolds (fun _ => eligibilityEvent_pacingHolds) (s := s.setPu _)
    ⟨hi, hw, hti, rfl, hplan, hadmit⟩ hcopies

/-- A change of the interval window: Ti, the plan, the admission and the reports (R53, R58, R65). -/
theorem intervalsChanged_results (w : List Nat) (s : State) :
    (intervalsChanged w s).pu.results = PacingUnit.results { s.pu with
      intervals := w
      ti := averageInterval w
      planActive := (planOf s.pc.active (averageInterval w)).1
      k := (planOf s.pc.active (averageInterval w)).2.1
      tr := (planOf s.pc.active (averageInterval w)).2.2
      admitted := admissionHolds s.pc.active (averageInterval w) } := by
  simp [intervalsChanged, setAdmission, setPlan, PacingUnit.results]

theorem intervalsChanged_pacingHolds {w : List Nat} (hw : w.length ≤ 4) {s : State} (h : s.pacingHolds) :
    (intervalsChanged w s).pacingHolds := by
  obtain ⟨-, hf, -, hfi, hq, hlast, hpool, hps, -, -⟩ := h
  refine pacingHolds_congr (s := s.setPu { s.pu with
    intervals := w
    ti := averageInterval w
    planActive := (planOf s.pc.active (averageInterval w)).1
    k := (planOf s.pc.active (averageInterval w)).2.1
    tr := (planOf s.pc.active (averageInterval w)).2.2
    admitted := admissionHolds s.pc.active (averageInterval w) }) ?_ ?_
  · exact ⟨intervalsChanged_results w s, by simp, by simp, by simp⟩
  · exact ⟨hw, hf, rfl, hfi, hq, hlast, hpool, hps, rfl, rfl⟩

theorem clearWindows_pacingHolds {s : State} (h : s.pacingHolds) : (clearWindows s).pacingHolds :=
  fillsChanged_pacingHolds (by simp) (intervalsChanged_pacingHolds (by simp) h)

theorem moveSource_pacingHolds (st : SourceState) (score : Nat) {s : State} (h : s.pacingHolds) :
    (moveSource st score s).pacingHolds :=
  pacingHolds_congr (by simp [PacingUnit.results]) h

theorem enterDetached_pacingHolds (score : Nat) {s : State} (h : s.pacingHolds) : (enterDetached score s).pacingHolds := by
  simp only [enterDetached]
  exact clearWindows_pacingHolds (pacingHolds_congr (by simp) (moveSource_pacingHolds .detached score h))

theorem changeScore_pacingHolds (f : Nat → Nat) {s : State} (h : s.pacingHolds) : (changeScore f s).pacingHolds := by
  simp only [changeScore]
  repeat' split
  · exact enterDetached_pacingHolds _ h
  · exact moveSource_pacingHolds _ _ h
  · exact h

theorem strayEvent_pacingHolds {s : State} (h : s.pacingHolds) : (strayEvent s).pacingHolds := by
  simp only [strayEvent]
  split
  case h_1 | h_2 | h_3 => exact changeScore_pacingHolds _ h
  all_goals exact h

theorem foreignFrame_pacingHolds {s : State} (h : s.pacingHolds) : (foreignFrame s).pacingHolds := by
  have haborted : (abortFilling false (reportFate s.sp.frameCounter .foreign s)).pacingHolds :=
    pacingHolds_congr (by simp) h
  exact pacingHolds_congr (by simp [foreignFrame]) (clearWindows_pacingHolds haborted)

theorem stripFilled_pacingHolds (bad : Bool) {s : State} (h : s.pacingHolds) : (stripFilled bad s).pacingHolds := by
  have hcount : (countStrip bad s).pacingHolds := pacingHolds_congr (by simp) h
  simp only [stripFilled]
  repeat' split
  · exact eligibilityEvent_pacingHolds hcount
  all_goals exact hcount

theorem goodLine_pacingHolds (e : Bool) (pixels : List Pixel) {s : State} (h : s.pacingHolds) :
    (goodLine e pixels s).pacingHolds := by
  have hstored : (storeLine s.sp.lineCount pixels s).pacingHolds := pacingHolds_congr (by simp) h
  simp only [goodLine]
  generalize storeLine s.sp.lineCount pixels s = stored at hstored ⊢
  split
  · exact stripFilled_pacingHolds _ (s := countLine _) hstored
  · exact hstored

theorem lineEvent_pacingHolds (e : Bool) (pixels : List Pixel) {s : State} (h : s.pacingHolds) :
    (lineEvent e pixels s).pacingHolds := by
  have hforeign {u : State} (hu : u.pacingHolds) : (foreignAtLine u).pacingHolds :=
    foreignFrame_pacingHolds (s := u.setSp _) hu
  have hcount {u : State} (hu : u.pacingHolds) : (countLine u).pacingHolds := hu
  simp only [lineEvent]
  repeat' split
  · exact h
  · exact strayEvent_pacingHolds h
  · simp only [takenLine]
    repeat' split
    · exact hforeign (hcount h)
    · exact hforeign (hcount h)
    · exact goodLine_pacingHolds e pixels h
  all_goals exact h

theorem completeSlot_pacingHolds (k : Slot) {s : State} (h : s.pacingHolds) : (completeSlot k s).pacingHolds := by
  simp only [completeSlot]
  repeat' split
  case isFalse.isFalse.isFalse => exact eligibilityEvent_pacingHolds (pacingHolds_congr (by simp) h)
  all_goals exact pacingHolds_congr (by simp) h

theorem completeFrame_pacingHolds {s : State} (h : s.pacingHolds) : (completeFrame s).pacingHolds := by
  simp only [completeFrame]
  split
  next k _ =>
    have hdone := completeSlot_pacingHolds k h
    have hsampled : (fillSample (s.slot k).firstLine (completeSlot k s)).pacingHolds := by
      simp only [fillSample]
      split
      · obtain ⟨-, hf, -⟩ := id hdone
        exact fillsChanged_pacingHolds (windowAdd_length hf _) (s := (completeSlot k s).setPu _) hdone
      · exact hdone
    refine changeScore_pacingHolds _ ?_
    split
    · exact pacingHolds_congr (by simp) hsampled
    · exact pacingHolds_congr (by simp) hdone
  · exact h

theorem frameEndEvent_pacingHolds {s : State} (h : s.pacingHolds) : (frameEndEvent s).pacingHolds := by
  simp only [frameEndEvent]
  repeat' split
  · exact h
  · exact strayEvent_pacingHolds h
  · exact completeFrame_pacingHolds h
  · exact pacingHolds_congr (by simp [foreignAtEnd]) (foreignFrame_pacingHolds h)
  · exact pacingHolds_congr (by simp) h
  · exact h
  · simp only [observedEnd]
    repeat' split
    · exact pacingHolds_congr (by simp [reattach]) (moveSource_pacingHolds .guarded 96 (s := endFrame s) h)
    all_goals exact h

theorem signalLostEvent_pacingHolds {s : State} (h : s.pacingHolds) : (signalLostEvent s).pacingHolds := by
  have hclose : (endFrame (closeByLoss (s.setSp { s.sp with signal := false }))).pacingHolds :=
    pacingHolds_congr (s := s) (by simp) h
  simp only [signalLostEvent]
  split
  case h_1 | h_2 | h_3 => exact enterDetached_pacingHolds 128 hclose
  all_goals exact h

theorem closeByStart_pacingHolds {s : State} (h : s.pacingHolds) : (closeByStart s).pacingHolds := by
  simp only [closeByStart]
  split
  case h_5 => exact changeScore_pacingHolds _ (pacingHolds_congr (s := s) (by simp) h)
  case h_4 => exact pacingHolds_congr (s := s) (by simp) h
  all_goals exact h

theorem takeFrame_pacingHolds (k : Slot) {s : State} (h : s.pacingHolds) : (takeFrame k s).pacingHolds := by
  have hsample {u : State} (hu : u.pacingHolds) : (intervalSample u).pacingHolds := by
    simp only [intervalSample]
    repeat' split
    · exact hu
    · obtain ⟨hi, -⟩ := id hu
      exact intervalsChanged_pacingHolds (windowAdd_length hi _) (s := u.setPu _) hu
    · exact intervalsChanged_pacingHolds (by simp) hu
    · exact hu
  exact hsample (u := createRecord _ k s.now (takeSlot k _ s.now (s.setSp _))) h

theorem repeatExpiryOpen_pacingHolds {s : State} (h : s.pacingHolds) : (repeatExpiryOpen s).pacingHolds := by
  simp only [repeatExpiryOpen]
  repeat' split
  · exact pacingHolds_congr (by simp) h
  all_goals exact refreshBy_pacingHolds _ _ h

theorem enterBlankOpen_pacingHolds {s : State} (h : s.pacingHolds) : (enterBlankOpen s).pacingHolds := by
  simp only [enterBlankOpen]
  repeat' split
  · exact refreshBy_pacingHolds false false (s := s.setOtg _) h
  · exact repeatExpiryOpen_pacingHolds (s := (s.setOtg { s.otg with timing := .blankOpen }).setOtg _) h
  · exact h

theorem tminExpired_pacingHolds {s : State} (h : s.pacingHolds) : (tminExpired s).pacingHolds := by
  simp only [tminExpired]
  split
  next => exact h
  next => exact enterBlankOpen_pacingHolds (s := s.setOtg _) h
  all_goals exact h

theorem repeatExpired_pacingHolds {s : State} (h : s.pacingHolds) : (repeatExpired s).pacingHolds := by
  simp only [repeatExpired]
  split
  next => exact repeatExpiryOpen_pacingHolds (s := s.setOtg _) h
  all_goals exact h

theorem fixedExpired_pacingHolds {s : State} (h : s.pacingHolds) : (fixedExpired s).pacingHolds := by
  simp only [fixedExpired]
  split
  next => exact refreshBy_pacingHolds true false (s := s.setOtg _) h
  all_goals exact h

theorem leaveScan_pacingHolds {s : State} (h : s.pacingHolds) : (leaveScan s).pacingHolds := by
  simp only [leaveScan]
  repeat' split
  · exact enterBlankOpen_pacingHolds h
  · exact h
  · exact refreshBy_pacingHolds true false (s := (s.setOtg { s.otg with timing := .blank }).setOtg _) h
  · exact h

theorem emptied_length (last now : Bool) (w : List Nat) : (emptied last now w).length ≤ 1 := by
  simp only [emptied]
  split
  · cases w.getLast? <;> simp
  · simp

/-- The windows of an application, with Ti and Fi (R52, R54, R66). -/
def State.pacingBegun (s : State) (geo win : Bool) : State :=
  (emptyWindows (geo || win) geo s).setPu { (emptyWindows (geo || win) geo s).pu with
    ti := averageInterval (emptyWindows (geo || win) geo s).pu.intervals
    fi := averageFill (emptyWindows (geo || win) geo s).pu.fills }

/-- Q of an application published, its events marking alone (R66; Log 12). -/
def State.pacingJudged (s : State) (geo win : Bool) : State :=
  judgeAll (fun s => s) ((s.pacingBegun geo win).qPublished
    (computeQ (s.pacingBegun geo win).pc.active (s.pacingBegun geo win).pu.fi))

theorem applyPacing_eq (geo win : Bool) (s : State) : applyPacing geo win s =
    (setAdmission (setPlan (s.pacingJudged geo win))).setPu
      { (setAdmission (setPlan (s.pacingJudged geo win))).pu with
        armed := false
        good := 0
        bad := 0
        nextFixed := if (s.pacingJudged geo win).prof.pacing = .fixed then (s.pacingJudged geo win).prof.fixedInterval
          else 0 } := rfl

/-- Marks touch nothing but the records of slots. -/
theorem pacingJudged_fields (geo win : Bool) (s : State) :
    (s.pacingJudged geo win).pu = ((s.pacingBegun geo win).qPublished
      (computeQ (s.pacingBegun geo win).pc.active (s.pacingBegun geo win).pu.fi)).pu ∧
    (s.pacingJudged geo win).pc = s.pc ∧
    (s.pacingJudged geo win).pool.q = computeQ (s.pacingBegun geo win).pc.active (s.pacingBegun geo win).pu.fi ∧
    (s.pacingJudged geo win).ps.q = computeQ (s.pacingBegun geo win).pc.active (s.pacingBegun geo win).pu.fi :=
  judgeAll_inv (fun u => u.pu = ((s.pacingBegun geo win).qPublished
      (computeQ (s.pacingBegun geo win).pc.active (s.pacingBegun geo win).pu.fi)).pu ∧ u.pc = s.pc ∧
      u.pool.q = computeQ (s.pacingBegun geo win).pc.active (s.pacingBegun geo win).pu.fi ∧
      u.ps.q = computeQ (s.pacingBegun geo win).pc.active (s.pacingBegun geo win).pu.fi)
    (fun s => s) (fun _ h => h) (fun _ _ h => h) _ ⟨rfl, rfl, rfl, rfl⟩

/-- The application sets the results afresh under its profile (R66). -/
theorem applyPacing_pacingHolds (geo win : Bool) {s : State} (hi : s.pu.intervals.length ≤ 4) (hf : s.pu.fills.length ≤ 4) :
    (applyPacing geo win s).pacingHolds := by
  obtain ⟨hpu, hpc, hpool, hps⟩ := pacingJudged_fields geo win s
  have hintervals : (s.pacingBegun geo win).pu.intervals.length ≤ 4 := by
    show (if (geo || win) = true then _ else s.pu.intervals).length ≤ 4
    split
    · exact (emptied_length _ _ _).trans (by omega)
    · exact hi
  have hfills : (s.pacingBegun geo win).pu.fills.length ≤ 4 := by
    show (if geo = true then _ else s.pu.fills).length ≤ 4
    split
    · exact (emptied_length _ _ _).trans (by omega)
    · exact hf
  rw [applyPacing_eq, State.pacingHolds]
  simp only [setAdmission, setPlan, State.setPu_fields, hpool, hps, hpu, hpc]
  exact ⟨hintervals, hfills, rfl, rfl, rfl, rfl, rfl, rfl, trivial, trivial⟩

end Sys2Proof.Machine
end

section
/-! The pacing results at the points and under every command (R66, R67). -/

namespace Sys2Proof.Machine

theorem averageInterval_of_short {w : List Nat} (h : w.length ≤ 1) : averageInterval w = none := by
  rw [averageInterval, if_neg (by omega)]

theorem planOf_of_none (p : Option Profile) : planOf p none = (false, 0, 0) := by
  cases p <;> rfl

theorem admissionHolds_of_none (p : Option Profile) : admissionHolds p none = false := by
  cases p <;> rfl

/-- The unit's share of a reset, Q not yet computed (R67). -/
theorem resetPacing_resultsHold (s : State) : (resetPacing s).resultsHold := by
  have hintervals : (emptyWindows true true s).pu.intervals.length ≤ 1 := emptied_length _ _ _
  have hfills : (emptyWindows true true s).pu.fills.length ≤ 1 := emptied_length _ _ _
  have hti := averageInterval_of_short hintervals
  have hresults : (resetPacing s).pu.intervals = (emptyWindows true true s).pu.intervals ∧
      (resetPacing s).pu.fills = (emptyWindows true true s).pu.fills := ⟨rfl, rfl⟩
  have hti' : (resetPacing s).pu.ti = none := hti
  rw [State.resultsHold, hti', hresults.1, hresults.2, hti, planOf_of_none, admissionHolds_of_none]
  exact ⟨by omega, by omega, rfl, rfl, rfl, rfl⟩

theorem resetSource_pool_q (s : State) (h : s.pool.rolesHold) (hq : s.pool.q = none) : (resetSource s).pool.q = none := by
  have hclear (u : State) (hu : u.pool.rolesHold) (huq : u.pool.q = none) : (clearWindows u).pool.q = none := by
    rw [clearWindows_eq hu, State.qUnknown]
    split
    · simpa using huq
    · rfl
  simp only [resetSource]
  repeat' split
  · simpa using hq
  · simpa using hq
  · simp only [enterDetached]
    exact hclear _ (by simpa using h) (by simpa using hq)

theorem resetPoint_pacingHolds (s : State) : (resetPoint s).pacingHolds := by
  have hq : (resetSource (resetPool s)).pool.q = none := resetSource_pool_q _ (resetPool_rolesHold s) rfl
  have hmerged : (recomputeQ (fun s => s) ((mergeTune ((resetPacing (resetSource (resetPool s))).setPs
      { (resetPacing (resetSource (resetPool s))).ps with blankActive := false, q := none })).setHr [])).pacingHolds := by
    refine recomputeQ_pacingHolds (fun _ h => h) ?_ ⟨hq, rfl⟩
    exact resultsHold_mergeTune (s := resetPacing (resetSource (resetPool s))) rfl rfl (resetPacing_resultsHold _)
  exact pacingHolds_congr (by simp [resetPoint, PacingUnit.results]) hmerged

/-- Both windows are empty (R37, R47). -/
theorem clearWindows_windows (s : State) : (clearWindows s).pu.intervals = [] ∧ (clearWindows s).pu.fills = [] := by
  have hintervals := congrArg PacingUnit.intervals (intervalsChanged_results [] s)
  have hintervals : (intervalsChanged [] s).pu.intervals = [] := hintervals
  simp [clearWindows, fillsChanged, clearIntervals, hintervals]

theorem enterDetached_windows (score : Nat) (s : State) :
    (enterDetached score s).pu.intervals = [] ∧ (enterDetached score s).pu.fills = [] := clearWindows_windows _

/-- The windows stay short through the source port's share of an application. -/
theorem applyFrames_windows (old : Option Profile) (geo : Bool) {s : State}
    (h : s.pu.intervals.length ≤ 4 ∧ s.pu.fills.length ≤ 4) :
    (applyFrames old geo s).pu.intervals.length ≤ 4 ∧ (applyFrames old geo s).pu.fills.length ≤ 4 := by
  cases old with
  | some o =>
    simp only [applyFrames]
    split
    · simpa using h
    · exact h
  | none =>
    simp only [applyFrames, armSource]
    split
    · simpa using h
    · simp [enterDetached_windows]

theorem applyProfile_pacingHolds {s : State} (h : s.pacingHolds) : (applyProfile s).pacingHolds := by
  cases hp : s.pc.proposal with
  | none =>
    simp only [applyProfile, hp]
    exact h
  | some p =>
    obtain ⟨hi, hf, -⟩ := h
    let begun : State := s.setPc { s.pc with active := some p, proposal := none, propState := .none }
    let paced : State := applyPacing (geometryDiffers s.pc.active p) (windowDiffers s.pc.active p)
      (applyFrames s.pc.active (geometryDiffers s.pc.active p) begun)
    have hwindows := applyFrames_windows s.pc.active (geometryDiffers s.pc.active p) (s := begun) ⟨hi, hf⟩
    have hpaced : paced.pacingHolds := applyPacing_pacingHolds _ _ hwindows.1 hwindows.2
    have hstart (u : State) (hu : u.pacingHolds) : (startOutput u).pacingHolds := by
      have hrefresh := refreshBy_pacingHolds false false (s := u.setOtg { u.otg with mode := some u.prof.pacing }) hu
      simp only [startOutput]
      split <;> exact hrefresh
    have hrestart (u : State) (hu : u.pacingHolds) : (restartCycle u).pacingHolds :=
      pacingHolds_congr (by simp [PacingUnit.results]) hu
    have happly : applyProfile s = completeDeferred .profileApply .ok
        ((if s.otg.timing = .idle then startOutput paced else restartCycle paced).setOtg
          { (if s.otg.timing = .idle then startOutput paced else restartCycle paced).otg with pendingApp := false }) := by
      simp only [applyProfile, hp]
      rfl
    rw [happly]
    refine pacingHolds_congr (s := if s.otg.timing = .idle then startOutput paced else restartCycle paced)
      (by simp) ?_
    split
    · exact hstart _ hpaced
    · exact hrestart _ hpaced

theorem endScan_pacingHolds {s : State} (h : s.pacingHolds) : (endScan s).pacingHolds := by
  have hended : (scanEndPool (closeWatch (s.setOtg { s.otg with nextStrip := s.prof.strips }))).pacingHolds :=
    pacingHolds_congr (s := s) (by simp) h
  simp only [endScan]
  generalize scanEndPool (closeWatch (s.setOtg { s.otg with nextStrip := s.prof.strips })) = ended at hended ⊢
  split
  · have hpoint : (if ended.otg.pendingReset then resetPoint ended else ended).pacingHolds := by
      split
      · exact resetPoint_pacingHolds ended
      · exact hended
    generalize (if ended.otg.pendingReset then resetPoint ended else ended) = point at hpoint ⊢
    split
    · exact applyProfile_pacingHolds hpoint
    · exact hpoint
  · exact leaveScan_pacingHolds hended

@[simp] theorem sequenceCheck_pu {f : Request → State → State} {r : Request} {s : State} (hf : (f r s).pu = s.pu) :
    (sequenceCheck f r s).pu = s.pu := sequenceCheck_keeps State.pu (by simp) (by simp) hf

@[simp] theorem sequenceCheck_active {f : Request → State → State} {r : Request} {s : State}
    (hf : (f r s).pc.active = s.pc.active) : (sequenceCheck f r s).pc.active = s.pc.active := by
  obtain h | h | h := sequenceCheck_cases f r s
  · simp [h]
  · simp [h]
  · rw [h, hf]

theorem confirmProfile_pacingHolds (r : Request) {s : State} (h : s.pacingHolds) : (confirmProfile r s).pacingHolds := by
  simp only [confirmProfile]
  repeat' split
  · exact pacingHolds_congr (s := s) (by simp) h
  · exact applyProfile_pacingHolds (pacingHolds_congr (s := s) (by simp) h)
  · exact pacingHolds_congr (s := s) (by simp) h

theorem pipelineReset_pacingHolds (r : Request) {s : State} (h : s.pacingHolds) : (pipelineReset r s).pacingHolds := by
  simp only [pipelineReset]
  repeat' split
  · exact pacingHolds_congr (s := s) (by simp) h
  · exact pacingHolds_congr (s := s) (by simp) h
  · exact pacingHolds_congr (s := s) (by simp) h
  · exact resetPoint_pacingHolds _

theorem reattachSource_pacingHolds (r : Request) {s : State} (h : s.pacingHolds) : (reattachSource r s).pacingHolds := by
  simp only [reattachSource]
  split
  · exact pacingHolds_congr (by simp [reattach]) (moveSource_pacingHolds .guarded 96 h)
  · exact pacingHolds_congr (s := s) (by simp) h

/-- Every effect keeps the pacing results. -/
theorem pacingHolds_keeps : Keeps State.pacingHolds := by
  constructor
  case powerOn =>
    obtain ⟨-, -, -, -, -, -, -, -, -, -, -, hreset, -⟩ := resetIsSound
    exact fun s _ => pacingHolds_congr (s := State.reset) ⟨rfl, rfl, rfl, rfl⟩ hreset
  case line => exact fun e p s hs => lineEvent_pacingHolds e p hs
  case frameEnd => exact fun s hs => frameEndEvent_pacingHolds hs
  case signalLost => exact fun s hs => signalLostEvent_pacingHolds hs
  case startDetached => exact fun s _ hs => pacingHolds_congr (by split <;> simp) hs
  case startObserved => exact fun s _ _ hs => closeByStart_pacingHolds hs
  case startTaken => exact fun s k _ _ _ hs => takeFrame_pacingHolds k (closeByStart_pacingHolds hs)
  case tick => exact fun s hs => pacingHolds_congr (by simp [PacingUnit.results]) hs
  case tmin => exact fun s _ hs => tminExpired_pacingHolds hs
  case repeatTimer => exact fun s _ hs => repeatExpired_pacingHolds hs
  case fixedTimer => exact fun s _ hs => fixedExpired_pacingHolds hs
  case scanEnd => exact fun s _ hs => endScan_pacingHolds hs
  case confirmProfile => exact fun s r _ hs => confirmProfile_pacingHolds r (s := takeRequest s) hs
  case reattachSource => exact fun s r _ hs => reattachSource_pacingHolds r (s := takeRequest s) hs
  case pipelineReset => exact fun s r _ hs => pipelineReset_pacingHolds r (s := takeRequest s) hs
  case settle | gap => exact fun s hs => pacingHolds_congr (by simp) hs
  case packet => exact fun a b c s hs => pacingHolds_congr (by simp) hs
  all_goals
    intros
    refine pacingHolds_congr ?_ ‹State.pacingHolds _›
    simp

end Sys2Proof.Machine
end

section
/-! The lock and the next fixed interval (R63, R78, R81, R83). -/

namespace Sys2Proof.Machine

/-- Tf of a FIXED profile lies in its window (R131). -/
def State.fixedSound (s : State) : Prop :=
  ∀ p, s.pc.active = some p → p.pacing = .fixed → p.winMin ≤ p.fixedInterval ∧ p.fixedInterval ≤ p.winMax

/-- What holds the lock out of FREE_RUN (R81, R83). -/
def State.backed (s : State) : Prop :=
  ∃ p, s.pc.active = some p ∧ p.pacing = .fixed ∧ p.lock = true ∧ s.pu.admitted = true ∧ s.sp.state.healthy = true

/-- The next fixed interval by the pacing and the lock (R63). -/
def State.nextHolds (s : State) : Prop :=
  ∀ p, s.pc.active = some p →
    (p.pacing = .fixed → p.winMin ≤ s.pu.nextFixed ∧ s.pu.nextFixed ≤ p.winMax ∧
      (s.otg.lock = .freeRun → s.pu.nextFixed = p.fixedInterval)) ∧
    (p.pacing = .adaptive → s.pu.nextFixed = 0)

theorem lockHolds_iff (s : State) : s.lockHolds ↔ (s.otg.lock ≠ .freeRun → s.backed) ∧ s.nextHolds := Iff.rfl

/-- The lock's conditions, with what they need of the profile. -/
def State.lockSound (s : State) : Prop := s.fixedSound ∧ s.lockHolds

theorem fixedSound_congr {s t : State} (h : t.pc.active = s.pc.active) (hs : s.fixedSound) : t.fixedSound := by
  rw [State.fixedSound, h]
  exact hs

theorem lockSound_congr {s t : State} (h : t.otg.lock = s.otg.lock ∧ t.pc.active = s.pc.active ∧
    t.pu.admitted = s.pu.admitted ∧ t.pu.nextFixed = s.pu.nextFixed ∧ t.sp.state = s.sp.state) (hs : s.lockSound) :
    t.lockSound := by
  obtain ⟨hlock, hpc, hadmit, hnext, hstate⟩ := h
  obtain ⟨hfixed, hholds⟩ := hs
  refine ⟨fixedSound_congr hpc hfixed, ?_⟩
  rw [State.lockHolds, hlock, hpc, hadmit, hnext, hstate]
  exact hholds

/-- The tune set changes none of the fields that the lock reads (R141). -/
theorem lockSound_merged {s t : State} (hpc : PcMerged s t) (h : t.otg.lock = s.otg.lock ∧
    t.pu.admitted = s.pu.admitted ∧ t.pu.nextFixed = s.pu.nextFixed ∧ t.sp.state = s.sp.state) (hs : s.lockSound) :
    t.lockSound := by
  rcases hpc with hpc | hpc
  · obtain ⟨hlock, hadmit, hnext, hstate⟩ := h
    exact lockSound_congr ⟨hlock, by rw [hpc], hadmit, hnext, hstate⟩ hs
  · obtain ⟨hlock, hadmit, hnext, hstate⟩ := h
    have hactive : t.pc.active = s.pc.active.map (·.merge s.pc.tune) := congrArg ProfileCtl.active hpc
    obtain ⟨hfixed, hbacked, hinterval⟩ := hs
    refine ⟨fun p hp => ?_, fun hl => ?_, fun p hp => ?_⟩
    · obtain ⟨q, hq, rfl⟩ := Option.map_eq_some_iff.mp (hactive.symm.trans hp)
      exact hfixed q hq
    · obtain ⟨q, hq, hrest⟩ := hbacked (hlock ▸ hl)
      refine ⟨q.merge s.pc.tune, by rw [hactive, hq]; rfl, ?_⟩
      rw [hadmit, hstate]
      exact hrest
    · obtain ⟨q, hq, rfl⟩ := Option.map_eq_some_iff.mp (hactive.symm.trans hp)
      rw [hlock, hnext]
      exact hinterval q hq

theorem prof_of_active {s : State} {p : Profile} (h : s.pc.active = some p) : s.prof = p := by
  simp [State.prof, h]

/-- A drop to FREE_RUN needs no backing (R63, R83). -/
theorem dropLock_lockSound {s : State} (hfixed : s.fixedSound) (hnext : s.nextHolds) : (dropLock s).lockSound := by
  refine ⟨fixedSound_congr (by simp) hfixed, ?_⟩
  by_cases hl : s.otg.lock = .freeRun
  · rw [dropLock_of_freeRun hl]
    exact ⟨fun h => absurd hl h, hnext⟩
  · have hdrop : (dropLock s).otg.lock = .freeRun ∧ (dropLock s).pu.nextFixed =
        (if s.prof.pacing = .fixed then s.prof.fixedInterval else s.pu.nextFixed) := by
      simp [dropLock, setLock, hl]
    refine ⟨fun h => absurd hdrop.1 h, fun p hp => ?_⟩
    have hp : s.pc.active = some p := by simpa using hp
    rw [hdrop.2, prof_of_active hp]
    obtain ⟨hin, hzero⟩ := hnext p hp
    refine ⟨fun h => ?_, fun h => ?_⟩
    · rw [if_pos h]
      exact ⟨(hfixed p hp h).1, (hfixed p hp h).2, fun _ => rfl⟩
    · rw [if_neg (by simp [h])]
      exact hzero h

/-- A backed move of the lock leaves the interval in the window (R64, R81, R82). -/
theorem setLock_lockSound {l : Lock} (hl : l ≠ .freeRun) {s : State} (hs : s.lockSound) (hback : s.backed) :
    (setLock l s).lockSound := by
  obtain ⟨hfixed, -, hnext⟩ := hs
  refine ⟨fixedSound_congr (by simp) hfixed, ?_⟩
  have hkept : (setLock l s).pu.nextFixed = s.pu.nextFixed ∧ (setLock l s).otg.lock = l := by
    by_cases h : s.otg.lock = l
    · simp [setLock, h]
    · simp [setLock, h, hl]
  refine ⟨fun _ => ?_, fun p hp => ?_⟩
  · simpa [State.backed] using hback
  · obtain ⟨hin, hzero⟩ := hnext p (by simpa using hp)
    rw [hkept.1, hkept.2]
    exact ⟨fun h => ⟨(hin h).1, (hin h).2.1, fun e => absurd e hl⟩, hzero⟩

theorem clampFixed_in_window {p : Profile} (h : p.winMin ≤ p.fixedInterval ∧ p.fixedInterval ≤ p.winMax) (x : Int) :
    p.winMin ≤ clampFixed p x ∧ clampFixed p x ≤ p.winMax := by
  obtain ⟨hlow, hhigh⟩ := clampFixed_mem_bounds (fixedLower_le_fixedUpper h.1 h.2) x
  simp only [fixedLower, fixedUpper] at hlow hhigh
  omega

/-- Out of FREE_RUN the next fixed interval is taken from Ti within the window (R63). -/
theorem lockSound_fixedFrom {s : State} (hs : s.lockSound) (hl : s.otg.lock ≠ .freeRun) (c : Int) {t : State}
    (h : t.otg.lock = s.otg.lock ∧ t.pc.active = s.pc.active ∧ t.pu.admitted = s.pu.admitted ∧
      t.pu.nextFixed = fixedFrom s.prof s.pu c ∧ t.sp.state = s.sp.state) : t.lockSound := by
  obtain ⟨hlock, hpc, hadmit, hnextEq, hstate⟩ := h
  obtain ⟨hfixed, hback, hnext⟩ := hs
  refine ⟨fixedSound_congr hpc hfixed, fun _ => ?_, fun p hp => ?_⟩
  · rw [hpc, hadmit, hstate]
    exact hback hl
  · rw [hpc] at hp
    obtain ⟨hin, hzero⟩ := hnext p hp
    obtain ⟨q, hq, hpacing, -⟩ := hback hl
    have hpq : p = q := Option.some.inj (hp.symm.trans hq)
    rw [hlock, hnextEq, prof_of_active hp]
    refine ⟨fun hf => ?_, fun ha => ?_⟩
    rotate_left
    · rw [hpq, hpacing] at ha
      cases ha
    simp only [fixedFrom]
    cases s.pu.ti with
    | none => exact hin hf
    | some ti =>
      obtain ⟨hlow, hhigh⟩ := clampFixed_in_window (hfixed p hp hf) ((ti : Int) + c)
      exact ⟨hlow, hhigh, fun e => absurd e hl⟩

theorem takeReport_lockSound {s : State} (hs : s.lockSound) : (takeReport s).lockSound := by
  have hback := hs.2.1
  simp only [takeReport]
  split
  next hl =>
    split
    · exact setLock_lockSound (by decide) hs (hback (by simp [hl]))
    · exact hs
  next hl =>
    split
    · exact setLock_lockSound (by decide) hs (hback (by simp [hl]))
    · exact hs
  · exact hs

theorem measureFrom_lockSound (armedAt : Time) {s : State} (hs : s.lockSound) : (measureFrom armedAt s).lockSound := by
  simp only [measureFrom]
  split
  next hm =>
    have hl : s.otg.lock ≠ .freeRun := by
      simp only [State.measures, Bool.and_eq_true, decide_eq_true_eq] at hm
      exact hm.1.2
    have hcount (d : Int) (l : Lock) (u : PacingUnit) : (countMeasurement s.prof d l u).admitted = u.admitted ∧
        (countMeasurement s.prof d l u).nextFixed = u.nextFixed := by
      cases l <;> exact ⟨rfl, rfl⟩
    exact takeReport_lockSound (lockSound_fixedFrom hs hl _ ⟨rfl, rfl, (hcount _ _ _).1, (hcount _ _ _).2, rfl⟩)
  · exact hs

theorem phaseMeasure_lockSound {s : State} (hs : s.lockSound) : (phaseMeasure s).lockSound := measureFrom_lockSound _ hs

theorem armMeasurement_lockSound {s : State} (hs : s.lockSound) : (armMeasurement s).lockSound := by
  simp only [armMeasurement]
  split
  · by_cases hl : s.otg.lock = .freeRun
    · exact lockSound_congr (s := s) (by simp [hl]) hs
    · exact lockSound_fixedFrom hs hl 0 ⟨rfl, rfl, rfl, if_neg hl, rfl⟩
  · exact hs

theorem active_of_fixed {s : State} (h : s.prof.pacing = .fixed) : s.pc.active = some s.prof := by
  cases hp : s.pc.active with
  | none => simp [State.prof, hp, Profile.absent] at h
  | some p => simp [State.prof, hp]

theorem lockTest_lockSound {s : State} (hs : s.lockSound) : (lockTest s).lockSound := by
  simp only [lockTest]
  split
  next h =>
    obtain ⟨-, hfixed, hlock, hadmit, hhealthy⟩ := h
    exact setLock_lockSound (by decide) hs ⟨s.prof, active_of_fixed hfixed, hfixed, hlock, hadmit, hhealthy⟩
  · exact hs

theorem lockAndArm_lockSound (expired : Bool) {s : State} (hs : s.lockSound) : (lockAndArm expired s).lockSound := by
  have hloaded : (loadFixed expired s).lockSound := by
    simp only [loadFixed]
    split <;> exact hs
  exact armMeasurement_lockSound (lockTest_lockSound hloaded)

theorem takeStart_lockSound (expired event first : Bool) (armedAt : Time) {s : State} (hs : s.lockSound) :
    (takeStart expired event first armedAt s).lockSound := by
  simp only [takeStart]
  split
  · exact lockAndArm_lockSound expired hs
  · exact lockAndArm_lockSound expired (measureFrom_lockSound armedAt hs)
  · exact phaseMeasure_lockSound (lockAndArm_lockSound expired hs)

theorem mergeAndChoose_lock (s : State) : (mergeAndChoose s).otg = s.otg ∧ (mergeAndChoose s).pu.nextFixed = s.pu.nextFixed := by
  have hpublish (changed : Bool) (u : State) : (publishMargin changed u).otg = u.otg ∧
      (publishMargin changed u).pu.nextFixed = u.pu.nextFixed := by
    simp only [publishMargin, recomputeQ]
    repeat' split
    · exact ⟨rfl, rfl⟩
    · exact judgeAll_inv (fun v => v.otg = u.otg ∧ v.pu.nextFixed = u.pu.nextFixed) checkInScan
        (fun v h => by simpa [checkInScan] using h) (fun _ _ h => h) _ ⟨rfl, rfl⟩
    · exact ⟨rfl, rfl⟩
  simp only [mergeAndChoose]
  repeat' split
  · simp
  · simp [hpublish, mergeTune]
  · simp [hpublish, mergeTune]
  · simp [hpublish, mergeTune]

theorem refreshBy_lockSound (expired planned : Bool) {s : State} (hs : s.lockSound) :
    (refreshBy expired planned s).lockSound := by
  have hchosen : (mergeAndChoose (beginScan s)).lockSound := by
    refine lockSound_merged (s := s) (PcMerged.trans (.of_eq (by simp)) (mergeAndChoose_pc _)) ?_ hs
    simp [(mergeAndChoose_lock _).1, (mergeAndChoose_lock _).2]
  have hloaded : (loadRepeat planned (mergeAndChoose (beginScan s))).lockSound := lockSound_congr (by simp) hchosen
  exact lockSound_congr (t := refreshBy expired planned s) (by simp [refreshBy]) (takeStart_lockSound expired
    (s.marksSince (loadRepeat planned (mergeAndChoose (beginScan s)))) (Config.eventFirst (s.choices + 1)) s.otg.tLast hloaded)

theorem eligibilityEvent_lockSound {s : State} (hs : s.lockSound) : (eligibilityEvent s).lockSound := by
  simp only [eligibilityEvent]
  repeat' split
  · exact lockSound_congr (by simp [eligibleInScan, checkInScan]) (phaseMeasure_lockSound hs)
  · exact refreshBy_lockSound false false (phaseMeasure_lockSound hs)
  all_goals exact phaseMeasure_lockSound hs

theorem recomputeQ_lockSound {s : State} (hs : s.lockSound) : (recomputeQ eligibilityEvent s).lockSound := by
  simp only [recomputeQ]
  split
  · exact hs
  · exact judgeAll_inv State.lockSound eligibilityEvent (fun _ => eligibilityEvent_lockSound) (fun _ _ h => h) _ hs

/-- The generator takes the admission report (R65, R83). -/
theorem intervalsChanged_lockSound (w : List Nat) {s : State} (hs : s.lockSound) : (intervalsChanged w s).lockSound := by
  let planned : State := takePlan (setPlan (s.setPu { s.pu with intervals := w, ti := averageInterval w }))
  have hchanged : intervalsChanged w s = takeAdmission (setAdmission planned) := rfl
  have hfields : (setAdmission planned).pc.active = s.pc.active ∧ (setAdmission planned).otg.lock = s.otg.lock ∧
      (setAdmission planned).pu.nextFixed = s.pu.nextFixed ∧ (setAdmission planned).sp.state = s.sp.state := by
    simp [planned, setAdmission, setPlan]
  obtain ⟨hpc, hlock, hnextEq, hstate⟩ := hfields
  obtain ⟨hfixed, hback, hnext⟩ := hs
  have hnext' : (setAdmission planned).nextHolds := by
    rw [State.nextHolds, hpc, hlock, hnextEq]
    exact hnext
  rw [hchanged, takeAdmission]
  split
  next hadmit =>
    refine ⟨fixedSound_congr hpc hfixed, fun hl => ?_, hnext'⟩
    obtain ⟨p, hp, hpacing, hplock, -, hhealthy⟩ := hback (hlock ▸ hl)
    simp only [Bool.and_eq_true] at hadmit
    exact ⟨p, hpc.trans hp, hpacing, hplock, hadmit.1, by rw [hstate, hhealthy]⟩
  · exact dropLock_lockSound (fixedSound_congr hpc hfixed) hnext'

theorem fillsChanged_lockSound (w : List Nat) {s : State} (hs : s.lockSound) :
    (fillsChanged eligibilityEvent w s).lockSound := recomputeQ_lockSound (s := s.setPu _) hs

theorem clearWindows_lockSound {s : State} (hs : s.lockSound) : (clearWindows s).lockSound :=
  fillsChanged_lockSound [] (intervalsChanged_lockSound [] hs)

/-- The source moves: outside CLEAN and WATCH the lock drops (R36, R83). -/
theorem moveSource_lockSound (st : SourceState) (score : Nat) {s : State} (hs : s.lockSound) :
    (moveSource st score s).lockSound := by
  obtain ⟨hfixed, hback, hnext⟩ := id hs
  simp only [moveSource]
  split
  next hsame => exact lockSound_congr (s := s) ⟨rfl, rfl, rfl, rfl, hsame.symm⟩ hs
  · split
    next hhealthy =>
      refine lockSound_congr (s := s.setSp { s.sp with state := st, score := score }) (by simp) ⟨hfixed, fun hl => ?_, hnext⟩
      obtain ⟨p, hp, hpacing, hlock, hadmit, -⟩ := hback hl
      exact ⟨p, hp, hpacing, hlock, hadmit, hhealthy⟩
    · refine dropLock_lockSound (fixedSound_congr (s := s) (by simp) hfixed) ?_
      simpa [State.nextHolds] using hnext

theorem enterDetached_lockSound (score : Nat) {s : State} (hs : s.lockSound) : (enterDetached score s).lockSound := by
  simp only [enterDetached]
  exact clearWindows_lockSound (moveSource_lockSound .detached score hs)

theorem changeScore_lockSound (f : Nat → Nat) {s : State} (hs : s.lockSound) : (changeScore f s).lockSound := by
  simp only [changeScore]
  repeat' split
  · exact enterDetached_lockSound _ hs
  · exact moveSource_lockSound _ _ hs
  · exact hs

theorem strayEvent_lockSound {s : State} (hs : s.lockSound) : (strayEvent s).lockSound := by
  simp only [strayEvent]
  split
  case h_1 | h_2 | h_3 => exact changeScore_lockSound _ hs
  all_goals exact hs

theorem foreignFrame_lockSound {s : State} (hs : s.lockSound) : (foreignFrame s).lockSound := by
  have haborted : (abortFilling false (reportFate s.sp.frameCounter .foreign s)).lockSound :=
    lockSound_congr (s := s) (by simp) hs
  exact lockSound_congr (by simp [foreignFrame]) (clearWindows_lockSound haborted)

theorem stripFilled_lockSound (bad : Bool) {s : State} (hs : s.lockSound) : (stripFilled bad s).lockSound := by
  have hcount : (countStrip bad s).lockSound := lockSound_congr (by simp) hs
  simp only [stripFilled]
  repeat' split
  · exact eligibilityEvent_lockSound hcount
  all_goals exact hcount

theorem goodLine_lockSound (e : Bool) (pixels : List Pixel) {s : State} (hs : s.lockSound) :
    (goodLine e pixels s).lockSound := by
  have hstored : (storeLine s.sp.lineCount pixels s).lockSound := lockSound_congr (by simp) hs
  simp only [goodLine]
  generalize storeLine s.sp.lineCount pixels s = stored at hstored ⊢
  split
  · exact stripFilled_lockSound _ (s := countLine _) hstored
  · exact hstored

theorem lineEvent_lockSound (e : Bool) (pixels : List Pixel) {s : State} (hs : s.lockSound) :
    (lineEvent e pixels s).lockSound := by
  have hforeign {u : State} (hu : u.lockSound) : (foreignAtLine u).lockSound := foreignFrame_lockSound (s := u.setSp _) hu
  have hcount {u : State} (hu : u.lockSound) : (countLine u).lockSound := hu
  simp only [lineEvent]
  repeat' split
  · exact hs
  · exact strayEvent_lockSound hs
  · simp only [takenLine]
    repeat' split
    · exact hforeign (hcount hs)
    · exact hforeign (hcount hs)
    · exact goodLine_lockSound e pixels hs
  all_goals exact hs

theorem completeFrame_lockSound {s : State} (hs : s.lockSound) : (completeFrame s).lockSound := by
  have hdone (k : Slot) : (completeSlot k s).lockSound := by
    simp only [completeSlot]
    repeat' split
    case isFalse.isFalse.isFalse => exact eligibilityEvent_lockSound (lockSound_congr (s := s) (by simp) hs)
    all_goals exact lockSound_congr (s := s) (by simp) hs
  simp only [completeFrame]
  split
  next k _ =>
    have hsampled : (fillSample (s.slot k).firstLine (completeSlot k s)).lockSound := by
      simp only [fillSample]
      split
      · exact fillsChanged_lockSound _ (s := (completeSlot k s).setPu _) (hdone k)
      · exact hdone k
    refine changeScore_lockSound _ ?_
    split
    · exact lockSound_congr (by simp) hsampled
    · exact lockSound_congr (by simp) (hdone k)
  · exact hs

theorem reattach_lockSound {s : State} (hs : s.lockSound) : (reattach s).lockSound :=
  lockSound_congr (by simp [reattach]) (moveSource_lockSound .guarded 96 hs)

theorem frameEndEvent_lockSound {s : State} (hs : s.lockSound) : (frameEndEvent s).lockSound := by
  simp only [frameEndEvent]
  repeat' split
  · exact hs
  · exact strayEvent_lockSound hs
  · exact completeFrame_lockSound hs
  · exact lockSound_congr (by simp [foreignAtEnd]) (foreignFrame_lockSound hs)
  · exact lockSound_congr (s := s) (by simp) hs
  · exact hs
  · simp only [observedEnd]
    repeat' split
    · exact reattach_lockSound (s := endFrame s) hs
    all_goals exact hs

theorem signalLostEvent_lockSound {s : State} (hs : s.lockSound) : (signalLostEvent s).lockSound := by
  have hclose : (endFrame (closeByLoss (s.setSp { s.sp with signal := false }))).lockSound :=
    lockSound_congr (s := s) (by simp) hs
  simp only [signalLostEvent]
  split
  case h_1 | h_2 | h_3 => exact enterDetached_lockSound 128 hclose
  all_goals exact hs

theorem closeByStart_lockSound {s : State} (hs : s.lockSound) : (closeByStart s).lockSound := by
  simp only [closeByStart]
  split
  case h_5 => exact changeScore_lockSound _ (lockSound_congr (s := s) (by simp) hs)
  case h_4 => exact lockSound_congr (s := s) (by simp) hs
  all_goals exact hs

theorem takeFrame_lockSound (k : Slot) {s : State} (hs : s.lockSound) : (takeFrame k s).lockSound := by
  have hsample {u : State} (hu : u.lockSound) : (intervalSample u).lockSound := by
    simp only [intervalSample]
    repeat' split
    · exact hu
    · exact intervalsChanged_lockSound _ (s := u.setPu _) hu
    · exact intervalsChanged_lockSound _ hu
    · exact hu
  exact hsample (u := createRecord _ k s.now (takeSlot k _ s.now (s.setSp _))) hs

theorem repeatExpiryOpen_lockSound {s : State} (hs : s.lockSound) : (repeatExpiryOpen s).lockSound := by
  simp only [repeatExpiryOpen]
  repeat' split
  · exact lockSound_congr (by simp) hs
  all_goals exact refreshBy_lockSound _ _ hs

theorem enterBlankOpen_lockSound {s : State} (hs : s.lockSound) : (enterBlankOpen s).lockSound := by
  simp only [enterBlankOpen]
  repeat' split
  · exact refreshBy_lockSound false false (s := s.setOtg _) hs
  · exact repeatExpiryOpen_lockSound (s := (s.setOtg { s.otg with timing := .blankOpen }).setOtg _) hs
  · exact hs

theorem tminExpired_lockSound {s : State} (hs : s.lockSound) : (tminExpired s).lockSound := by
  simp only [tminExpired]
  split
  next => exact hs
  next => exact enterBlankOpen_lockSound (s := s.setOtg _) hs
  all_goals exact hs

theorem repeatExpired_lockSound {s : State} (hs : s.lockSound) : (repeatExpired s).lockSound := by
  simp only [repeatExpired]
  split
  next => exact repeatExpiryOpen_lockSound (s := s.setOtg _) hs
  all_goals exact hs

theorem fixedExpired_lockSound {s : State} (hs : s.lockSound) : (fixedExpired s).lockSound := by
  simp only [fixedExpired]
  split
  next => exact refreshBy_lockSound true false (s := s.setOtg _) hs
  all_goals exact hs

theorem leaveScan_lockSound {s : State} (hs : s.lockSound) : (leaveScan s).lockSound := by
  simp only [leaveScan]
  repeat' split
  · exact enterBlankOpen_lockSound hs
  · exact hs
  · exact refreshBy_lockSound true false (s := (s.setOtg { s.otg with timing := .blank }).setOtg _) hs
  · exact hs

/-- The restart of the cycle drops the lock, whatever held it (R85, R88). -/
theorem restartCycle_lockSound {s : State} (hfixed : s.fixedSound) (hnext : s.nextHolds) : (restartCycle s).lockSound := by
  simp only [restartCycle]
  refine dropLock_lockSound hfixed ?_
  split <;> exact hnext

/-- The next fixed interval set to Tf, or to 0 under ADAPTIVE (R66, R67). -/
theorem nextHolds_of_set {s : State} (hfixed : s.fixedSound)
    (h : s.pu.nextFixed = if s.prof.pacing = .fixed then s.prof.fixedInterval else 0) : s.nextHolds := by
  intro p hp
  rw [h, prof_of_active hp]
  refine ⟨fun hf => ?_, fun ha => if_neg (by simp [ha])⟩
  rw [if_pos hf]
  exact ⟨(hfixed p hp hf).1, (hfixed p hp hf).2, fun _ => rfl⟩

theorem fixedSound_merged {s t : State} (h : PcMerged s t) (hs : s.fixedSound) : t.fixedSound := by
  rcases h with h | h
  · exact fixedSound_congr (by rw [h]) hs
  · have hactive : t.pc.active = s.pc.active.map (·.merge s.pc.tune) := congrArg ProfileCtl.active h
    intro p hp
    obtain ⟨q, hq, rfl⟩ := Option.map_eq_some_iff.mp (hactive.symm.trans hp)
    exact hs q hq

theorem applyFrames_merged (old : Option Profile) (geo : Bool) (s : State) : PcMerged s (applyFrames old geo s) := by
  cases old with
  | none =>
    simp only [applyFrames, armSource]
    split
    · exact .of_eq (by simp)
    · exact PcMerged.trans (.of_eq (by simp)) (enterDetached_cycled 128 _).pc
  | some o =>
    simp only [applyFrames]
    split
    · exact .of_eq (by simp)
    · exact .of_eq rfl

/-- Without four samples the admission fails and the lock drops (R53, R83). -/
theorem clearIntervals_lock (s : State) : (clearIntervals s).otg.lock = .freeRun := by
  have hdrop (u : State) : (dropLock u).otg.lock = .freeRun := by
    by_cases h : u.otg.lock = .freeRun
    · rw [dropLock_of_freeRun h, h]
    · simp [dropLock, setLock, h]
  have hnone : (setAdmission (takePlan (setPlan (s.setPu { s.pu with intervals := [], ti := averageInterval [] })))).pu.ti =
      none := by
    simp [setAdmission, setPlan, averageInterval]
  simp only [clearIntervals, intervalsChanged, takeAdmission, hnone, Option.isSome_none, Bool.and_false,
    Bool.false_eq_true, if_false]
  exact hdrop _

/-- A source that arms over an empty pool has the lock in FREE_RUN (R43, R83). -/
theorem armSource_lock {s : State} (hroles : s.pool.rolesHold) (h : s.otg.lock = .freeRun) :
    (armSource s).otg.lock = .freeRun := by
  simp only [armSource]
  split
  · have hclean : (moveSource .clean 0 (setCond s.sp.cond.passedOver s)).otg.lock = s.otg.lock := by
      simp only [moveSource]
      split
      · rfl
      · simp [SourceState.healthy, setCond]
    simpa [breakRun] using hclean.trans h
  · have hcleared (u : State) (hu : u.pool.rolesHold) : (clearWindows u).otg.lock = .freeRun := by
      rw [clearWindows_eq hu, State.qUnknown]
      split
      · exact clearIntervals_lock u
      · exact clearIntervals_lock u
    simp only [enterDetached]
    exact hcleared _ (by simpa using hroles)

theorem startOutput_lockSound {s : State} (hs : s.lockSound) : (startOutput s).lockSound := by
  have hrefresh := refreshBy_lockSound false false (s := s.setOtg { s.otg with mode := some s.prof.pacing }) hs
  simp only [startOutput]
  split <;> exact hrefresh

/-- An application, to a first profile with the lock in FREE_RUN as it is in IDLE (R85, R86). -/
theorem applyProfile_lockSound {s : State} (hs : s.lockSound) (hproposal : ∀ p, s.pc.proposal = some p →
      p.pacing = .fixed → p.winMin ≤ p.fixedInterval ∧ p.fixedInterval ≤ p.winMax)
    (hidle : s.otg.timing = .idle → s.pc.active = none) : (applyProfile s).lockSound := by
  cases hp : s.pc.proposal with
  | none =>
    simp only [applyProfile, hp]
    exact hs
  | some p =>
    let begun : State := s.setPc { s.pc with active := some p, proposal := none, propState := .none }
    let framed : State := applyFrames s.pc.active (geometryDiffers s.pc.active p) begun
    let paced : State := applyPacing (geometryDiffers s.pc.active p) (windowDiffers s.pc.active p) framed
    have hframed (hnone : s.pc.active = none) : framed.otg.lock = .freeRun := by
      have hfree : s.otg.lock = .freeRun := by
        by_contra hl
        obtain ⟨q, hq, -⟩ := hs.2.1 hl
        exact absurd (hnone.symm.trans hq) nofun
      have hflush : (flushPool begun).pool.rolesHold := by
        rw [flushPool_pool]
        exact powerOn_rolesHold _
      have harmed : framed = armSource (flushPool begun) := by
        simp only [framed, hnone, applyFrames]
      rw [harmed]
      exact armSource_lock hflush (by simpa [begun] using hfree)
    have hbegun : begun.fixedSound := fun q hq => by
      obtain rfl := Option.some.inj hq
      exact hproposal p hp
    have hpc : PcMerged begun paced := (applyFrames_merged s.pc.active (geometryDiffers s.pc.active p) begun).trans (.of_eq (by simp [paced, framed]))
    have hfixed : paced.fixedSound := fixedSound_merged hpc hbegun
    have hnext : paced.nextHolds := by
      refine nextHolds_of_set hfixed ?_
      simp only [paced]
      rw [applyPacing_eq]
      rfl
    have happly : applyProfile s = completeDeferred .profileApply .ok
        ((if s.otg.timing = .idle then startOutput paced else restartCycle paced).setOtg
          { (if s.otg.timing = .idle then startOutput paced else restartCycle paced).otg with pendingApp := false }) := by
      simp only [applyProfile, hp]
      rfl
    rw [happly]
    refine lockSound_congr (s := if s.otg.timing = .idle then startOutput paced else restartCycle paced) (by simp) ?_
    split
    next hi =>
      refine startOutput_lockSound ⟨hfixed, fun hl => absurd ?_ hl, hnext⟩
      simpa [paced] using hframed (hidle hi)
    · exact restartCycle_lockSound hfixed hnext

/-- The reset point (R67, R88). -/
theorem resetPoint_lockSound {s : State} (hs : s.fixedSound) : (resetPoint s).lockSound := by
  let sourced : State := resetSource (resetPool s)
  let merged : State := (mergeTune ((resetPacing sourced).setPs { (resetPacing sourced).ps with
    blankActive := false, q := none })).setHr []
  let published : State := recomputeQ (fun s => s) merged
  have hsourced : sourced.fixedSound := by
    refine fixedSound_merged ?_ hs
    simp only [sourced, resetSource]
    repeat' split
    · exact .of_eq (by simp)
    · exact .of_eq (by simp)
    · exact PcMerged.trans (.of_eq (by simp)) (enterDetached_cycled 128 _).pc
  have hmerged : merged.fixedSound := fixedSound_merged (s := sourced) (.inr rfl) hsourced
  have hpublished : published.pc = merged.pc ∧ published.pu.nextFixed = merged.pu.nextFixed := by
    simp only [published, recomputeQ]
    split
    · exact ⟨rfl, rfl⟩
    · exact judgeAll_inv (fun v => v.pc = merged.pc ∧ v.pu.nextFixed = merged.pu.nextFixed) (fun s => s) (fun _ h => h)
        (fun _ _ h => h) _ ⟨rfl, rfl⟩
  have hfixed : published.fixedSound := fixedSound_congr (by rw [hpublished.1]) hmerged
  have hnext : published.nextHolds := by
    refine nextHolds_of_set hfixed ?_
    have hprof : published.prof = merged.prof := by rw [State.prof, State.prof, hpublished.1]
    rw [hpublished.2, hprof]
    simp only [State.prof, merged, mergeTune, State.setHr_fields, State.setPc_fields, State.setPs_fields]
    have hfrom : (resetPacing sourced).pc.active = sourced.pc.active := rfl
    have hset : (resetPacing sourced).pu.nextFixed =
        if sourced.prof.pacing = .fixed then sourced.prof.fixedInterval else 0 := rfl
    rw [hset, hfrom, State.prof]
    cases sourced.pc.active <;> rfl
  have hend : resetPoint s = completeDeferred .pipelineReset .ok
      ((restartCycle published).setOtg { (restartCycle published).otg with pendingReset := false }) := rfl
  rw [hend]
  exact lockSound_congr (by simp) (restartCycle_lockSound hfixed hnext)

/-- What the lock needs of the controller. -/
theorem lockSound_of_holds {s : State} (hp : s.profileHolds) (hl : s.lockHolds) : s.lockSound := by
  obtain ⟨-, hmeets, -⟩ := hp
  refine ⟨fun p hactive => ?_, hl⟩
  obtain ⟨l, -, -, -, -, -, -, hfixed, -⟩ := hmeets p hactive
  exact hfixed

theorem applyProfile_lockHolds {s u : State} (hp : s.profileHolds)
    (hproposal : u.pc.proposal = s.pc.proposal) (hu : u.lockSound)
    (hidle : u.otg.timing = .idle → u.pc.active = none) : (applyProfile u).lockHolds := by
  obtain ⟨-, -, hmeets, -⟩ := hp
  refine (applyProfile_lockSound hu (fun p hq => ?_) hidle).2
  obtain ⟨l, -, -, -, -, -, -, hfixed, -⟩ := hmeets p (hproposal ▸ hq)
  exact hfixed

theorem endScan_lockHolds {s : State} (hp : s.profileHolds) (hs : s.lockSound) (hscan : s.otg.timing = .scan) :
    (endScan s).lockHolds := by
  have hended : (scanEndPool (closeWatch (s.setOtg { s.otg with nextStrip := s.prof.strips }))).lockSound ∧
      (scanEndPool (closeWatch (s.setOtg { s.otg with nextStrip := s.prof.strips }))).pc = s.pc ∧
      (scanEndPool (closeWatch (s.setOtg { s.otg with nextStrip := s.prof.strips }))).otg.timing = .scan :=
    ⟨lockSound_congr (s := s) (by simp) hs, by simp, by simpa using hscan⟩
  simp only [endScan]
  generalize scanEndPool (closeWatch (s.setOtg { s.otg with nextStrip := s.prof.strips })) = ended at hended ⊢
  obtain ⟨hsound, hpc, htiming⟩ := hended
  split
  · have hpoint : (if ended.otg.pendingReset then resetPoint ended else ended).lockSound ∧
        (if ended.otg.pendingReset then resetPoint ended else ended).pc.proposal = s.pc.proposal ∧
        (if ended.otg.pendingReset then resetPoint ended else ended).otg.timing ≠ .idle := by
      split
      · refine ⟨resetPoint_lockSound hsound.1, ?_, ?_⟩
        · have hmerge : PcMerged ended (resetPoint ended) := by
            refine PcMerged.trans (t := resetSource (resetPool ended)) ?_ (.inr (by simp [resetPoint, mergeTune]))
            simp only [resetSource]
            repeat' split
            · exact .of_eq (by simp)
            · exact .of_eq (by simp)
            · exact PcMerged.trans (.of_eq (by simp)) (enterDetached_cycled 128 _).pc
          rw [← hpc]
          rcases hmerge with h | h
          · rw [h]
          · rw [h]
            rfl
        · simp only [resetPoint, completeDeferred_frame, State.setOtg_fields]
          exact (restartCycle_timing _).1
      · exact ⟨hsound, by rw [hpc], by simp [htiming]⟩
    generalize (if ended.otg.pendingReset then resetPoint ended else ended) = point at hpoint ⊢
    obtain ⟨hpointSound, hproposal, hidle⟩ := hpoint
    split
    · exact applyProfile_lockHolds hp hproposal hpointSound fun h => absurd h hidle
    · exact hpointSound.2
  · exact (leaveScan_lockSound hsound).2

theorem confirmProfile_lockHolds (r : Request) {s : State} (hp : s.profileHolds) (hl : s.lockHolds) :
    (confirmProfile r s).lockHolds := by
  have hs := lockSound_of_holds hp hl
  obtain ⟨-, -, -, -, -, -, hidle, -⟩ := id hp
  simp only [confirmProfile]
  repeat' split
  · exact (lockSound_congr (s := s) (by simp) hs).2
  · refine applyProfile_lockHolds hp ?_ (lockSound_congr (s := s) (by simp) hs) ?_
    · simp
    · simpa using hidle.mpr
  · exact (lockSound_congr (s := s) (by simp) hs).2

theorem pipelineReset_lockHolds (r : Request) {s : State} (hs : s.lockSound) : (pipelineReset r s).lockHolds := by
  simp only [pipelineReset]
  repeat' split
  · exact (lockSound_congr (s := s) (by simp) hs).2
  · exact (lockSound_congr (s := s) (by simp) hs).2
  · exact (lockSound_congr (s := s) (by simp) hs).2
  · exact (resetPoint_lockSound (fixedSound_congr (s := s) (by simp) hs.1)).2

theorem reattachSource_lockSound (r : Request) {s : State} (hs : s.lockSound) : (reattachSource r s).lockSound := by
  simp only [reattachSource]
  split
  · exact lockSound_congr (by simp) (reattach_lockSound hs)
  · exact lockSound_congr (s := s) (by simp) hs

@[simp] theorem sequenceCheck_lock {f : Request → State → State} {r : Request} {s : State}
    (hf : (f r s).otg.lock = s.otg.lock) : (sequenceCheck f r s).otg.lock = s.otg.lock :=
  sequenceCheck_keeps (fun s => s.otg.lock) (by simp) (by simp) hf

theorem plainEffect_lockHolds {c : Instr} {f : State → State} (hf : plainEffect c = some f) {s : State} (hs : s.lockSound) :
    (f s).lockHolds := by
  cases c
  all_goals cases hf
  case powerOnReset => exact ⟨fun h => absurd rfl h, nofun⟩
  case resetNRelease | signalRestored => exact hs.2
  all_goals exact (lockSound_congr (s := s) (by simp) hs).2

theorem settledEffect_lockHolds {c : Instr} {f : State → State} (hf : settledEffect c = some f) {s : State}
    (hdue : effectDue c s) (hp : s.profileHolds) (hl : s.lockHolds) : (f s).lockHolds := by
  have hs := lockSound_of_holds hp hl
  cases c
  all_goals cases hf
  case line e p => exact (lineEvent_lockSound e p hs).2
  case frameEnd => exact (frameEndEvent_lockSound hs).2
  case signalLost => exact (signalLostEvent_lockSound hs).2
  case tminExpiry => exact (tminExpired_lockSound hs).2
  case repeatTimerExpiry => exact (repeatExpired_lockSound hs).2
  case fixedTimerExpiry => exact (fixedExpired_lockSound hs).2
  case scanEnd =>
    have hdue : scanEndDue s = true := hdue
    refine endScan_lockHolds hp hs ?_
    simp only [scanEndDue, Bool.and_eq_true, decide_eq_true_eq] at hdue
    exact hdue.1.1
  all_goals exact (lockSound_congr (s := s) (by simp) hs).2

theorem requestRule_lockHolds {c : Instr} {f : Request → State → State} (hf : requestRule c = some f) (r : Request)
    {s : State} (hp : s.profileHolds) (hl : s.lockHolds) : (f r s).lockHolds := by
  have hs := lockSound_of_holds hp hl
  cases c
  all_goals cases hf
  case confirmProfile => exact confirmProfile_lockHolds r hp hl
  case pipelineReset => exact pipelineReset_lockHolds r hs
  case reattachSource => exact (reattachSource_lockSound r hs).2
  all_goals exact (lockSound_congr (s := s) (by simp) hs).2

theorem settle_lockHolds {s : State} (h : s.lockHolds) : (settle s).lockHolds := by
  simpa [State.lockHolds] using h

/-- Every outcome of a command keeps the lock's conditions. -/
theorem outcome_lockHolds {c : Instr} {s t : State} (hout : Outcome c s t) (hp : s.profileHolds) (hl : s.lockHolds) :
    t.lockHolds := by
  have hs := lockSound_of_holds hp hl
  cases hout with
  | none => exact hl
  | plain _ hf => exact plainEffect_lockHolds hf hs
  | settled _ hf hdue => exact settle_lockHolds (settledEffect_lockHolds hf hdue hp hl)
  | @request _ _ r _ hf _ => exact settle_lockHolds (requestRule_lockHolds hf r (s := takeRequest s) hp hl)
  | startUnarmed => exact hl
  | startDetached =>
    split
    · exact hl
    · exact hl
  | startObserved => exact settle_lockHolds (closeByStart_lockSound hs).2
  | startTaken _ k => exact settle_lockHolds (takeFrame_lockSound k (closeByStart_lockSound hs)).2

theorem idleStep_lockSound {s : State} (hs : s.lockSound) : (idleStep s).lockSound := by
  simp only [idleStep]
  split
  · exact lockSound_congr (s := s) (by simp) hs
  all_goals exact hs

/-- Settles O12: the pacing results by every effect, and the lock with the controller lawful. -/
theorem pacingAndLockHold : Obligations.PacingAndLockHold := by
  refine fun s t hstep => ⟨step_kept pacingHolds_keeps hstep, fun hp hl => ?_⟩
  obtain rfl | ⟨c, rest, _, hout⟩ := step_outcome hstep
  · exact (idleStep_lockSound (lockSound_of_holds hp hl)).2
  · exact outcome_lockHolds hout hp hl

end Sys2Proof.Machine
end

section
/-! Notices under way, and the drop of the lock, followed through an event to its end (R83, R84, R168, R169). -/

namespace Sys2Proof.Machine

/-- Nothing has happened to the notice of one kind, to its enable flag and to the transmitter. -/
structure NoticeKept (i : Fin 5) (u v : State) : Prop where
  enables : v.ml.enables = u.ml.enables
  tx : v.ml.tx = u.ml.tx
  notice : v.ml.notices[i] = u.ml.notices[i]
  timeBase : v.timeBase = u.timeBase

theorem NoticeKept.of_ml {i : Fin 5} {u v : State} (h : v.ml = u.ml) (ht : v.timeBase = u.timeBase) : NoticeKept i u v :=
  ⟨by rw [h], by rw [h], by rw [h], ht⟩

theorem NoticeKept.refl (i : Fin 5) (u : State) : NoticeKept i u u := ⟨rfl, rfl, rfl, rfl⟩

theorem NoticeKept.trans {i : Fin 5} {u v w : State} (h : NoticeKept i u v) (g : NoticeKept i v w) : NoticeKept i u w :=
  ⟨g.enables.trans h.enables, g.tx.trans h.tx, g.notice.trans h.notice, g.timeBase.trans h.timeBase⟩

/-- A raise touches the notice of its own kind alone (R169). -/
theorem NoticeKept.raise {i : Fin 5} {n : Notice} (h : n.kind ≠ i) (u : State) : NoticeKept i u (raise n u) := by
  refine ⟨by simp, by simp, ?_, by simp⟩
  by_cases he : u.ml.enables[n.kind] = true
  · rw [raise_of_enabled he]
    exact Vector.getElem_set_ne n.kind.isLt i.isLt fun e => h (Fin.ext e)
  · rw [raise_of_disabled (by simpa using he)]

theorem NoticeKept.raise_of_ml {i : Fin 5} {n : Notice} (h : n.kind ≠ i) {u v : State} (hml : v.ml = u.ml)
    (ht : v.timeBase = u.timeBase) : NoticeKept i u (Machine.raise n v) := .trans (.of_ml hml ht) (.raise h v)

/-- A notice raised in a state whose copy of its kind is that of `s` (R169). -/
theorem noticed_raise {s u : State} {n : Notice} (h : NoticeKept n.kind s u) : s.noticed (raise n u) n := by
  intro he
  have henabled : u.ml.enables[n.kind] = true := by rw [h.enables]; exact he
  refine .inl ?_
  rw [raise_of_enabled henabled]
  simp only [State.setMl_fields, Fin.getElem_fin, Vector.getElem_set_self]
  rw [show u.ml.notices[n.kind.val] = s.ml.notices[n.kind.val] from h.notice]
  cases s.ml.notices[n.kind.val] <;> rfl

theorem noticed_of_kept {s u v : State} {n : Notice} (h : s.noticed u n) (k : NoticeKept n.kind u v) : s.noticed v n := by
  intro he
  have := h he
  rw [k.notice, k.tx]
  exact this

theorem noticed_from {s u v : State} {n : Notice} (k : NoticeKept n.kind s u) (h : u.noticed v n) : s.noticed v n := by
  intro he
  have := h (by rw [k.enables]; exact he)
  rw [k.notice, k.timeBase] at this
  exact this

@[simp] theorem drainDeferred_notices (s : State) : (drainDeferred s).ml.notices = s.ml.notices ∧
    (drainDeferred s).ml.tx = s.ml.tx := by
  simp [drainDeferred]

/-- A raised notice goes under transmission at the end of its event or stays pending (R168). -/
theorem noticed_settle {s u : State} {n : Notice} (h : s.noticed u n) (ht : u.timeBase = s.timeBase) :
    s.noticed (settle u) n := by
  intro he
  have hu := h he
  have hd : (drainDeferred u).timeBase = s.timeBase := by simp [ht]
  rw [← (drainDeferred_notices u).1, ← (drainDeferred_notices u).2] at hu
  unfold settle
  generalize drainDeferred u = d at hu hd
  by_cases hidle : d.ml.tx = .idle
  · rw [hidle] at hu
    have hpending := hu.resolve_right (by simp)
    by_cases hreplies : d.ml.replies = []
    · cases hn : d.ml.firstNotice with
      | none =>
        rw [chooseMessage_of_nothing hidle hreplies hn]
        exact .inl hpending
      | some x =>
        obtain ⟨i, c⟩ := x
        rw [chooseMessage_of_notice hidle hreplies hn]
        by_cases hi : i = n.kind
        · subst hi
          have hc : d.ml.notices[n.kind] = some c := by
            obtain ⟨j, -, hj⟩ := List.exists_of_findSome?_eq_some hn
            by_cases hen : d.ml.enables[j] = true
            · rw [if_pos hen] at hj
              obtain ⟨c', hc', heq⟩ := Option.map_eq_some_iff.mp hj
              cases heq
              exact hc'
            · rw [if_neg hen] at hj
              cases hj
          rw [hc, Option.some.injEq] at hpending
          exact .inr (by rw [hpending, ← hd]; rfl)
        · refine .inl (Eq.trans ?_ hpending)
          exact Vector.getElem_set_ne i.isLt n.kind.isLt fun e => hi (Fin.ext e)
    · rw [chooseMessage_of_reply hidle hreplies]
      exact .inl hpending
  · rw [chooseMessage_of_busy hidle]
    exact hu

/-- `t` is `u` but for the lock, its counts, the next fixed interval and the message link. -/
def LockOnly (u t : State) : Prop := ∃ l g b n m, t = { u with
  otg := { u.otg with lock := l }
  pu := { u.pu with good := g, bad := b, nextFixed := n }
  ml := m }

theorem LockOnly.refl (u : State) : LockOnly u u := ⟨_, _, _, _, _, rfl⟩

theorem LockOnly.trans {u v w : State} (h : LockOnly u v) (g : LockOnly v w) : LockOnly u w := by
  obtain ⟨_, _, _, _, _, rfl⟩ := h
  obtain ⟨_, _, _, _, _, rfl⟩ := g
  exact ⟨_, _, _, _, _, rfl⟩

theorem LockOnly.of_ml {u t : State} (h : t = u.setMl t.ml) : LockOnly u t := ⟨_, _, _, _, t.ml, h⟩

theorem LockOnly.raise (n : Notice) (u : State) : LockOnly u (raise n u) := .of_ml (raise_eq_setMl n u)

theorem settle_eq_setMl (u : State) : settle u = u.setMl (settle u).ml := by
  apply eq_setMl_of_fields
  simp

theorem LockOnly.settle (u : State) : LockOnly u (settle u) := .of_ml (settle_eq_setMl u)

/-- The lock, the measurement counts and the next fixed interval are as they were, and so is what LOCK_STATE is raised on. -/
structure LockSame (s u : State) : Prop where
  lock : u.otg.lock = s.otg.lock
  good : u.pu.good = s.pu.good
  bad : u.pu.bad = s.pu.bad
  nextFixed : u.pu.nextFixed = s.pu.nextFixed
  notice : NoticeKept 1 s u

theorem LockSame.refl (s : State) : LockSame s s := ⟨rfl, rfl, rfl, rfl, .refl _ _⟩

theorem LockSame.trans {s u v : State} (h : LockSame s u) (g : LockSame u v) : LockSame s v :=
  ⟨g.lock.trans h.lock, g.good.trans h.good, g.bad.trans h.bad, g.nextFixed.trans h.nextFixed,
    h.notice.trans g.notice⟩

theorem LockSame.raise {n : Notice} (h : n.kind ≠ 1) (u : State) : LockSame u (raise n u) :=
  ⟨by simp, by simp, by simp, by simp, .raise h u⟩

/-- From `u` to `t` the lock drops or not, and nothing else happens but the notice of it (R63, R83, R84). -/
structure Drops (d : Prop) (u t : State) : Prop where
  core : LockOnly u t
  drop : u.lockDrops t d
  quiet : ¬ d ∨ u.otg.lock = .freeRun → NoticeKept 1 u t
  others : ∀ i, i ≠ 1 → NoticeKept i u t

theorem Drops.refl {d : Prop} (h : ¬ d) (u : State) : Drops d u u :=
  ⟨.refl u, ⟨fun hd => absurd hd h, fun _ => ⟨rfl, rfl, rfl, rfl⟩⟩, fun _ => .refl _ u, fun _ _ => .refl _ u⟩

theorem dropLock_drops (u : State) : Drops True u (dropLock u) := by
  by_cases hfree : u.otg.lock = .freeRun
  · have he := dropLock_lockDrops u
    rw [dropLock_of_freeRun hfree] at he ⊢
    exact ⟨.refl u, he, fun _ => .refl _ u, fun _ _ => .refl _ u⟩
  · have heq : dropLock u = raise (.lockState .freeRun) { u with
        otg := { u.otg with lock := .freeRun }
        pu := { u.pu with
          good := 0, bad := 0
          nextFixed := if Lock.freeRun = .freeRun ∧ u.prof.pacing = .fixed then u.prof.fixedInterval else u.pu.nextFixed } } :=
      if_neg hfree
    refine ⟨?_, dropLock_lockDrops u, fun h => absurd (h.resolve_left (by simp)) hfree, fun i hi => ?_⟩
    · rw [heq]
      exact LockOnly.trans ⟨_, _, _, _, _, rfl⟩ (.raise _ _)
    · rw [heq]
      exact .raise_of_ml (n := .lockState .freeRun) (Ne.symm hi) rfl rfl

theorem Drops.congr {d d' : Prop} {u t : State} (h : Drops d u t) (hd : d ↔ d') : Drops d' u t := by
  have : d = d' := propext hd
  exact this ▸ h

/-- Either the lock drops now or nothing happens. -/
theorem drops_ite {d : Prop} [Decidable d] (u : State) : Drops d u (if d then dropLock u else u) := by
  by_cases hd : d
  · rw [if_pos hd]
    exact (dropLock_drops u).congr (by simp [hd])
  · rw [if_neg hd]
    exact .refl hd u

theorem LockOnly.prof {u t : State} (h : LockOnly u t) : t.prof = u.prof := by
  obtain ⟨_, _, _, _, _, rfl⟩ := h
  rfl

/-- A drop seen from an earlier state with the same lock. -/
theorem Drops.lockDrops {d : Prop} {s u t : State} (h : Drops d u t) (hs : LockSame s u)
    (hprof : u.prof = s.prof) : s.lockDrops t d := by
  refine ⟨fun hd hne => ?_, fun hd => ?_⟩
  · obtain ⟨h1, h2, h3, h4, h5⟩ := h.drop.1 hd (by rw [hs.lock]; exact hne)
    rw [hprof, hs.nextFixed] at h4
    exact ⟨h1, h2, h3, h4, noticed_from hs.notice h5⟩
  · obtain ⟨h1, h2, h3, h4⟩ := h.drop.2 (by rw [hs.lock]; exact hd)
    exact ⟨h1.trans hs.lock, h2.trans hs.good, h3.trans hs.bad, h4.trans hs.nextFixed⟩

theorem Drops.lockSame {d : Prop} {u t : State} (h : Drops d u t) (hd : ¬ d ∨ u.otg.lock = .freeRun) : LockSame u t := by
  obtain ⟨h1, h2, h3, h4⟩ := h.drop.2 hd
  exact ⟨h1, h2, h3, h4, h.quiet hd⟩

/-- What happens after a drop that leaves the lock alone. -/
theorem lockDrops_of_same {d : Prop} {s u t : State} (h : s.lockDrops u d) (hs : LockSame u t) : s.lockDrops t d := by
  refine ⟨fun hd hne => ?_, fun hd => ?_⟩
  · obtain ⟨h1, h2, h3, h4, h5⟩ := h.1 hd hne
    exact ⟨hs.lock.trans h1, hs.good.trans h2, hs.bad.trans h3, hs.nextFixed.trans h4, noticed_of_kept h5 hs.notice⟩
  · obtain ⟨h1, h2, h3, h4⟩ := h.2 hd
    exact ⟨hs.lock.trans h1, hs.good.trans h2, hs.bad.trans h3, hs.nextFixed.trans h4⟩

theorem lockDrops_settle {d : Prop} {s u : State} (h : s.lockDrops u d) (ht : u.timeBase = s.timeBase) :
    s.lockDrops (settle u) d := by
  refine ⟨fun hd hne => ?_, fun hd => ?_⟩
  · obtain ⟨h1, h2, h3, h4, h5⟩ := h.1 hd hne
    simp only [settle_frame]
    exact ⟨h1, h2, h3, h4, noticed_settle h5 ht⟩
  · simpa only [settle_frame] using h.2 hd

/-- Two drops one after the other: the second finds the lock in FREE_RUN (R83). -/
theorem Drops.trans {d e : Prop} {u v w : State} (h : Drops d u v) (g : Drops e v w) : Drops (d ∨ e) u w := by
  have still : ¬ (d ∨ e) ∨ u.otg.lock = .freeRun → LockSame u w := by
    intro hq
    have hu : LockSame u v := h.lockSame (hq.imp_left fun hq hd => hq (.inl hd))
    exact hu.trans (g.lockSame (hq.imp (fun hq he => hq (.inr he)) fun hfree => by rw [hu.lock]; exact hfree))
  refine ⟨h.core.trans g.core, ⟨fun hde hne => ?_, fun hq => ?_⟩, fun hq => (still hq).notice, fun i hi =>
    (h.others i hi).trans (g.others i hi)⟩
  · by_cases hd : d
    · have hdrop := h.drop.1 hd hne
      obtain ⟨hfree, -⟩ := hdrop
      exact (lockDrops_of_same h.drop (g.lockSame (.inr hfree))).1 hd hne
    · exact (g.lockDrops (h.lockSame (.inl hd)) h.core.prof).1 (hde.resolve_left hd) hne
  · have hs := still hq
    exact ⟨hs.lock, hs.good, hs.bad, hs.nextFixed⟩

/-- Writing blocks that hold nothing of the lock, before a drop and after it. -/
theorem Drops.of_blocks {d : Prop} {u t u' t' : State} (h : Drops d u t) (hcore : LockOnly u' t')
    (hu : u'.otg.lock = u.otg.lock ∧ u'.pu.good = u.pu.good ∧ u'.pu.bad = u.pu.bad ∧ u'.pu.nextFixed = u.pu.nextFixed ∧
      u'.prof = u.prof ∧ u'.ml = u.ml ∧ u'.timeBase = u.timeBase)
    (ht : t'.otg.lock = t.otg.lock ∧ t'.pu.good = t.pu.good ∧ t'.pu.bad = t.pu.bad ∧ t'.pu.nextFixed = t.pu.nextFixed ∧
      t'.ml = t.ml ∧ t'.timeBase = t.timeBase) : Drops d u' t' := by
  obtain ⟨hul, hug, hub, hun, hua, hum, hut⟩ := hu
  obtain ⟨htl, htg, htb, htn, htm, htt⟩ := ht
  have su : LockSame u' u := ⟨hul.symm, hug.symm, hub.symm, hun.symm, .of_ml hum.symm hut.symm⟩
  have st : LockSame t t' := ⟨htl, htg, htb, htn, .of_ml htm htt⟩
  refine ⟨hcore, lockDrops_of_same (h.lockDrops su hua.symm) st, fun hq => ?_, fun i hi => ?_⟩
  · exact su.notice.trans ((h.quiet (by rw [← hul]; exact hq)).trans st.notice)
  · exact .trans (.of_ml hum.symm hut.symm) ((h.others i hi).trans (.of_ml htm htt))

end Sys2Proof.Machine
end

section
/-! The windows, the repeat plan and the source state after an emptying, a sample and a change of the score, the lock
apart (R36, R37, R47, R52, R53, R58, R65, R77, R83). -/

namespace Sys2Proof.Machine

theorem admissionHolds_iff {p : Option Profile} {ti : Option Nat} : admissionHolds p ti = true ↔
    ∃ x t, p = some x ∧ ti = some t ∧ x.pacing = .fixed ∧ x.lock = true ∧
      ((t : Int) - x.fixedInterval).natAbs ≤ x.fixedInterval / 256 := by
  cases p <;> cases ti <;> simp [admissionHolds, and_assoc]

/-- The interval window has become `w`, with all that follows but the lock (R53, R58, R65, R77). -/
def State.intervalsSet (s : State) (w : List Nat) : State :=
  let plan := planOf s.pc.active (averageInterval w)
  { s with
    pu := { s.pu with
      intervals := w
      ti := averageInterval w
      planActive := plan.1
      k := plan.2.1
      tr := plan.2.2
      admitted := admissionHolds s.pc.active (averageInterval w) }
    otg := { s.otg with
      planCount := (s.otg.planTaken s.prof plan.1 plan.2.1).1
      repeatTimer := (s.otg.planTaken s.prof plan.1 plan.2.1).2 } }

theorem intervalsChanged_drops (w : List Nat) (s : State) :
    Drops (admissionHolds s.pc.active (averageInterval w) = false) (s.intervalsSet w) (intervalsChanged w s) := by
  have heq : intervalsChanged w s =
      if (s.intervalsSet w).pu.admitted && (s.intervalsSet w).pu.ti.isSome then s.intervalsSet w
      else dropLock (s.intervalsSet w) := by
    simp only [intervalsChanged, takePlan_eq_planTaken]
    rfl
  have hcond : ((s.intervalsSet w).pu.admitted && (s.intervalsSet w).pu.ti.isSome) = true ↔
      admissionHolds s.pc.active (averageInterval w) = true := by
    show (admissionHolds s.pc.active (averageInterval w) && (averageInterval w).isSome) = true ↔ _
    rw [Bool.and_eq_true]
    refine ⟨And.left, fun h => ⟨h, ?_⟩⟩
    obtain ⟨_, t, -, ht, -⟩ := admissionHolds_iff.mp h
    rw [ht]
    rfl
  rw [heq]
  by_cases h : admissionHolds s.pc.active (averageInterval w) = true
  · rw [if_pos (hcond.mpr h)]
    exact .refl (by simp [h]) _
  · rw [if_neg (h ∘ hcond.mp)]
    exact (dropLock_drops _).congr (by simpa using h)

theorem intervalsSet_taken (s : State) (w : List Nat) : s.intervalsTaken (s.intervalsSet w) :=
  ⟨rfl, rfl, admissionHolds_iff, rfl⟩

theorem intervalsTaken_of_lockOnly {s u t : State} (h : s.intervalsTaken u) (ht : LockOnly u t) : s.intervalsTaken t := by
  obtain ⟨_, _, _, _, _, rfl⟩ := ht
  exact h

/-- What `intervalsTaken` reads of the later state. -/
theorem intervalsTaken_congr {s u t : State} (h : s.intervalsTaken u) (hpu : t.pu.intervals = u.pu.intervals ∧
    t.pu.ti = u.pu.ti ∧ t.pu.planActive = u.pu.planActive ∧ t.pu.k = u.pu.k ∧ t.pu.tr = u.pu.tr ∧
    t.pu.admitted = u.pu.admitted) (hotg : t.otg.planCount = u.otg.planCount ∧ t.otg.repeatTimer = u.otg.repeatTimer) :
    s.intervalsTaken t := by
  obtain ⟨hi, hti, hplan, hk, htr, hadm⟩ := hpu
  obtain ⟨hcount, htimer⟩ := hotg
  rw [State.intervalsTaken] at h ⊢
  rw [hi, hti, hplan, hk, htr, hadm, hcount, htimer]
  exact h

theorem intervalsSet_lockSame (s : State) (w : List Nat) : LockSame s (s.intervalsSet w) :=
  ⟨rfl, rfl, rfl, rfl, .of_ml rfl rfl⟩

/-- A copy of Q once Q is unknown: it is published when it was known before (R57). -/
def State.copyUnknown (s : State) (copy : Option Nat) : Option Nat := if s.pu.lastQ = none then copy else none

theorem qUnknown_eq (s : State) : s.qUnknown = { s with
    pu := { s.pu with q := none, lastQ := none }
    pool := { s.pool with q := s.copyUnknown s.pool.q }
    ps := { s.ps with q := s.copyUnknown s.ps.q } } := by
  unfold State.qUnknown State.copyUnknown
  by_cases h : s.pu.lastQ = none
  · simp only [if_pos h, State.setPu]
    rw [← h]
  · simp only [if_neg h]
    rfl

theorem qUnknown_lockOnly {u t : State} (h : LockOnly u t) : LockOnly u.qUnknown t.qUnknown := by
  obtain ⟨l, g, b, n, m, rfl⟩ := h
  rw [qUnknown_eq, qUnknown_eq]
  exact ⟨l, g, b, n, m, rfl⟩

/-- Both windows emptied, with all that follows but the lock (R47, R54, R56, R57). -/
def State.windowsCleared (s : State) : State :=
  ((s.intervalsSet []).setPu { (s.intervalsSet []).pu with fills := [], fi := none }).qUnknown

theorem windowsCleared_eq (s : State) : s.windowsCleared = { s.intervalsSet [] with
    pu := { (s.intervalsSet []).pu with fills := [], fi := none, q := none, lastQ := none }
    pool := { s.pool with q := s.copyUnknown s.pool.q }
    ps := { s.ps with q := s.copyUnknown s.ps.q } } := qUnknown_eq _

/-- The copies of Q agree with it (R57), and so they are unknown with it. -/
theorem copyUnknown_of_pacingHolds {s : State} (h : s.pacingHolds) :
    s.copyUnknown s.pool.q = none ∧ s.copyUnknown s.ps.q = none := by
  obtain ⟨-, ⟨hpool, hps⟩, -⟩ := (pacingHolds_iff s).mp h
  have none_of {copy : Option Nat} (hc : copy = s.pu.lastQ) : s.copyUnknown copy = none := by
    rw [State.copyUnknown, hc]
    by_cases hl : s.pu.lastQ = none <;> simp [hl]
  exact ⟨none_of hpool, none_of hps⟩

theorem windowsCleared_lockOnly {u t : State} (h : LockOnly u t) : LockOnly u.windowsCleared t.windowsCleared := by
  obtain ⟨l, g, b, n, m, rfl⟩ := h
  rw [windowsCleared_eq, windowsCleared_eq]
  exact ⟨l, g, b, n, m, rfl⟩

theorem windowsCleared_lockSame (s : State) : LockSame s s.windowsCleared := by
  rw [windowsCleared_eq]
  exact ⟨rfl, rfl, rfl, rfl, .of_ml rfl rfl⟩

theorem Drops.windowsCleared {d : Prop} {u t : State} (h : Drops d u t) : Drops d u.windowsCleared t.windowsCleared := by
  refine h.of_blocks (windowsCleared_lockOnly h.core) ?_ ?_ <;> rw [windowsCleared_eq]
  · exact ⟨rfl, rfl, rfl, rfl, rfl, rfl, rfl⟩
  · exact ⟨rfl, rfl, rfl, rfl, rfl, rfl⟩

/-- The emptying of both windows drops the lock: no rate is admitted (R47, R53, R83). -/
theorem clearWindows_drops {s : State} (h : s.pool.rolesHold) : Drops True s.windowsCleared (clearWindows s) := by
  have hi : Drops True (s.intervalsSet []) (clearIntervals s) :=
    (intervalsChanged_drops [] s).congr (by simp [averageInterval, admissionHolds_of_none])
  rw [clearWindows_eq h, State.windowsCleared]
  generalize s.intervalsSet [] = u at hi ⊢
  generalize clearIntervals s = t at hi ⊢
  refine hi.of_blocks (qUnknown_lockOnly ?_) ?_ ?_
  · obtain ⟨l, g, b, n, m, rfl⟩ := hi.core
    exact ⟨l, g, b, n, m, rfl⟩
  · rw [qUnknown_eq]
    exact ⟨rfl, rfl, rfl, rfl, rfl, rfl, rfl⟩
  · rw [qUnknown_eq]
    exact ⟨rfl, rfl, rfl, rfl, rfl, rfl⟩

/-- The source state and the score are set; a change of state raises SOURCE_STATE (R36). -/
def State.moved (s : State) (st : SourceState) (score : Nat) : State :=
  if st = s.sp.state then { s with sp := { s.sp with state := st, score := score } }
  else raise (.sourceState st score) { s with sp := { s.sp with state := st, score := score } }

theorem moved_eq (s : State) (st : SourceState) (score : Nat) : s.moved st score = { s with
    sp := { s.sp with state := st, score := score }
    ml := (s.moved st score).ml } := by
  rw [State.moved]
  split
  · rfl
  · exact raise_eq_setMl _ _

theorem moved_prof (s : State) (st : SourceState) (score : Nat) : (s.moved st score).prof = s.prof := by
  rw [moved_eq]
  rfl

theorem moved_noticed {s : State} {st : SourceState} (score : Nat) (h : st ≠ s.sp.state) :
    s.noticed (s.moved st score) (.sourceState st score) := by
  rw [State.moved, if_neg h]
  exact noticed_raise (.of_ml rfl rfl)

theorem moved_lockSame (s : State) (st : SourceState) (score : Nat) : LockSame s (s.moved st score) := by
  rw [State.moved]
  have set : LockSame s { s with sp := { s.sp with state := st, score := score } } :=
    ⟨rfl, rfl, rfl, rfl, .of_ml rfl rfl⟩
  split
  · exact set
  · exact set.trans (.raise (by simp [Notice.kind]) _)

/-- A change of the source state drops the lock outside CLEAN and WATCH (R36, R83). -/
theorem moveSource_drops (st : SourceState) (score : Nat) (s : State) :
    Drops (st ≠ s.sp.state ∧ st.healthy = false) (s.moved st score) (moveSource st score s) := by
  rw [moveSource, State.moved]
  by_cases h : st = s.sp.state
  · rw [if_pos h, if_pos h.symm]
    exact .refl (fun hd => hd.1 h) _
  · rw [if_neg h, if_neg (Ne.symm h)]
    by_cases hst : st.healthy = true
    · rw [if_pos hst]
      exact .refl (by simp [hst]) _
    · rw [if_neg hst]
      exact (dropLock_drops _).congr (by simpa [h] using hst)

/-- The source has entered DETACHED, the lock apart (R37, R108). -/
def State.detachedAt (s : State) (score : Nat) : State :=
  State.windowsCleared { s.moved .detached score with
    sp := { s.sp with state := .detached, score := score, cleanRun := 0, prevRef := none }
    ps := { s.ps with detachTime := some s.timeBase } }

theorem enterDetached_drops (score : Nat) {s : State} (h : s.pool.rolesHold) :
    Drops True (s.detachedAt score) (enterDetached score s) := by
  have hm := moveSource_drops .detached score s
  have hpool : (moveSource .detached score s).pool = s.pool := by simp
  have hcore := hm.core
  rw [moved_eq] at hcore
  have hset : Drops (.detached ≠ s.sp.state ∧ SourceState.detached.healthy = false)
      { s.moved .detached score with
        sp := { s.sp with state := .detached, score := score, cleanRun := 0, prevRef := none }
        ps := { s.ps with detachTime := some s.timeBase } }
      { moveSource .detached score s with
        sp := { (moveSource .detached score s).sp with cleanRun := 0, prevRef := none }
        ps := { (moveSource .detached score s).ps with detachTime := some (moveSource .detached score s).timeBase } } := by
    refine hm.of_blocks ?_ ⟨rfl, rfl, rfl, rfl, rfl, rfl, rfl⟩ ⟨rfl, rfl, rfl, rfl, rfl, rfl⟩
    rw [moved_eq]
    generalize moveSource .detached score s = t at hcore ⊢
    obtain ⟨l, g, b, n, m, rfl⟩ := hcore
    exact ⟨l, g, b, n, m, rfl⟩
  exact (hset.windowsCleared.trans (clearWindows_drops (hpool.symm ▸ h))).congr (by simp)

/-- The fields of a detached source, the lock apart. -/
theorem detachedAt_eq (s : State) (score : Nat) : ∃ m, s.detachedAt score = { s with
    sp := { s.sp with state := .detached, score := score, cleanRun := 0, prevRef := none }
    ps := { s.ps with detachTime := some s.timeBase, q := s.copyUnknown s.ps.q }
    pool := { s.pool with q := s.copyUnknown s.pool.q }
    pu := { (s.intervalsSet []).pu with fills := [], fi := none, q := none, lastQ := none }
    otg := (s.intervalsSet []).otg
    ml := m } := by
  rw [State.detachedAt, moved_eq, windowsCleared_eq]
  exact ⟨(s.moved .detached score).ml, rfl⟩

theorem detachedAt_lockSame (s : State) (score : Nat) : LockSame s (s.detachedAt score) := by
  refine (moved_lockSame s .detached score).trans (.trans ?_ (windowsCleared_lockSame _))
  exact ⟨rfl, rfl, rfl, rfl, .of_ml rfl rfl⟩

theorem detachedAt_taken (s : State) (score : Nat) : s.intervalsTaken (s.detachedAt score) := by
  obtain ⟨m, heq⟩ := detachedAt_eq s score
  rw [heq]
  exact intervalsTaken_congr (intervalsSet_taken s []) ⟨rfl, rfl, rfl, rfl, rfl, rfl⟩ ⟨rfl, rfl⟩

theorem detachedAt_noticed {s : State} (score : Nat) (h : s.sp.state ≠ .detached) :
    s.noticed (s.detachedAt score) (.sourceState .detached score) := by
  refine noticed_of_kept (moved_noticed score (Ne.symm h)) ?_
  rw [State.detachedAt, windowsCleared_eq]
  exact .of_ml rfl rfl

end Sys2Proof.Machine
end

section
/-! Stray events (R34 to R37). -/

namespace Sys2Proof.Machine

/-- Since `s` the lock has stayed in FREE_RUN under a rate that is not admitted, and neither SOURCE_STATE nor LOCK_STATE has
been raised. -/
structure Unlocked (s t : State) : Prop where
  freeRun : t.otg.lock = .freeRun
  barred : t.pu.admitted = false
  same : LockSame s t
  source : NoticeKept 0 s t

theorem Unlocked.of_fields {s t u : State} (h : Unlocked s t)
    (hu : u.otg.lock = t.otg.lock ∧ u.pu.good = t.pu.good ∧ u.pu.bad = t.pu.bad ∧ u.pu.nextFixed = t.pu.nextFixed ∧
      u.pu.admitted = t.pu.admitted)
    (hml : u.ml.enables = t.ml.enables ∧ u.ml.tx = t.ml.tx ∧ u.ml.notices = t.ml.notices ∧ u.timeBase = t.timeBase) :
    Unlocked s u := by
  obtain ⟨hl, hg, hb, hn, ha⟩ := hu
  obtain ⟨he, htx, hnot, ht⟩ := hml
  have kept (i : Fin 5) : NoticeKept i t u := ⟨he, htx, by rw [hnot], ht⟩
  exact ⟨hl.trans h.freeRun, ha.trans h.barred, h.same.trans ⟨hl, hg, hb, hn, kept 1⟩, h.source.trans (kept 0)⟩

theorem Unlocked.raise {s t : State} (h : Unlocked s t) {n : Notice} (h0 : n.kind ≠ 0) (h1 : n.kind ≠ 1) :
    Unlocked s (raise n t) :=
  ⟨by simp [h.freeRun], by simp [h.barred], h.same.trans (.raise h1 t), h.source.trans (.raise h0 t)⟩

variable {s t : State}

theorem Unlocked.markEligible (h : Unlocked s t) (k : Slot) : Unlocked s (markEligible k t) :=
  h.of_fields ⟨rfl, rfl, rfl, rfl, rfl⟩ ⟨rfl, rfl, rfl, rfl⟩

theorem Unlocked.mergeTune (h : Unlocked s t) : Unlocked s (mergeTune t) :=
  h.of_fields ⟨rfl, rfl, rfl, rfl, rfl⟩ ⟨rfl, rfl, rfl, rfl⟩

theorem Unlocked.checkInScan (h : Unlocked s t) : Unlocked s (checkInScan t) :=
  h.of_fields (by simp [Machine.checkInScan]) (by simp [Machine.checkInScan])

theorem Unlocked.measureFrom (h : Unlocked s t) (armedAt : Time) : measureFrom armedAt t = t :=
  if_neg (by simp [State.measures, h.freeRun])

theorem Unlocked.chooseRefresh (h : Unlocked s t) : Unlocked s (chooseRefresh t) := by
  simp only [Machine.chooseRefresh]
  split
  · simp only [blankUnderHold]
    split
    · exact Unlocked.raise (h.of_fields (by simp [setKind]) (by simp [setKind])) (by simp [Notice.kind]) (by simp [Notice.kind])
    · exact h.of_fields (by simp [setKind]) (by simp [setKind])
  · repeat' split
    all_goals exact h.of_fields (by simp [setKind]) (by simp [setKind])

theorem Unlocked.publishMargin (h : Unlocked s t) (changed : Bool) : Unlocked s (publishMargin changed t) := by
  simp only [Machine.publishMargin, recomputeQ]
  repeat' split
  · exact h.of_fields ⟨rfl, rfl, rfl, rfl, rfl⟩ ⟨rfl, rfl, rfl, rfl⟩
  · exact judgeAll_inv (Unlocked s) Machine.checkInScan (fun _ hv => hv.checkInScan) (fun k _ hv => hv.markEligible k) _
      (h.of_fields ⟨rfl, rfl, rfl, rfl, rfl⟩ ⟨rfl, rfl, rfl, rfl⟩)
  · exact h

theorem Unlocked.mergeAndChoose (h : Unlocked s t) : Unlocked s (mergeAndChoose t) := by
  have hcounted : Unlocked s (t.setChoices (t.choices + 2)) :=
    h.of_fields ⟨rfl, rfl, rfl, rfl, rfl⟩ ⟨rfl, rfl, rfl, rfl⟩
  simp only [Machine.mergeAndChoose]
  repeat' split
  · exact h.chooseRefresh
  · exact (hcounted.mergeTune.publishMargin _).chooseRefresh
  · exact hcounted.mergeTune.chooseRefresh.publishMargin _
  · exact hcounted.chooseRefresh.mergeTune.publishMargin _

theorem Unlocked.lockAndArm (h : Unlocked s t) (expired : Bool) : Unlocked s (lockAndArm expired t) := by
  have hload : Unlocked s (loadFixed expired t) := h.of_fields (by cases expired <;> simp [loadFixed])
    (by cases expired <;> simp [loadFixed])
  have hstay : ¬ (loadFixed expired t).acquires := fun ha => by
    obtain ⟨-, -, -, hadm, -⟩ := ha
    rw [hload.barred] at hadm
    cases hadm
  rw [Machine.lockAndArm, lockTest_stays hstay, armMeasurement]
  split
  · exact hload.of_fields (by simp [hload.freeRun]) (by simp)
  · exact hload

theorem Unlocked.refreshBy (h : Unlocked s t) (expired planned : Bool) : Unlocked s (refreshBy expired planned t) := by
  have hchosen : Unlocked s (Machine.mergeAndChoose (beginScan t)) := 
    Unlocked.mergeAndChoose (t := beginScan t) (h.of_fields ⟨rfl, rfl, rfl, rfl, rfl⟩ ⟨rfl, rfl, rfl, rfl⟩)
  have hloaded : Unlocked s (loadRepeat planned (Machine.mergeAndChoose (beginScan t))) := by
    refine hchosen.of_fields ?_ ?_ <;> simp only [loadRepeat] <;> split <;> simp
  simp only [Machine.refreshBy]
  refine Unlocked.of_fields (t := takeStart expired (t.marksSince (loadRepeat planned (Machine.mergeAndChoose (beginScan t))))
    (Config.eventFirst (t.choices + 1)) t.otg.tLast (loadRepeat planned (Machine.mergeAndChoose (beginScan t)))) ?_ (by simp)
    (by simp)
  generalize loadRepeat planned (Machine.mergeAndChoose (beginScan t)) = u at hloaded ⊢
  rw [takeStart.eq_def]
  split
  · exact hloaded.lockAndArm expired
  · rw [hloaded.measureFrom]
    exact hloaded.lockAndArm expired
  · rw [phaseMeasure, (hloaded.lockAndArm expired).measureFrom]
    exact hloaded.lockAndArm expired

theorem Unlocked.eligibilityEvent (h : Unlocked s t) : Unlocked s (eligibilityEvent t) := by
  have hmeasure : phaseMeasure t = t := h.measureFrom _
  simp only [Machine.eligibilityEvent, eligibleInScan, hmeasure]
  repeat' split
  · exact h.checkInScan
  · exact h.refreshBy false false
  all_goals exact h

/-- Whatever the markers, the emptying of the windows changes nothing at the lock once it is in FREE_RUN (R47, R83). -/
theorem clearWindows_lockSame {s : State} (h : s.otg.lock = .freeRun) :
    LockSame s (clearWindows s) ∧ NoticeKept 0 s (clearWindows s) := by
  have hd : Drops True (s.intervalsSet []) (clearIntervals s) :=
    (intervalsChanged_drops [] s).congr (by simp [averageInterval, admissionHolds_of_none])
  have hbarred : (clearIntervals s).pu.admitted = false := by
    obtain ⟨_, _, _, _, _, heq⟩ := hd.core
    rw [heq]
    exact admissionHolds_of_none _
  have hstart : Unlocked s (clearIntervals s) :=
    ⟨clearIntervals_lock s, hbarred, (intervalsSet_lockSame s []).trans (hd.lockSame (.inr h)),
      NoticeKept.trans (v := s.intervalsSet []) (.of_ml rfl rfl) (hd.others 0 (by decide))⟩
  have hevents : Unlocked s (clearWindows s) := by
    simp only [clearWindows, fillsChanged, recomputeQ]
    split
    · exact hstart.of_fields ⟨rfl, rfl, rfl, rfl, rfl⟩ ⟨rfl, rfl, rfl, rfl⟩
    · exact judgeAll_inv (Unlocked s) Machine.eligibilityEvent (fun _ hv => hv.eligibilityEvent)
        (fun k _ hv => hv.markEligible k) _ (hstart.of_fields ⟨rfl, rfl, rfl, rfl, rfl⟩ ⟨rfl, rfl, rfl, rfl⟩)
  exact ⟨hevents.same, hevents.source⟩

/-- Whatever the markers, an attached source that enters DETACHED drops the lock and raises SOURCE_STATE (R36, R37, R83). -/
theorem enterDetached_lockDrops (score : Nat) {s : State} (h : s.sp.state.attached = true) :
    s.lockDrops (enterDetached score s) True ∧ s.noticed (enterDetached score s) (.sourceState .detached score) ∧
      (enterDetached score s).otg.lock = .freeRun := by
  have hne : SourceState.detached ≠ s.sp.state := fun he => by
    rw [← he] at h
    cases h
  let v : State := { moveSource .detached score s with
    sp := { (moveSource .detached score s).sp with cleanRun := 0, prevRef := none }
    ps := { (moveSource .detached score s).ps with detachTime := some (moveSource .detached score s).timeBase } }
  have hmove : Drops True (s.moved .detached score) (moveSource .detached score s) :=
    (moveSource_drops .detached score s).congr (by simpa [SourceState.healthy] using hne)
  have hv : s.lockDrops v True :=
    lockDrops_of_same (hmove.lockDrops (moved_lockSame s .detached score) (moved_prof s .detached score))
      ⟨rfl, rfl, rfl, rfl, .of_ml rfl rfl⟩
  have hsource : s.noticed v (.sourceState .detached score) :=
    noticed_of_kept (moved_noticed score hne) ((hmove.others 0 (by decide)).trans (.of_ml rfl rfl))
  have hfree : v.otg.lock = .freeRun := by
    by_cases hl : s.otg.lock = .freeRun
    · exact (hv.2 (.inr hl)).1.trans hl
    · exact (hv.1 trivial hl).1
  obtain ⟨hsame, hkept⟩ := clearWindows_lockSame hfree
  exact ⟨lockDrops_of_same hv hsame, noticed_of_kept hsource hkept, hsame.lock.trans hfree⟩

/-- Settles O46: a score below 128 moves the source state alone, and one of 128 or more detaches it. -/
theorem strayEventsRaiseScore : Obligations.StrayEventsRaiseScore := by
  intro s e pixels hr hatt hcond hlen hscore c hc
  have hstray : strayEvent s = changeScore scoreUp s := by
    revert hatt
    unfold strayEvent
    cases s.sp.state <;> simp [SourceState.attached]
  have hexec : exec c s = .next (settle (changeScore scoreUp s)) := by
    have hne := frame_state_armed hatt
    have hline : lineEvent e pixels s = strayEvent s := by
      unfold lineEvent
      rw [if_neg hne, hcond]
    have hend : frameEndEvent s = strayEvent s := by
      unfold frameEndEvent
      rw [if_neg hne, hcond]
    rw [← hstray]
    obtain rfl | rfl : c = .line e pixels ∨ c = .frameEnd := by simpa using hc
    · rw [exec_line hr e hlen, hline]
    · rw [exec_frameEnd hr, hend]
  have hup : scoreUp s.sp.score = s.sp.score + 8 := Nat.min_eq_right (by omega)
  refine ⟨_, hexec, ?_⟩
  obtain ⟨hstate, hnew⟩ := changeScore_sets (f := scoreUp) hatt
  rw [hup] at hstate hnew
  simp only [settle_frame, hstate, hnew, changeScore_frame, hcond, true_and]
  by_cases hdet : s.sp.score + 8 < 128
  · have hband : bandOf (s.sp.score + 8) ≠ .detached := by
      unfold bandOf
      repeat' split
      all_goals simp
      omega
    have heq : changeScore scoreUp s = moveSource (bandOf (s.sp.score + 8)) (s.sp.score + 8) s := by
      rw [changeScore, if_pos hatt, hup, if_neg hband]
    have hd := moveSource_drops (bandOf (s.sp.score + 8)) (s.sp.score + 8) s
    rw [heq]
    refine ⟨fun hne => ?_, ?_, fun _ => ?_, fun h => absurd hdet (by omega)⟩
    · exact noticed_settle (noticed_of_kept (moved_noticed _ hne) (hd.others 0 (by decide))) (by simp)
    · exact lockDrops_settle (hd.lockDrops (moved_lockSame s _ _) (moved_prof s _ _)) (by simp)
    · have hcore := hd.core
      rw [moved_eq] at hcore
      generalize moveSource (bandOf (s.sp.score + 8)) (s.sp.score + 8) s = t at hcore ⊢
      obtain ⟨l, g, b, n, m, rfl⟩ := hcore
      exact ⟨rfl, rfl, rfl, rfl, rfl, rfl, rfl, rfl, rfl, rfl, rfl⟩
  · have hband : bandOf (s.sp.score + 8) = .detached := by
      unfold bandOf
      repeat' rw [if_neg (by omega)]
    have heq : changeScore scoreUp s = enterDetached (s.sp.score + 8) s := by
      rw [changeScore, if_pos hatt, hup, if_pos hband]
    have hne : SourceState.detached ≠ s.sp.state := fun he => by
      rw [← he] at hatt
      cases hatt
    obtain ⟨hlock, hsource, hfree⟩ := enterDetached_lockDrops (s.sp.score + 8) hatt
    obtain ⟨hintervals, hfills⟩ := enterDetached_windows (s.sp.score + 8) s
    rw [heq, hband]
    have hset : (enterDetached (s.sp.score + 8) s).sp.cleanRun = 0 ∧ (enterDetached (s.sp.score + 8) s).sp.prevRef = none ∧
        (enterDetached (s.sp.score + 8) s).ps.detachTime = some s.timeBase := by
      simp [enterDetached, State.now]
    obtain ⟨hrun, href, htime⟩ := hset
    refine ⟨fun _ => noticed_settle hsource (by simp), ?_, fun h => absurd h hdet, fun _ =>
      ⟨hrun, href, htime, hintervals, hfills, hfree, fun hpool => ?_⟩⟩
    · have hiff : (SourceState.detached ≠ s.sp.state ∧ SourceState.detached.healthy = false) = True := by
        simpa [SourceState.healthy] using hne
      rw [hiff]
      exact lockDrops_settle hlock (by simp)
    · have hd := enterDetached_drops (s.sp.score + 8) hpool.1
      have htaken := intervalsTaken_of_lockOnly (detachedAt_taken s (s.sp.score + 8)) (hd.core.trans (.settle _))
      refine ⟨htaken, ?_⟩
      have hcore := hd.core
      obtain ⟨m, hm⟩ := detachedAt_eq s (s.sp.score + 8)
      rw [hm] at hcore
      generalize enterDetached (s.sp.score + 8) s = t at hcore ⊢
      obtain ⟨l, g, b, n, m, rfl⟩ := hcore
      exact ⟨rfl, rfl, rfl, rfl, rfl, rfl, rfl⟩

end Sys2Proof.Machine
end

section
/-! The filling frame aborted, and Signal Lost (R5, R10, R37, R38). -/

namespace Sys2Proof.Machine

/-- The abort takes the frame out of the filling marker and the list, and no other marker with it (R5, R6, R10). -/
theorem aborted_fields {p : SlotPool} (h : p.rolesHold) (truncated : Bool) :
    (p.aborted truncated).filling = none ∧ (p.aborted truncated).ready = p.ready ∧
    (p.aborted truncated).held = p.held ∧ (p.aborted truncated).onScreen = p.onScreen ∧
    (p.aborted truncated).cands = p.cands.filter (fun k => p.filling ≠ some k) ∧
    (p.aborted truncated).q = p.q ∧ (p.aborted truncated).store = p.store := by
  cases hfilling : p.filling with
  | none => simp [SlotPool.aborted, hfilling]
  | some k =>
    have hne {m : Option Slot} (hm : m ≠ some k) : m.filter (fun j => decide (j ∉ [k])) = m := by
      cases m with
      | none => rfl
      | some j =>
        have hj : j ≠ k := fun he => hm (he ▸ rfl)
        simp [hj]
    have hready : p.ready ≠ some k := fun hk => h.ready_ne_filling hk hfilling
    have hheld : p.held ≠ some k := fun hk => h.held_ne_filling hk hfilling
    by_cases hscreen : p.onScreen = some k
    · have hmem : k ∉ p.cands := fun hk => by
        rcases h.mem_cands.mp hk with hr | ⟨-, hs⟩
        · exact hready hr
        · exact hs hscreen
      have hcands : p.cands.filter (fun j => decide (some k ≠ some j)) = p.cands :=
        List.filter_eq_self.mpr fun j hj => by
          simp only [ne_eq, Option.some.injEq, decide_not, Bool.not_eq_eq_eq_not, Bool.not_true, decide_eq_false_iff_not]
          exact fun he => hmem (he ▸ hj)
      rw [hcands]
      simp only [SlotPool.aborted, hfilling, if_pos hscreen]
      exact ⟨trivial, rfl, rfl, rfl, rfl, rfl, rfl⟩
    · simp only [SlotPool.aborted, hfilling, if_neg hscreen, SlotPool.released, hne hready, hne hheld, hne hscreen]
      refine ⟨by simp, trivial, trivial, trivial, ?_, trivial, trivial⟩
      exact List.filter_congr fun j _ => by simp [eq_comm]

theorem aborted_slot (s : State) (truncated : Bool) (k : Slot) :
    (s.pool.aborted truncated).slot k = s.slotAborted truncated k := by
  unfold SlotPool.aborted State.slotAborted State.slot
  cases hfilling : s.pool.filling with
  | none => rw [if_pos nofun]
  | some j =>
    by_cases hscreen : s.pool.onScreen = some j
    · simp only [if_pos hscreen]
      rw [show ({ s.pool.setSlot j { s.pool.slot j with fill := .aborted, truncated := truncated } with filling := none } :
        SlotPool).slot k = (s.pool.setSlot j { s.pool.slot j with fill := .aborted, truncated := truncated }).slot k from rfl,
        SlotPool.slot_setSlot]
      by_cases hk : k = j
      · subst hk
        simp [hscreen]
      · have hjk : j ≠ k := Ne.symm hk
        simp [hk, hjk]
    · simp only [if_neg hscreen, SlotPool.released_slot, List.mem_singleton]
      by_cases hk : k = j
      · subst hk
        simp [hscreen]
      · have hjk : j ≠ k := Ne.symm hk
        simp [hk, hjk]

theorem abortFilling_eq (truncated : Bool) (s : State) :
    abortFilling truncated s = { s with pool := s.pool.aborted truncated, hr := s.abortRing } := by
  have h := eq_setMl_of_fields (s := { s with pool := s.pool.aborted truncated, hr := s.abortRing })
    (t := abortFilling truncated s) (by simp [abortFilling_pool, abortFilling_hr])
  rw [h]
  simp

/-- The close of the frame in progress by Signal Lost (R38). -/
theorem closeByLoss_eq {s : State} (h : s.fillingHolds) :
    closeByLoss s = { s with pool := s.pool.aborted false, hr := s.cutRing s.abortRing } := by
  have hnone (hc : s.sp.cond ≠ .taken) : s.pool.aborted false = s.pool ∧ s.abortRing = s.hr := by
    have hfilling := filling_eq_none h fun hc' => hc hc'.1
    simp [SlotPool.aborted, State.abortRing, hfilling]
  simp only [closeByLoss, State.cutRing]
  cases hc : s.sp.cond with
  | taken =>
    simp only [abortFilling_eq, fillingBad_eq_badSoFar]
    rfl
  | foreign =>
    obtain ⟨hpool, hring⟩ := hnone (by simp [hc])
    rw [hpool, hring]
    rfl
  | none | observed | ignored =>
    obtain ⟨hpool, hring⟩ := hnone (by simp [hc])
    simp only [hpool, hring]

theorem signalLostEvent_attached {s : State} (h : s.sp.state.attached = true) :
    signalLostEvent s = enterDetached 128 (endFrame (closeByLoss (s.setSp { s.sp with signal := false }))) := by
  unfold signalLostEvent
  revert h
  simp only [State.setSp_fields]
  cases s.sp.state <;> simp [SourceState.attached]

/-- Settles O41: the close, then the entry to DETACHED. -/
theorem signalLostDetaches : Obligations.SignalLostDetaches := by
  intro s hr
  refine ⟨fun hst => ?_, fun hst => ?_, fun hatt hpool hfill => ?_⟩
  · rw [exec_signalLost hr]
    simp only [signalLostEvent, State.setSp_fields, hst]
    rfl
  · rw [exec_signalLost hr]
    simp only [signalLostEvent, State.setSp_fields, hst]
    rfl
  · let v : State := { s with
      sp := { s.sp with signal := false, cond := .none, stripErr := false }
      pool := s.pool.aborted false
      hr := s.cutRing s.abortRing }
    have hdark : (s.setSp { s.sp with signal := false }).fillingHolds := fillingHolds_congr rfl rfl hfill
    have heq : signalLostEvent s = enterDetached 128 v := by
      rw [signalLostEvent_attached hatt, closeByLoss_eq hdark]
      rfl
    have hroles : v.pool.rolesHold := hpool.1.aborted false
    have hd := enterDetached_drops 128 hroles
    have hsame : LockSame s (v.detachedAt 128) :=
      LockSame.trans (u := v) ⟨rfl, rfl, rfl, rfl, .of_ml rfl rfl⟩ (detachedAt_lockSame v 128)
    have hsource : v.noticed (v.detachedAt 128) (.sourceState .detached 128) :=
      detachedAt_noticed 128 fun he => by
        have he : s.sp.state = .detached := he
        rw [he] at hatt
        cases hatt
    obtain ⟨m, hm⟩ := detachedAt_eq v 128
    have hprof : (v.detachedAt 128).prof = s.prof := by
      rw [hm]
      rfl
    have hlock : s.lockDrops (enterDetached 128 v) True := hd.lockDrops hsame hprof
    have htaken : s.intervalsTaken (enterDetached 128 v) := intervalsTaken_of_lockOnly (detachedAt_taken v 128) hd.core
    have hnoticed : s.noticed (enterDetached 128 v) (.sourceState .detached 128) :=
      noticed_of_kept (noticed_from (.of_ml rfl rfl) hsource) (hd.others 0 (by decide))
    obtain ⟨hfilling, hready, hheld, hscreen, hcands, -, hstore⟩ := aborted_fields hpool.1 false
    have hfree : (enterDetached 128 v).otg.lock = .freeRun := by
      by_cases hl : s.otg.lock = .freeRun
      · exact (hlock.2 (.inr hl)).1.trans hl
      · exact (hlock.1 trivial hl).1
    have hcore := hd.core.trans (.settle _)
    rw [hm] at hcore
    have hlocked := lockDrops_settle hlock (by simp [v])
    have hraised := noticed_settle hnoticed (by simp [v])
    have hplanned := intervalsTaken_of_lockOnly htaken (.settle _)
    have hslots : (settle (enterDetached 128 v)).ml.slots = s.ml.slots := by simp [v]
    have hfree' : (settle (enterDetached 128 v)).otg.lock = .freeRun := by simpa using hfree
    refine ⟨_, exec_signalLost hr, ?_⟩
    rw [heq]
    generalize settle (enterDetached 128 v) = t at hcore hlocked hraised hplanned hslots hfree' ⊢
    obtain ⟨l, g, b, n, m, rfl⟩ := hcore
    exact ⟨rfl, rfl, rfl, rfl, rfl, rfl, rfl, rfl, rfl, hplanned, hfree', hlocked, rfl, rfl, hraised, hfilling, hready,
      hheld, hscreen, hstore, aborted_slot s false, hcands, rfl, rfl, rfl, rfl, rfl, rfl, hslots⟩

end Sys2Proof.Machine
end

section
/-! Foreign frames (R26, R30, R32, R33). -/

namespace Sys2Proof.Machine

/-- The ring after the frame in progress has taken the fate FOREIGN, where it was PENDING (R32, R158). -/
def State.foreignRing (s : State) : List FrameRec :=
  s.hr.map fun r => if r.frameNo = s.sp.frameCounter ∧ r.fate = .pending then { r with fate := .foreign } else r

theorem reportFate_eq_foreignRing (s : State) : reportFate s.sp.frameCounter .foreign s = s.setHr s.foreignRing := by
  unfold reportFate onRecord State.foreignRing
  congr 1
  apply List.map_congr_left
  intro r _
  by_cases hn : r.frameNo = s.sp.frameCounter
  · by_cases hf : r.fate = .pending <;> simp [FrameRec.withFate, hn, hf]
  · simp [hn]

/-- The filling frame aborted and both windows emptied, the lock apart, with a source port and a ring (R32). -/
def State.foreigned (s : State) (sp : SourcePort) (ring : List FrameRec) : State := { s.windowsCleared with
  pool := { s.pool.aborted false with q := s.copyUnknown s.pool.q }
  sp := sp
  hr := ring }

theorem foreigned_lockSame (s : State) (sp : SourcePort) (ring : List FrameRec) : LockSame s (s.foreigned sp ring) := by
  rw [State.foreigned, windowsCleared_eq]
  exact ⟨rfl, rfl, rfl, rfl, .of_ml rfl rfl⟩

theorem foreigned_prof (s : State) (sp : SourcePort) (ring : List FrameRec) : (s.foreigned sp ring).prof = s.prof := by
  rw [State.foreigned, windowsCleared_eq]
  rfl

theorem foreigned_taken (s : State) (sp : SourcePort) (ring : List FrameRec) : s.intervalsTaken (s.foreigned sp ring) := by
  rw [State.foreigned, windowsCleared_eq]
  exact intervalsTaken_congr (intervalsSet_taken s []) ⟨rfl, rfl, rfl, rfl, rfl, rfl⟩ ⟨rfl, rfl⟩

/-- The reference of a foreign frame (R32, R46). -/
def SourcePort.refForeign (p : SourcePort) : Option PrevRef := p.prevRef.map fun r => { r with foreign := true }

/-- The steps of R32 that a line and a Frame End share. -/
theorem foreignFrame_drops {s : State} (h : s.pool.rolesHold) :
    let ring := { s with hr := s.foreignRing }.abortRing
    let sp := { s.sp with prevRef := s.sp.refForeign }
    LockOnly (s.foreigned sp ring) (foreignFrame s) ∧ s.lockDrops (foreignFrame s) True ∧
      s.noticed (foreignFrame s) (.foreignFrame s.sp.firstPixels s.sp.lineCount) := by
  intro ring sp
  let w : State := { s with pool := s.pool.aborted false, hr := ring }
  have habort : abortFilling false (reportFate s.sp.frameCounter .foreign s) = w := by
    rw [reportFate_eq_foreignRing, abortFilling_eq]
    rfl
  have hw : w.windowsCleared = s.foreigned s.sp ring := by
    obtain ⟨-, -, -, -, -, hq, -⟩ := aborted_fields h false
    rw [State.foreigned, windowsCleared_eq, windowsCleared_eq]
    simp only [w, State.copyUnknown, State.intervalsSet, hq]
    rfl
  have hd := clearWindows_drops (s := w) (h.aborted false)
  have hcore := hd.core
  rw [hw] at hcore
  have hdrop := hd.lockDrops (hw ▸ foreigned_lockSame s s.sp ring) (hw ▸ foreigned_prof s s.sp ring)
  have hsp : (clearWindows w).sp = s.sp := by simp [w]
  have heq : foreignFrame s = raise (.foreignFrame s.sp.firstPixels s.sp.lineCount) ((clearWindows w).setSp sp) := by
    simp only [foreignFrame, habort, State.setSp_fields, hsp]
    rfl
  have hkept : NoticeKept 2 s ((clearWindows w).setSp sp) :=
    .trans (v := w) (.of_ml rfl rfl) (.trans (v := w.windowsCleared)
      (by rw [windowsCleared_eq]; exact .of_ml rfl rfl) (.trans (hd.others 2 (by decide)) (.of_ml rfl rfl)))
  rw [heq]
  refine ⟨?_, ?_, noticed_raise hkept⟩
  · refine LockOnly.trans ?_ (.raise _ _)
    generalize clearWindows w = t at hcore ⊢
    obtain ⟨l, g, b, n, m, rfl⟩ := hcore
    exact ⟨l, g, b, n, m, rfl⟩
  · exact lockDrops_of_same hdrop (.trans (u := (clearWindows w).setSp sp) ⟨rfl, rfl, rfl, rfl, .of_ml rfl rfl⟩
      (.raise (by simp [Notice.kind]) _))

theorem countLine_eq (s : State) : countLine s = s.setSp { s.sp with
    lineCount := if s.sp.lineCount < s.prof.height + 1 then s.sp.lineCount + 1 else s.sp.lineCount } := rfl

/-- Settles O49: the three causes of R32 take the same steps. -/
theorem foreignFramesAreAborted : Obligations.ForeignFramesAreAborted := by
  intro s k e pixels hr hatt hcond hk hpool hlen fated aborts
  have hbad {sp : SourcePort} : (s.setSp sp).fillingBad = (s.slot k).bad := by simp [State.fillingBad, hk, State.slot]
  obtain ⟨hfilling, hready, hheld, hscreen, hcands, -, hstore⟩ := aborted_fields hpool.1 false
  have aborted_of {t : State} {sp : SourcePort} {ring : List FrameRec} (hcore : LockOnly (s.foreigned sp ring) t)
      (hlock : s.lockDrops t True) (hsp : sp.prevRef = s.sp.refForeign ∧ sp.score = s.sp.score ∧ sp.state = s.sp.state ∧
        sp.frameCounter = s.sp.frameCounter ∧ sp.cleanRun = s.sp.cleanRun ∧ sp.signal = s.sp.signal) : aborts t := by
    obtain ⟨href, hscore, hstate, hcounter, hrun, hsignal⟩ := hsp
    have htaken := intervalsTaken_of_lockOnly (foreigned_taken s sp ring) hcore
    rw [State.foreigned, windowsCleared_eq] at hcore
    obtain ⟨l, g, b, n, m, rfl⟩ := hcore
    have hslot (j : Slot) := aborted_slot s false j
    refine ⟨hfilling, hstore, fun hs => ?_, fun hs => ⟨?_, ?_⟩, hready, hheld, hscreen, hslot, ?_, rfl, rfl, rfl, rfl, rfl,
      htaken, hlock, rfl, href, hscore, hstate, hcounter, hrun, hsignal, rfl, copyUnknown_of_pacingHolds, rfl, rfl, rfl, rfl,
      rfl⟩
    · refine (hslot k).trans ?_
      rw [State.slotAborted, if_neg (by simp [hk]), if_pos hs]
    · refine (hslot k).trans ?_
      rw [State.slotAborted, if_neg (by simp [hk]), if_neg hs]
    · refine (SlotPool.isFree_iff k).mpr ⟨?_, ?_, ?_, ?_⟩
      · exact fun h => nomatch hfilling.symm.trans h
      · exact fun h => hpool.1.ready_ne_filling (hready.symm.trans h) hk
      · exact fun h => hpool.1.held_ne_filling (hheld.symm.trans h) hk
      · exact fun h => hs (hscreen.symm.trans h)
    · refine hcands.trans ?_
      exact List.filter_congr fun j _ => by simp [hk, eq_comm]
  refine ⟨fun hline => ?_, fun hcount => ?_⟩
  · let first := if s.prof.height ≤ s.sp.lineCount then s.sp.firstPixels else pixels.length
    let count := if s.sp.lineCount < s.prof.height + 1 then s.sp.lineCount + 1 else s.sp.lineCount
    let c : State := s.setSp { s.sp with firstPixels := first, lineCount := count, closeBad := (s.slot k).bad }
    have heq : lineEvent e pixels s = setCond .foreign (foreignFrame c) := by
      rw [lineEvent_of_taken hatt hcond, takenLine]
      by_cases hover : s.prof.height ≤ s.sp.lineCount
      · rw [if_pos hover, foreignAtLine, countLine_eq, hbad]
        simp only [c, first, count, if_pos hover]
        rfl
      · have hwidth := hline.resolve_left hover
        rw [if_neg hover, if_pos hwidth, foreignAtLine, countLine_eq]
        have hbad' : ((s.setSp { s.sp with firstPixels := pixels.length }).setSp
            { (s.setSp { s.sp with firstPixels := pixels.length }).sp with lineCount := count }).fillingBad =
              (s.slot k).bad := hbad
        simp only [c, first, count, if_neg hover]
        exact congrArg (fun b => setCond .foreign (foreignFrame (s.setSp
          { s.sp with firstPixels := pixels.length, lineCount := count, closeBad := b }))) hbad'
    obtain ⟨hcore, hlock, hnoticed⟩ := foreignFrame_drops (s := c) hpool.1
    have hlock' : s.lockDrops (settle (setCond .foreign (foreignFrame c))) True :=
      lockDrops_settle (u := setCond .foreign (foreignFrame c)) hlock (by simp [c])
    have hnoticed' : s.noticed (settle (setCond .foreign (foreignFrame c))) (.foreignFrame first count) :=
      noticed_settle (u := setCond .foreign (foreignFrame c)) hnoticed (by simp [c])
    have hcore' : LockOnly (s.foreigned { c.sp with prevRef := s.sp.refForeign, cond := .foreign } fated.abortRing)
        (settle (setCond .foreign (foreignFrame c))) := by
      refine LockOnly.trans ?_ (.settle _)
      rw [State.foreigned, windowsCleared_eq] at hcore ⊢
      generalize foreignFrame c = t at hcore ⊢
      obtain ⟨l, g, b, n, m, rfl⟩ := hcore
      exact ⟨l, g, b, n, m, rfl⟩
    refine ⟨_, (exec_line hr e hlen).trans (by rw [heq]), aborted_of hcore' hlock' ⟨rfl, rfl, rfl, rfl, rfl, rfl⟩, ?_⟩
    generalize settle (setCond .foreign (foreignFrame c)) = t at hcore' hnoticed' ⊢
    obtain ⟨l, g, b, n, m, rfl⟩ := hcore'
    exact ⟨rfl, rfl, rfl, rfl, hnoticed'⟩
  · let u := endFrame (reportClose s.sp.frameCounter (s.slot k).bad false (foreignFrame s))
    have heq : frameEndEvent s = u := by
      rw [frameEndEvent, if_neg (frame_state_armed hatt), hcond]
      simp only [if_neg hcount, foreignAtEnd]
      rw [show s.fillingBad = (s.slot k).bad from hbad (sp := s.sp)]
    obtain ⟨hcore, hlock, hnoticed⟩ := foreignFrame_drops (s := s) hpool.1
    have htime : u.timeBase = s.timeBase := by simp [u]
    have hsame : LockSame (foreignFrame s) u := ⟨rfl, rfl, rfl, rfl, .of_ml rfl rfl⟩
    have hlock' : s.lockDrops (settle u) True := lockDrops_settle (lockDrops_of_same hlock hsame) htime
    have hnoticed' : s.noticed (settle u) (.foreignFrame s.sp.firstPixels s.sp.lineCount) :=
      noticed_settle (noticed_of_kept hnoticed (.of_ml rfl rfl)) htime
    have hcore' : LockOnly (s.foreigned { s.sp with prevRef := s.sp.refForeign, cond := .none, stripErr := false }
        (s.closeRing (s.slot k).bad false fated.abortRing)) (settle u) := by
      refine LockOnly.trans ?_ (.settle _)
      simp only [u]
      generalize foreignFrame s = t at hcore ⊢
      obtain ⟨l, g, b, n, m, rfl⟩ := hcore
      exact ⟨l, g, b, n, m, rfl⟩
    refine ⟨_, (exec_frameEnd hr).trans (by rw [heq]), aborted_of hcore' hlock' ⟨rfl, rfl, rfl, rfl, rfl, rfl⟩, ?_⟩
    generalize settle u = t at hcore' hnoticed' ⊢
    obtain ⟨l, g, b, n, m, rfl⟩ := hcore'
    exact ⟨rfl, rfl, rfl, hnoticed'⟩

end Sys2Proof.Machine
end

section
/-! A frame taken: the slot, the record and the interval sample (R6, R28, R29, R46, R52, R154). -/

namespace Sys2Proof.Machine

theorem lowestFree_below {p : SlotPool} {k : Slot} (h : p.lowestFree = some k) {j : Slot} (hj : j < k) :
    p.isFree j = false := by
  obtain ⟨-, before, after, heq, hbefore⟩ := List.find?_eq_some_iff_append.mp h
  have hsorted : (List.finRange 4).Pairwise (· < ·) := by decide
  rw [heq] at hsorted
  have hmem : j ∈ before ++ k :: after := heq ▸ List.mem_finRange j
  rcases List.mem_append.mp hmem with hb | ha
  · simpa using hbefore j hb
  · rcases List.mem_cons.mp ha with rfl | ha
    · exact absurd hj (lt_irrefl _)
    · obtain ⟨-, hafter, -⟩ := List.pairwise_append.mp hsorted
      exact absurd hj (not_lt_of_gt ((List.pairwise_cons.mp hafter).1 j ha))

/-- The interval sample of a taken Frame Start has been entered, the lock apart (R46, R52). -/
def State.sampled (s : State) : State :=
  match s.sp.prevRef with
  | none => s
  | some ref =>
    if ref.foreign = true then s
    else if elapsed s.timeBase ref.time ≤ 16777216 then
      (s.setPu { s.pu with sampledNow := true }).intervalsSet (windowAdd s.pu.intervals (elapsed s.timeBase ref.time))
    else s.intervalsSet []

theorem samples_iff {s : State} {ref : PrevRef} (h : s.sp.prevRef = some ref) : s.samples ↔ ref.foreign = false := by
  simp [State.samples, h]

theorem not_samples_of_none {s : State} (h : s.sp.prevRef = none) : ¬ s.samples := by
  simp [State.samples, h]

theorem sampled_of_not {s : State} (h : ¬ s.samples) : s.sampled = s := by
  rw [State.sampled]
  split
  · rfl
  next ref href =>
    rw [samples_iff href, Bool.not_eq_false] at h
    rw [if_pos h]

theorem intervalSample_of_not {s : State} (h : ¬ s.samples) : intervalSample s = s := by
  rw [intervalSample]
  split
  next ref href =>
    rw [samples_iff href, Bool.not_eq_false] at h
    rw [if_pos h]
  · rfl

/-- A sample sets the pacing results afresh, and a failed admission drops the lock (R46, R52, R53, R65, R83). -/
theorem intervalSample_drops (s : State) :
    Drops (s.samples ∧ s.sampled.pu.admitted = false) s.sampled (intervalSample s) := by
  by_cases h : s.samples
  · obtain ⟨ref, href, hown⟩ := h
    have hsamples : s.samples := ⟨ref, href, hown⟩
    have hforeign : ¬ ref.foreign = true := by simp [hown]
    by_cases hmax : elapsed s.timeBase ref.time ≤ 16777216
    · have hsampled : s.sampled = (s.setPu { s.pu with sampledNow := true }).intervalsSet
          (windowAdd s.pu.intervals (elapsed s.timeBase ref.time)) := by
        simp only [State.sampled, href, if_neg hforeign, if_pos hmax]
      have heq : intervalSample s = intervalsChanged (windowAdd s.pu.intervals (elapsed s.timeBase ref.time))
          (s.setPu { s.pu with sampledNow := true }) := by
        simp only [intervalSample, href, if_neg hforeign]
        exact if_pos hmax
      rw [heq, hsampled]
      exact (intervalsChanged_drops _ _).congr ⟨fun h => ⟨hsamples, h⟩, And.right⟩
    · have hsampled : s.sampled = s.intervalsSet [] := by
        simp only [State.sampled, href, if_neg hforeign, if_neg hmax]
      have heq : intervalSample s = intervalsChanged [] s := by
        simp only [intervalSample, href, if_neg hforeign]
        exact if_neg hmax
      rw [heq, hsampled]
      exact (intervalsChanged_drops _ _).congr ⟨fun h => ⟨hsamples, h⟩, And.right⟩
  · rw [intervalSample_of_not h, sampled_of_not h]
    exact .refl (fun hd => h hd.1) s

theorem sampled_taken {s : State} (h : s.samples) : s.intervalsTaken s.sampled := by
  obtain ⟨ref, href, hown⟩ := h
  simp only [State.sampled, href, hown, Bool.false_eq_true, if_false]
  split
  · exact intervalsSet_taken (s.setPu { s.pu with sampledNow := true }) _
  · exact intervalsSet_taken s []

theorem sampled_intervals (s : State) : s.sampled.pu.intervals = s.sampledWindow := by
  unfold State.sampled State.sampledWindow
  cases s.sp.prevRef with
  | none => rfl
  | some ref =>
    by_cases hforeign : ref.foreign = true
    · simp only [if_pos hforeign]
    · by_cases hmax : elapsed s.timeBase ref.time ≤ 16777216
      · simp only [if_neg hforeign, if_pos hmax]
        rfl
      · simp only [if_neg hforeign, if_neg hmax]
        rfl

/-- What a sample writes: the interval window with its results, the plan count and the repeat timer. -/
theorem sampled_eq (s : State) : s.sampled = { s with
    pu := { s.pu with
      intervals := s.sampled.pu.intervals
      ti := s.sampled.pu.ti
      planActive := s.sampled.pu.planActive
      k := s.sampled.pu.k
      tr := s.sampled.pu.tr
      admitted := s.sampled.pu.admitted
      sampledNow := s.sampled.pu.sampledNow }
    otg := { s.otg with planCount := s.sampled.otg.planCount, repeatTimer := s.sampled.otg.repeatTimer } } := by
  unfold State.sampled
  split
  · rfl
  · repeat' split
    all_goals rfl

/-- A sample reads nothing of the slots and the ring. -/
theorem sampled_of_blocks (s : State) {sp : SourcePort} (pool : SlotPool) (ring : List FrameRec) (ml : MessageLink)
    (h : sp.prevRef = s.sp.prevRef) :
    State.sampled { s with sp := sp, pool := pool, hr := ring, ml := ml } =
      { s.sampled with sp := sp, pool := pool, hr := ring, ml := ml } := by
  simp only [State.sampled, h]
  cases s.sp.prevRef with
  | none => rfl
  | some ref =>
    by_cases hforeign : ref.foreign = true
    · simp only [if_pos hforeign]
    · by_cases hmax : elapsed s.timeBase ref.time ≤ 16777216
      · simp only [if_neg hforeign, if_pos hmax]
        rfl
      · simp only [if_neg hforeign, if_neg hmax]
        rfl

/-- A frame has been taken into slot `k`, the lock apart (R29). -/
def State.frameTaken (s : State) (k : Slot) : State := { s.sampled with
  sp := { s.sp with
    frameCounter := s.sp.frameCounter + 1
    cond := .taken
    lineCount := 0
    stripErr := false
    firstPixels := 0
    prevRef := some ⟨s.timeBase, false⟩ }
  pool := { s.pool.setSlot k
      ⟨.filling, some (s.sp.frameCounter + 1), 0, 0, false, some s.timeBase, none, false, false, false⟩ with
    filling := some k
    cands := s.pool.cands ++ [k] }
  hr := (if s.hr.length < 32 then s.hr else s.hr.drop 1) ++
    [⟨s.sp.frameCounter + 1, k, s.timeBase, none, 0, false, 0, none, none, 0, .pending⟩] }

theorem frameTaken_lockSame (s : State) (k : Slot) : LockSame s (s.frameTaken k) := by
  rw [State.frameTaken, sampled_eq]
  exact ⟨rfl, rfl, rfl, rfl, .of_ml rfl rfl⟩

theorem frameTaken_prof (s : State) (k : Slot) : (s.frameTaken k).prof = s.prof := by
  rw [State.frameTaken, sampled_eq]
  rfl

theorem takeFrame_drops (k : Slot) (s : State) :
    Drops (s.samples ∧ s.sampled.pu.admitted = false) (s.frameTaken k) (takeFrame k s) := by
  let u : State := { s with
    sp := { s.sp with frameCounter := s.sp.frameCounter + 1 }
    pool := (s.frameTaken k).pool
    hr := (s.frameTaken k).hr }
  have hsampled : u.sampled = { s.sampled with sp := u.sp, pool := u.pool, hr := u.hr, ml := s.ml } :=
    sampled_of_blocks s _ _ _ rfl
  have heq : takeFrame k s = openFrame .taken ((intervalSample u).setSp
      { (intervalSample u).sp with prevRef := some ⟨(intervalSample u).timeBase, false⟩ }) := rfl
  have hd := intervalSample_drops u
  have hcore := hd.core
  rw [hsampled] at hd hcore
  have hcond : (u.samples ∧ s.sampled.pu.admitted = false) ↔ s.samples ∧ s.sampled.pu.admitted = false := Iff.rfl
  rw [heq]
  refine Drops.of_blocks (hd.congr hcond) ?_ ?_ ⟨rfl, rfl, rfl, rfl, rfl, rfl⟩ <;> rw [State.frameTaken, sampled_eq]
  case refine_2 => exact ⟨rfl, rfl, rfl, rfl, rfl, rfl, rfl⟩
  rw [sampled_eq] at hcore
  generalize intervalSample u = t at hcore ⊢
  obtain ⟨l, g, b, n, m, rfl⟩ := hcore
  exact ⟨l, g, b, n, m, rfl⟩

theorem frameTaken_lockOnly {u t : State} (h : LockOnly u t) (k : Slot) : LockOnly (u.frameTaken k) (t.frameTaken k) := by
  obtain ⟨l, g, b, n, m, rfl⟩ := h
  simp only [State.frameTaken, State.sampled]
  cases u.sp.prevRef with
  | none => exact ⟨l, g, b, n, m, rfl⟩
  | some ref =>
    by_cases hforeign : ref.foreign = true
    · simp only [if_pos hforeign]
      exact ⟨l, g, b, n, m, rfl⟩
    · by_cases hmax : elapsed u.timeBase ref.time ≤ 16777216
      · simp only [if_neg hforeign, if_pos hmax]
        exact ⟨l, g, b, n, m, rfl⟩
      · simp only [if_neg hforeign, if_neg hmax]
        exact ⟨l, g, b, n, m, rfl⟩

end Sys2Proof.Machine
end

section
/-! A Frame Start under an attached source (R28, R29, R34 to R37). -/

namespace Sys2Proof.Machine

theorem exec_frameStart_attached {s : State} (hr : s.running) (h : s.sp.state.attached = true) :
    exec .frameStart s = attachedStart s := by
  rw [exec_frameStart hr]
  unfold frameStartEvent
  revert h
  cases s.sp.state <;> simp [SourceState.attached]

theorem attachedStart_takes {s : State} {k : Slot} (hatt : (closeByStart s).sp.state ≠ .detached)
    (hk : (closeByStart s).pool.lowestFree = some k) : attachedStart s = .next (settle (takeFrame k (closeByStart s))) := by
  simp only [attachedStart, if_neg hatt, hk]

/-- The ring after an attached Frame Start has closed a FOREIGN frame (R28). -/
def State.startRing (s : State) : List FrameRec :=
  if s.sp.cond = .foreign then
    s.hr.map fun r => if r.frameNo = s.sp.frameCounter then { r with bad := s.sp.closeBad, truncated := false } else r
  else s.hr

theorem closeByStart_of_open {s : State} (h : s.sp.cond ∈ [FrameCond.none, .ignored, .foreign]) :
    closeByStart s = s.setHr s.startRing := by
  simp only [List.mem_cons, List.not_mem_nil, or_false] at h
  unfold closeByStart State.startRing
  rcases h with h | h | h <;> rw [h] <;> rfl

/-- Settles O42: nothing but a foreign frame's record is closed, and the lowest free slot is taken. -/
theorem frameStartTakesSlot : Obligations.FrameStartTakesSlot := by
  intro s hr hatt hnone hcond
  obtain ⟨k, hk⟩ := Option.ne_none_iff_exists'.mp (lowestFree_ne_none hnone)
  have hclose := closeByStart_of_open hcond
  have hdet : s.sp.state ≠ .detached := fun he => by
    rw [he] at hatt
    cases hatt
  let v := s.setHr s.startRing
  have heq : exec .frameStart s = .next (settle (takeFrame k v)) := by
    rw [exec_frameStart_attached hr hatt, attachedStart_takes (k := k) (by rw [hclose]; exact hdet) (by rw [hclose]; exact hk),
      hclose]
  have hd := takeFrame_drops k v
  have hsampled : v.sampled = { s.sampled with sp := s.sp, pool := s.pool, hr := s.startRing, ml := s.ml } :=
    sampled_of_blocks s _ _ _ rfl
  have hlock := lockDrops_settle (s := s) ((hd.lockDrops ((LockSame.trans (s := s) (u := v) ⟨rfl, rfl, rfl, rfl, .of_ml rfl rfl⟩)
    (frameTaken_lockSame v k)) (frameTaken_prof v k))) (by simp [v])
  have hstays (h : ¬ s.samples) : (settle (takeFrame k v)).otg = s.otg ∧ (settle (takeFrame k v)).pu = s.pu := by
    have hu : takeFrame k v = openFrame .taken ({ (v.setSp { v.sp with frameCounter := v.sp.frameCounter + 1 }) with
        pool := (takeFrame k v).pool, hr := (takeFrame k v).hr
        sp := { v.sp with frameCounter := v.sp.frameCounter + 1, prevRef := some ⟨s.timeBase, false⟩ } }) := by
      simp only [takeFrame]
      rw [intervalSample_of_not (by exact h)]
      rfl
    simp only [settle_frame]
    rw [hu]
    exact ⟨rfl, rfl⟩
  have hcore := hd.core.trans (.settle _)
  have htaken (h : s.samples) : s.intervalsTaken (v.frameTaken k) := by
    have hs := sampled_taken (s := v) h
    exact hs
  have hplanned (h : s.samples) := intervalsTaken_of_lockOnly (htaken h) hcore
  refine ⟨k, _, lowestFree_isFree hk, fun j hj => lowestFree_below hk hj, heq, ?_⟩
  rw [State.frameTaken, sampled_eq, hsampled] at hcore
  rw [hsampled] at hlock
  generalize settle (takeFrame k v) = t at hcore hlock hstays hplanned ⊢
  obtain ⟨l, g, b, n, m, rfl⟩ := hcore
  refine ⟨rfl, rfl, rfl, sampled_intervals s, fun h => ⟨hplanned h, ?_⟩, hstays, rfl, rfl, rfl, rfl, rfl, rfl, rfl, rfl, rfl⟩
  exact congrArg (State.lockDrops s _) (propext ⟨And.right, fun ha => ⟨h, ha⟩⟩) ▸ hlock

/-- A slot is free once the filling frame is aborted when it was, or when it is that frame's own, off the screen (R4, R6). -/
theorem aborted_isFree {p : SlotPool} (h : p.rolesHold) {j : Slot} (hj : p.filling = some j) (truncated : Bool) (i : Slot) :
    (p.aborted truncated).isFree i = true ↔ p.isFree i = true ∨ i = j ∧ p.onScreen ≠ some j := by
  obtain ⟨hfilling, hready, hheld, hscreen, -⟩ := aborted_fields h truncated
  rw [SlotPool.isFree_iff, SlotPool.isFree_iff, hfilling, hready, hheld, hscreen, hj]
  by_cases hi : i = j
  · subst hi
    have hr : p.ready ≠ some i := fun hk => h.ready_ne_filling hk hj
    have hd : p.held ≠ some i := fun hk => h.held_ne_filling hk hj
    simp [hr, hd]
  · simp [hi, Ne.symm hi]

theorem closeRing_mem {s : State} {bad : Nat} {truncated : Bool} {ring : List FrameRec} {r : FrameRec}
    (h : r ∈ s.closeRing bad truncated ring) (hr : r.frameNo = s.sp.frameCounter) : r.bad = bad ∧ r.truncated = truncated := by
  obtain ⟨x, -, rfl⟩ := List.mem_map.mp h
  by_cases hx : x.frameNo = s.sp.frameCounter
  · simp [hx]
  · rw [if_neg hx] at hr
    exact absurd hr hx

/-- The filling frame truncated and its record closed (R6, R28). -/
def State.truncated (s : State) (j : Slot) : State :=
  { s with pool := s.pool.aborted true, hr := s.closeRing (s.slot j).bad true s.abortRing }

theorem closeByStart_of_taken {s : State} {j : Slot} (hcond : s.sp.cond = .taken) (hj : s.pool.filling = some j) :
    closeByStart s = changeScore scoreUp (s.truncated j) := by
  have hbad : s.fillingBad = (s.slot j).bad := by simp [State.fillingBad, hj]
  simp only [closeByStart, hcond, abortFilling_eq, hbad]
  rfl

theorem changeScore_of_band {f : Nat → Nat} {s : State} (h : s.sp.state.attached = true) {score : Nat}
    (hf : f s.sp.score = score) (hband : bandOf score ≠ .detached) :
    changeScore f s = moveSource (bandOf score) score s := by
  rw [changeScore, if_pos h, hf, if_neg hband]

theorem changeScore_of_detached {f : Nat → Nat} {s : State} (h : s.sp.state.attached = true) {score : Nat}
    (hf : f s.sp.score = score) (hband : bandOf score = .detached) : changeScore f s = enterDetached score s := by
  rw [changeScore, if_pos h, hf, if_pos hband]

theorem bandOf_detached_iff {score : Nat} : bandOf score = .detached ↔ 128 ≤ score := by
  unfold bandOf
  repeat' split
  all_goals simp
  all_goals omega

/-- The source state after the score has changed below 128, and the frame taken after it, the lock apart (R29, R36). -/
theorem movedTaken_drops (st : SourceState) (score : Nat) (c : State) (k : Slot) :
    Drops ((st ≠ c.sp.state ∧ st.healthy = false) ∨ (c.samples ∧ c.sampled.pu.admitted = false))
      ((c.moved st score).frameTaken k) (takeFrame k (moveSource st score c)) := by
  have hm := moveSource_drops st score c
  have htaken : Drops (st ≠ c.sp.state ∧ st.healthy = false) ((c.moved st score).frameTaken k)
      ((moveSource st score c).frameTaken k) := by
    refine hm.of_blocks (frameTaken_lockOnly hm.core k) ?_ ?_
    · rw [State.frameTaken, sampled_eq]
      exact ⟨rfl, rfl, rfl, rfl, rfl, rfl, rfl⟩
    · rw [State.frameTaken, sampled_eq]
      exact ⟨rfl, rfl, rfl, rfl, rfl, rfl⟩
  have hcond : (moveSource st score c).samples ∧ (moveSource st score c).sampled.pu.admitted = false ↔
      c.samples ∧ c.sampled.pu.admitted = false := by
    have hcore := hm.core
    rw [moved_eq] at hcore
    generalize moveSource st score c = v at hcore ⊢
    obtain ⟨l, g, b, n, m, rfl⟩ := hcore
    simp only [State.samples, State.sampled]
    cases c.sp.prevRef with
    | none => simp
    | some ref =>
      by_cases hforeign : ref.foreign = true
      · simp [hforeign]
      · by_cases hmax : elapsed c.timeBase ref.time ≤ 16777216
        · simp only [if_neg hforeign, if_pos hmax]
          rfl
        · simp only [if_neg hforeign, if_neg hmax]
          rfl
  exact htaken.trans ((takeFrame_drops k (moveSource st score c)).congr hcond)

end Sys2Proof.Machine
end

section
/-! A Frame Start that truncates a taken frame (R28, R29, R35 to R37). -/

namespace Sys2Proof.Machine

variable {s : State} {j : Slot}

theorem truncated_lockSame (s : State) (j : Slot) : LockSame s (s.truncated j) := ⟨rfl, rfl, rfl, rfl, .of_ml rfl rfl⟩

theorem slotAborted_of_onScreen {truncated : Bool} (hj : s.pool.filling = some j) (hs : s.pool.onScreen = some j) :
    s.slotAborted truncated j = { s.slot j with fill := .aborted, truncated := truncated } := by
  rw [State.slotAborted, if_neg (by simp [hj]), if_pos hs]

theorem aborted_cands {p : SlotPool} (h : p.rolesHold) (hj : p.filling = some j) (truncated : Bool) :
    (p.aborted truncated).cands = p.cands.filter (· ≠ j) := by
  obtain ⟨-, -, -, -, hcands, -⟩ := aborted_fields h truncated
  rw [hcands]
  exact List.filter_congr fun i _ => by simp [hj, eq_comm]

/-- The explicit state, the lock and the link apart, of a frame taken after a truncation that leaves the source attached. -/
theorem truncationTaken_eq (s : State) (j k : Slot) (st : SourceState) (score : Nat) :
    ∃ m, ((s.truncated j).moved st score).frameTaken k = { s.sampled with
      sp := { s.sp with
        state := st, score := score, frameCounter := s.sp.frameCounter + 1, cond := .taken, lineCount := 0
        stripErr := false, firstPixels := 0, prevRef := some ⟨s.timeBase, false⟩ }
      pool := { (s.pool.aborted true).setSlot k
          ⟨.filling, some (s.sp.frameCounter + 1), 0, 0, false, some s.timeBase, none, false, false, false⟩ with
        filling := some k
        cands := (s.pool.aborted true).cands ++ [k] }
      hr := (if (s.truncated j).hr.length < 32 then (s.truncated j).hr else (s.truncated j).hr.drop 1) ++
        [⟨s.sp.frameCounter + 1, k, s.timeBase, none, 0, false, 0, none, none, 0, .pending⟩]
      ml := m } := by
  rw [moved_eq, State.frameTaken]
  exact ⟨((s.truncated j).moved st score).ml, congrArg (fun x : State => { x with
    sp := { s.sp with
        state := st, score := score, frameCounter := s.sp.frameCounter + 1, cond := .taken, lineCount := 0
        stripErr := false, firstPixels := 0, prevRef := some ⟨s.timeBase, false⟩ }
    pool := { (s.pool.aborted true).setSlot k
          ⟨.filling, some (s.sp.frameCounter + 1), 0, 0, false, some s.timeBase, none, false, false, false⟩ with
        filling := some k
        cands := (s.pool.aborted true).cands ++ [k] }
    hr := (if (s.truncated j).hr.length < 32 then (s.truncated j).hr else (s.truncated j).hr.drop 1) ++
        ([⟨s.sp.frameCounter + 1, k, s.timeBase, none, 0, false, 0, none, none, 0, .pending⟩] : List FrameRec) })
    (sampled_of_blocks s (sp := { s.sp with state := st, score := score }) (s.truncated j).pool (s.truncated j).hr
      ((s.truncated j).moved st score).ml rfl)⟩

/-- Settles O43: the truncation, then the new frame by the score it leaves. -/
theorem frameStartTruncates : Obligations.FrameStartTruncates := by
  intro s j hr hatt hcond hj hscore hpool score moves closed
  have hclose := closeByStart_of_taken hcond hj
  have hup : scoreUp (s.truncated j).sp.score = score := rfl
  obtain ⟨hfilling, hready, hheld, hscreen, -, -, hstore⟩ := aborted_fields hpool.1 true
  have hcands := aborted_cands hpool.1 hj true
  by_cases hband : bandOf score = .detached
  · have hdet : 128 ≤ s.sp.score + 8 := by
      have := bandOf_detached_iff.mp hband
      omega
    have hmoved := changeScore_of_detached (s := s.truncated j) hatt hup hband
    have heq : exec .frameStart s = .next (settle (observeFrame (enterDetached score (s.truncated j)))) := by
      rw [exec_frameStart_attached hr hatt, attachedStart, hclose, hmoved]
      exact if_pos (by simp [enterDetached])
    have hne : s.sp.state ≠ .detached := fun he => by
      rw [he] at hatt
      cases hatt
    have hd := enterDetached_drops score (s := s.truncated j) (hpool.1.aborted true)
    obtain ⟨m, hm⟩ := detachedAt_eq (s.truncated j) score
    have hprof : ((s.truncated j).detachedAt score).prof = s.prof := by
      rw [hm]
      rfl
    have hlock : s.lockDrops (enterDetached score (s.truncated j)) True :=
      hd.lockDrops ((truncated_lockSame s j).trans (detachedAt_lockSame _ score)) hprof
    have hsource : s.noticed (enterDetached score (s.truncated j)) (.sourceState .detached score) :=
      noticed_of_kept (noticed_from (.of_ml rfl rfl) (detachedAt_noticed (s := s.truncated j) score hne))
        (hd.others 0 (by decide))
    have htaken : s.intervalsTaken (enterDetached score (s.truncated j)) :=
      intervalsTaken_of_lockOnly (detachedAt_taken (s.truncated j) score) hd.core
    have hcore := hd.core
    rw [hm] at hcore
    have hafter : LockSame (enterDetached score (s.truncated j)) (observeFrame (enterDetached score (s.truncated j))) :=
      ⟨rfl, rfl, rfl, rfl, .of_ml rfl rfl⟩
    have hlocked := lockDrops_settle (lockDrops_of_same hlock hafter) (by simp [State.truncated])
    have hraised := noticed_settle (noticed_of_kept hsource (v := observeFrame (enterDetached score (s.truncated j)))
      (.of_ml rfl rfl)) (by simp [State.truncated])
    have hplanned : s.intervalsTaken (settle (observeFrame (enterDetached score (s.truncated j)))) :=
      intervalsTaken_of_lockOnly (u := observeFrame (enterDetached score (s.truncated j))) htaken (.settle _)
    have hcore' : LockOnly { s with
        sp := { s.sp with
          state := .detached, score := score, cleanRun := 0, prevRef := none, obsClean := s.sp.signal, cond := .observed
          lineCount := 0, stripErr := false, firstPixels := 0 }
        ps := { s.ps with detachTime := some s.timeBase, q := s.copyUnknown s.ps.q }
        pool := { s.pool.aborted true with q := s.copyUnknown (s.pool.aborted true).q }
        pu := { (s.intervalsSet []).pu with fills := [], fi := none, q := none, lastQ := none }
        otg := (s.intervalsSet []).otg
        hr := closed } (settle (observeFrame (enterDetached score (s.truncated j)))) := by
      refine LockOnly.trans ?_ (.settle _)
      generalize enterDetached score (s.truncated j) = t at hcore ⊢
      obtain ⟨l, g, b, n, m, rfl⟩ := hcore
      exact ⟨l, g, b, n, m, rfl⟩
    refine ⟨_, heq, ?_⟩
    generalize settle (observeFrame (enterDetached score (s.truncated j))) = t at hcore' hlocked hraised hplanned ⊢
    obtain ⟨l, g, b, n, m, rfl⟩ := hcore'
    have hslot (i : Slot) := aborted_slot s true i
    refine ⟨rfl, hband.symm, fun _ => hband ▸ hraised, fun r hr hn => closeRing_mem hr hn, fun hs => ?_, hready, hheld,
      hscreen, rfl, rfl, hstore, rfl, rfl, rfl, rfl, fun h => absurd h (by omega), fun _ => ⟨rfl, rfl, rfl, rfl, rfl, hfilling,
      rfl, hslot, hcands, rfl, rfl, rfl, hplanned, hlocked⟩⟩
    have hj' := (hslot j).trans (slotAborted_of_onScreen hj hs)
    exact ⟨(congrArg SlotRec.fill hj' :), (congrArg SlotRec.truncated hj' :), (congrArg SlotRec.filled hj' :)⟩
  · have hbelow : s.sp.score + 8 < 128 := by
      have := bandOf_detached_iff.not.mp hband
      omega
    obtain ⟨k, hk⟩ := Option.ne_none_iff_exists'.mp (lowestFree_ne_none hfilling)
    have hmoved := changeScore_of_band (s := s.truncated j) hatt hup hband
    have heq : exec .frameStart s =
        .next (settle (takeFrame k (moveSource (bandOf score) score (s.truncated j)))) := by
      rw [exec_frameStart_attached hr hatt, attachedStart_takes (k := k), hclose, hmoved]
      · rw [hclose, hmoved]
        simpa using hband
      · rw [hclose, hmoved]
        rw [show (moveSource (bandOf score) score (s.truncated j)).pool = (s.truncated j).pool by simp]
        exact hk
    have hd := movedTaken_drops (bandOf score) score (s.truncated j) k
    have hsampled : (s.truncated j).sampled =
        { s.sampled with sp := s.sp, pool := (s.truncated j).pool, hr := (s.truncated j).hr, ml := s.ml } :=
      sampled_of_blocks s _ _ _ rfl
    obtain ⟨m, hm⟩ := truncationTaken_eq s j k (bandOf score) score
    have hsame : LockSame s (((s.truncated j).moved (bandOf score) score).frameTaken k) :=
      (truncated_lockSame s j).trans ((moved_lockSame _ _ _).trans (frameTaken_lockSame _ k))
    have hprof : (((s.truncated j).moved (bandOf score) score).frameTaken k).prof = s.prof := by
      rw [frameTaken_prof, moved_prof]
      rfl
    have hlocked := lockDrops_settle (hd.lockDrops hsame hprof) (by simp [State.truncated])
    have hsource (hne : moves) : s.noticed (takeFrame k (moveSource (bandOf score) score (s.truncated j)))
        (.sourceState (bandOf score) score) := by
      refine noticed_of_kept (noticed_from (.of_ml rfl rfl) (moved_noticed (s := s.truncated j) score hne)) ?_
      refine NoticeKept.trans (v := ((s.truncated j).moved (bandOf score) score).frameTaken k) ?_ (hd.others 0 (by decide))
      rw [State.frameTaken, sampled_eq]
      exact .of_ml rfl rfl
    have hraised (hne : moves) := noticed_settle (hsource hne) (by simp [State.truncated])
    have hcore := hd.core.trans (.settle _)
    rw [hm] at hcore
    have hplanned (hs : s.samples) :
        s.intervalsTaken (settle (takeFrame k (moveSource (bandOf score) score (s.truncated j)))) :=
      intervalsTaken_of_lockOnly (u := { s.sampled with
        sp := _, pool := _, hr := _, ml := m }) (by exact sampled_taken hs) hcore
    have hunplanned (hs : ¬ s.samples) := sampled_of_not hs
    refine ⟨_, heq, ?_⟩
    rw [hsampled] at hlocked
    have hintervals := sampled_intervals s
    have hforms := sampled_eq s
    generalize settle (takeFrame k (moveSource (bandOf score) score (s.truncated j))) = t at hcore hlocked hraised hplanned ⊢
    generalize s.sampled = w at *
    rw [hforms] at hcore
    obtain ⟨l, g, b, n, m, rfl⟩ := hcore
    have hfree : (s.pool.aborted true).isFree k = true := lowestFree_isFree hk
    obtain ⟨-, -, -, hoff⟩ := (SlotPool.isFree_iff k).mp hfree
    have hkj (hs : s.pool.onScreen = some j) : k ≠ j := fun he => hoff (hscreen.trans (he ▸ hs))
    have hslot (i : Slot) : ((s.pool.aborted true).setSlot k
        ⟨.filling, some (s.sp.frameCounter + 1), 0, 0, false, some s.timeBase, none, false, false, false⟩).slot i =
        if i = k then ⟨.filling, some (s.sp.frameCounter + 1), 0, 0, false, some s.timeBase, none, false, false, false⟩
        else s.slotAborted true i := by
      rw [SlotPool.slot_setSlot, aborted_slot]
    have hown := (hslot k).trans (if_pos rfl)
    refine ⟨rfl, rfl, hraised, fun r hr hn => ?_, fun hs => ?_, hready, hheld, hscreen, rfl, rfl, hstore, rfl, rfl, rfl, rfl,
      fun _ => ⟨rfl, rfl, rfl, rfl, rfl, ⟨k, rfl, congrArg SlotRec.frameNo hown, congrArg SlotRec.firstLine hown, hkj,
        ((aborted_isFree hpool.1 hj true k).mp hfree).imp_right And.left, fun i hi => ?_, hslot,
        congrArg (· ++ [k]) hcands, rfl⟩, hintervals, rfl, hplanned, fun hs => ?_, ?_⟩, fun h => absurd h (by omega)⟩
    · rcases List.mem_append.mp hr with hr | hr
      · have hr : r ∈ closed := by
          revert hr
          show r ∈ (if closed.length < 32 then closed else closed.drop 1) → _
          split
          · exact id
          · exact List.mem_of_mem_drop
        exact closeRing_mem hr hn
      · obtain rfl := List.mem_singleton.mp hr
        have hne : s.sp.frameCounter + 1 ≠ s.sp.frameCounter := by bv_omega
        exact absurd hn hne
    · have hj' := (hslot j).trans ((if_neg (Ne.symm (hkj hs))).trans (slotAborted_of_onScreen hj hs))
      exact ⟨(congrArg SlotRec.fill hj' :), (congrArg SlotRec.truncated hj' :), (congrArg SlotRec.filled hj' :)⟩
    · have hbusy := (aborted_isFree hpool.1 hj true i).not.mp (by simp [lowestFree_below hk hi])
      rw [not_or, Bool.not_eq_true] at hbusy
      obtain ⟨hb, hown⟩ := hbusy
      exact ⟨hb, fun he => not_not.mp fun h => hown ⟨he, h⟩⟩
    · rw [hunplanned hs]
      exact ⟨rfl, rfl⟩
    · exact hlocked

end Sys2Proof.Machine
end

section
/-! The handover of the screen: the slot that leaves it, the fates it brings, and the splice (R18, R19, R106, R156, R158). -/

namespace Sys2Proof.Machine

/-- Freeing a slot that at most the held marker designates (R5). -/
theorem released_one {p : SlotPool} {j : Slot} (hready : p.ready ≠ some j) (hfilling : p.filling ≠ some j)
    (hscreen : p.onScreen ≠ some j) (hcands : j ∉ p.cands) :
    p.released [j] = { p.setSlot j SlotRec.free with held := p.held.filter fun i => decide (i ≠ j) } := by
  have hmarker {m : Option Slot} (hm : m ≠ some j) : m.filter (fun i => decide (i ∉ [j])) = m := by
    cases m with
    | none => rfl
    | some i => simpa [Option.filter] using hm
  refine SlotPool.ext_slot (fun i => ?_) (hmarker hfilling) (hmarker hready) ?_ (hmarker hscreen) ?_ rfl rfl
  · rw [SlotPool.released_slot]
    refine Eq.trans ?_ (SlotPool.slot_setSlot p j i SlotRec.free).symm
    simp
  · simp [SlotPool.released]
  · refine List.filter_eq_self.mpr fun i hi => ?_
    simp only [List.mem_singleton, decide_eq_true_eq]
    rintro rfl
    exact hcands hi

/-- A slot held by no other marker and off the list becomes held, another one being freed (R18). -/
theorem heldBy_eq {p : SlotPool} (a : Slot) (h : ∀ j, p.held = some j → j ≠ a →
      p.ready ≠ some j ∧ p.filling ≠ some j ∧ p.onScreen ≠ some j ∧ j ∉ p.cands) :
    p.heldBy a = { (match p.held with
      | some j => if j = a then p else p.setSlot j SlotRec.free
      | none => p) with held := some a } := by
  cases hd : p.held with
  | none => simp [SlotPool.heldBy, hd]
  | some j =>
    by_cases hj : j = a
    · simp only [SlotPool.heldBy, hd, if_pos hj]
      rw [← hj, ← hd]
    · obtain ⟨hr, hf, hs, hc⟩ := h j hd hj
      rw [SlotPool.heldBy_of_other hd hj, released_one hr hf hs hc]
      simp only [if_neg hj]

theorem held_alone {p : SlotPool} (h : p.rolesHold) {j : Slot} (hj : p.held = some j) :
    p.ready ≠ some j ∧ p.filling ≠ some j ∧ j ∉ p.cands := by
  have hready : p.ready ≠ some j := fun hr => by
    obtain ⟨-, -, hreadies, -⟩ := h
    obtain ⟨-, -, hne, -⟩ := hreadies j hr
    exact hne hj
  refine ⟨hready, h.held_ne_filling hj, fun hmem => ?_⟩
  rcases h.mem_cands.mp hmem with hr | ⟨hf, -⟩
  · exact hready hr
  · exact h.held_ne_filling hj hf

/-- An on-screen slot that is not FILLING is neither ready nor a candidate (R4, R11). -/
theorem onScreen_alone {p : SlotPool} (h : p.rolesHold) {a : Slot} (ha : p.onScreen = some a)
    (hfill : (p.slot a).fill ≠ .filling) : p.ready ≠ some a ∧ p.filling ≠ some a ∧ a ∉ p.cands := by
  obtain ⟨-, hfilling, hreadies, -⟩ := id h
  have hready : p.ready ≠ some a := fun hr => by
    obtain ⟨-, -, -, hne⟩ := hreadies a hr
    exact hne ha
  have hf : p.filling ≠ some a := fun hf => hfill ((hfilling a).mpr hf)
  refine ⟨hready, hf, fun hmem => ?_⟩
  rcases h.mem_cands.mp hmem with hr | ⟨hf', -⟩
  · exact hready hr
  · exact hf hf'

/-- An ABORTED slot is on screen alone (R4, R10). -/
theorem held_ne_of_aborted {p : SlotPool} (h : p.rolesHold) {a : Slot} (hfill : (p.slot a).fill = .aborted) :
    p.held ≠ some a := fun hd => by
  obtain ⟨-, -, -, hheld, -⟩ := h
  rw [hheld a hd] at hfill
  cases hfill

/-- The frame that leaves the screen changes no candidate's slot (R19). -/
theorem screenLeft_slot {p : SlotPool} (h : p.rolesHold) {n : Slot} (hn : n ∈ p.cands) :
    p.screenLeft.slot n = p.slot n := by
  rw [SlotPool.screenLeft]
  split
  · rfl
  next a ha =>
    cases hf : (p.slot a).fill with
    | empty | filling => rfl
    | complete =>
      simp only [SlotPool.heldBy]
      split
      next j hj =>
        split
        · rfl
        · rw [SlotPool.released_slot, if_neg]
          · rfl
          · obtain ⟨-, -, hmem⟩ := held_alone h hj
            exact fun e => hmem (List.mem_singleton.mp e ▸ hn)
      · rfl
    | aborted =>
      obtain ⟨-, -, hmem⟩ := onScreen_alone h ha (by simp [hf])
      rw [SlotPool.released_slot, if_neg fun e : n ∈ [a] => hmem (List.mem_singleton.mp e ▸ hn)]

theorem spliceSlot_eq_splicedPool {s : State} (h : s.pool.rolesHold) {n : Slot} (hn : n ∈ s.pool.cands) :
    (spliceSlot n s).pool = s.splicedPool n := by
  rw [spliceSlot_pool, screenLeft_slot h hn]
  simp only [State.splicedPool, SlotPool.screenLeft]
  cases ha : s.pool.onScreen with
  | none => rfl
  | some a =>
    have hslot : s.slot a = s.pool.slot a := rfl
    simp only [hslot]
    cases hf : (s.pool.slot a).fill with
    | empty | filling => rfl
    | complete =>
      simp only
      rw [heldBy_eq a fun j hj hne => ?_]
      · rfl
      · obtain ⟨hr, hf, hc⟩ := held_alone h hj
        exact ⟨hr, hf, fun hs => hne (Option.some.inj (hs.symm.trans ha)), hc⟩
    | aborted =>
      obtain ⟨hr, hfl, hc⟩ := onScreen_alone h ha (by simp [hf])
      have hd := held_ne_of_aborted h hf
      have heq : s.pool.released [a] = { s.pool.setSlot a SlotRec.free with onScreen := none } := by
        have hmarker {m : Option Slot} (hm : m ≠ some a) : m.filter (fun i => decide (i ∉ [a])) = m := by
          cases m with
          | none => rfl
          | some i => simpa [Option.filter] using hm
        have hone := released_one (p := { s.pool with onScreen := none }) (j := a) hr hfl nofun hc
        have hheld : s.pool.held.filter (fun i => decide (i ≠ a)) = s.pool.held := by simpa using hmarker hd
        simp only [hheld] at hone
        refine Eq.trans ?_ hone
        simp [SlotPool.released, ha, Option.filter]
        rfl
      rw [heq]
      rfl

/-- Fates reported after others, of frames that the first reports did not free (R158). -/
theorem fateRing_append {s u : State} {first rest : List (Slot × Fate)} (hu : u.hr = s.fateRing first)
    (hframe : ∀ x ∈ rest, (u.slot x.1).frameNo = (s.slot x.1).frameNo) (hfate : ∀ x ∈ first, x.2 ≠ .pending) :
    u.fateRing rest = s.fateRing (first ++ rest) := by
  rw [State.fateRing, hu]
  simp only [State.fateRing, List.map_map]
  apply List.map_congr_left
  intro r _
  have hrest (m : FrameNo) : rest.find? (fun x => decide ((u.slot x.1).frameNo = some m)) =
      rest.find? (fun x => decide ((s.slot x.1).frameNo = some m)) :=
    List.find?_congr fun x hx => by rw [hframe x hx]
  simp only [Function.comp, hrest, List.find?_append]
  cases hr : r.fate with
  | pending =>
    cases hfirst : first.find? (fun x => decide ((s.slot x.1).frameNo = some r.frameNo)) with
    | none => simp [hr]
    | some x =>
      have := hfate x (List.mem_of_find?_eq_some hfirst)
      cases hx : x.2 <;> simp_all
  | shown | partShown | replaced | errorDropped | foreign | flushed => simp [hr]

theorem fateRing_nil (s : State) : s.fateRing [] = s.hr := by
  simp only [State.fateRing, List.find?_nil]
  apply List.map_id''
  intro r
  cases r.fate <;> rfl

/-- The frame numbers that fates are reported for are those of the slots (R158). -/
theorem fateRing_congr {s u : State} (rest : List (Slot × Fate)) (hring : u.hr = s.hr)
    (hframe : ∀ x ∈ rest, (u.slot x.1).frameNo = (s.slot x.1).frameNo) : u.fateRing rest = s.fateRing rest := by
  have h := fateRing_append (s := s) (u := u) (first := []) (hring.trans (fateRing_nil s).symm) hframe (by simp)
  simpa using h

theorem makeHeld_hr {s : State} (a : Slot) : (makeHeld a s).hr = s.fateRing (s.heldFates a) := by
  have hset : (s.setPool { s.pool with held := some a }).hr = s.fateRing [] := (fateRing_nil s).symm
  simp only [makeHeld, State.heldFates]
  cases hd : s.pool.held with
  | none =>
    simp only [fateRing_one]
    exact fateRing_append hset (fun _ _ => rfl) (by simp)
  | some j =>
    by_cases hj : j = a
    · simp only [if_pos hj, fateRing_one]
      exact fateRing_append hset (fun _ _ => rfl) (by simp)
    · simp only [if_neg hj, fateRing_one]
      have hfreed : (freeSlot j .shown (s.setPool { s.pool with held := some a })).hr = s.fateRing [(j, .shown)] := by
        rw [freeSlot_hr]
        exact fateRing_append hset (fun _ _ => rfl) (by simp)
      refine fateRing_append hfreed (fun x hx => ?_) (by simp)
      obtain rfl := List.mem_singleton.mp hx
      rw [freeSlot_frameNo, if_neg (Ne.symm hj)]
      rfl

theorem leaveScreen_hr (s : State) : (leaveScreen s).hr = s.fateRing s.leaveFates := by
  rw [leaveScreen, State.leaveFates]
  cases s.pool.onScreen with
  | none => exact (fateRing_nil s).symm
  | some a =>
    simp only
    cases (s.slot a).fill with
    | empty | filling => exact (fateRing_nil s).symm
    | complete =>
      simp only
      split
      · exact (fateRing_nil s).symm
      · exact makeHeld_hr a
    | aborted => exact freeSlot_hr s a _

theorem leaveFates_ne_pending (s : State) : ∀ x ∈ s.leaveFates, x.2 ≠ .pending := by
  rw [State.leaveFates]
  split
  · simp
  · split
    · split
      · simp
      · unfold State.heldFates
        repeat' split
        all_goals simp
    · simp [SlotRec.fateAborted]
      repeat' split
      all_goals simp
    all_goals simp

theorem olderReplaced_mem {s : State} {n : Slot} {x : Slot × Fate} (h : x ∈ s.olderReplaced n) : x.1 ∈ s.pool.cands := by
  obtain ⟨j, hj, rfl⟩ := List.mem_map.mp h
  exact (List.takeWhile_sublist _).mem hj

theorem spliceSlot_hr {s : State} (h : s.pool.rolesHold) (n : Slot) :
    (spliceSlot n s).hr = s.fateRing (s.leaveFates ++ s.olderReplaced n) := by
  obtain ⟨hcands, -⟩ := screenLeft_stays h
  have hring : (spliceSlot n s).hr = (leaveScreen s).fateRing (s.olderReplaced n) := by
    simp only [spliceSlot, State.setPool_fields, freeSlots_hr _ _ (by decide : Fate.replaced ≠ .pending), leaveScreen_pool,
      hcands]
    rfl
  rw [hring]
  refine fateRing_append (leaveScreen_hr s) (fun x hx => ?_) (leaveFates_ne_pending s)
  rw [State.slot, leaveScreen_pool, screenLeft_slot h (olderReplaced_mem hx)]
  rfl

/-- A presentation by a splice (R106, R156). -/
theorem spliceReport_hr (s u : State) (n : Slot) (j : Nat) :
    (match (s.slot n).frameNo with
      | some f => onRecord f (FrameRec.splicedAt s.timeBase j (!(s.slot n).presented)) u
      | none => u) = u.setHr (s.spliceRing n j u.hr) := by
  unfold State.spliceRing
  cases hn : (s.slot n).frameNo with
  | none =>
    simp
    rfl
  | some f =>
    simp only [onRecord]
    congr 1
    apply List.map_congr_left
    intro r _
    by_cases e : r.frameNo = f
    · cases hp : (s.slot n).presented <;> simp [e, FrameRec.splicedAt]
    · have e' : ¬ f = r.frameNo := fun h => e h.symm
      simp [e, e']

/-- A splice in the terms of the statements: the pool, the ring and the watch (R19, R106). -/
theorem makeSplice_eq {s : State} (h : s.pool.rolesHold) {n : Slot} (hn : n ∈ s.pool.cands) (j : Nat) :
    makeSplice j n s = { s with
      pool := s.splicedPool n
      hr := s.splicedRing j n
      ps := { s.ps with watchOpen := false } } := by
  have hspliced : spliceSlot n s = { s with
      pool := s.splicedPool n, hr := s.fateRing (s.leaveFates ++ s.olderReplaced n) } := by
    have hf := eq_setMl_of_fields (s := { s with
        pool := s.splicedPool n, hr := s.fateRing (s.leaveFates ++ s.olderReplaced n) }) (t := spliceSlot n s)
      (by simp [spliceSlot_eq_splicedPool h hn, spliceSlot_hr h])
    rw [hf]
    simp
  have hreport := spliceReport_hr s (closeWatch (spliceSlot n s)) n j
  rw [hspliced] at hreport
  simp only [makeSplice, hspliced]
  exact hreport

end Sys2Proof.Machine
end

section
/-! A strip read that splices (R71, R100, R104 to R106). -/

namespace Sys2Proof.Machine

theorem spliceCheck_of_candidate {s : State} {j : Nat} {n : Slot} (hwatch : s.ps.watchOpen = true)
    (htear : s.prof.tear = .splice) (hj : j ≤ s.prof.spliceLimit) (hn : s.spliceCandidate j = some n) :
    spliceCheck j s = makeSplice j n s := by
  simp only [spliceCheck, hwatch, htear, decide_true, Bool.and_self, if_true, if_neg (Nat.not_lt.mpr hj), hn]

theorem toScreen_slot_self (p : SlotPool) (k : Slot) (r : SlotRec) : (p.toScreen k r).slot k = r := by
  simp [SlotPool.toScreen, SlotPool.slot]

/-- The candidate on screen shows the record it had, with its presented flag (R19). -/
theorem splicedPool_slot (s : State) (n : Slot) : (s.splicedPool n).slot n = { s.slot n with presented := true } :=
  toScreen_slot_self _ n _

theorem splicedPool_onScreen (s : State) (n : Slot) : (s.splicedPool n).onScreen = some n := rfl

theorem splicedPool_store (s : State) (n : Slot) : (s.splicedPool n).store = s.pool.store := by
  simp only [State.splicedPool]
  split
  · rfl
  · split
    · split
      · split <;> rfl
      · rfl
    · rfl
    all_goals rfl

/-- Settles O55: the splice before the strip is sent, then its substitution. -/
theorem stripReadSplices : Obligations.StripReadSplices := by
  intro s n hr hdue hpool hpos hwatch htear hlimit hn
  obtain ⟨hcand, -⟩ := mem_cands_of_spliceCandidate hn
  have hk : s.otg.nextStrip ≠ 0 := Nat.pos_iff_ne_zero.mp hpos
  have hreached : s.stripReached s.otg.nextStrip = { s with otg := { s.otg with nextStrip := s.otg.nextStrip + 1 } } := by
    rw [State.stripReached, if_neg hk]
  have hsplice : spliceCheck s.otg.nextStrip (s.stripReached s.otg.nextStrip) = { s with
      otg := { s.otg with nextStrip := s.otg.nextStrip + 1 }
      pool := s.splicedPool n
      hr := s.splicedRing s.otg.nextStrip n
      ps := { s.ps with watchOpen := false } } := by
    rw [hreached]
    exact (spliceCheck_of_candidate (s := { s with otg := { s.otg with nextStrip := s.otg.nextStrip + 1 } }) hwatch htear
      hlimit hn).trans (makeSplice_eq
        (s := { s with otg := { s.otg with nextStrip := s.otg.nextStrip + 1 } }) hpool.1 hcand _)
  have hread : readStrip s.otg.nextStrip s = { s with
      otg := { s.otg with nextStrip := s.otg.nextStrip + 1 }
      pool := s.splicedPool n
      hr := (s.splicedPool n).substitute s.otg.nextStrip (s.splicedRing s.otg.nextStrip n)
      ps := { s.ps with watchOpen := false }
      panel := { s.panel with strip := some ⟨s.otg.nextStrip, s.timeBase, (s.splicedPool n).sourceOf s.otg.nextStrip,
        s.settings.depth, stripLines { s with pool := s.splicedPool n } s.otg.nextStrip
          ((s.splicedPool n).sourceOf s.otg.nextStrip)⟩ } } := by
    rw [readStrip_eq, hsplice, stripSource_eq_sourceOf, reportSubstitution_eq, openWatch, if_neg fun h => hk h.1]
    rfl
  have hexec : exec .stripRead s = .next (settle (readStrip s.otg.nextStrip s)) := whenDue_of_due hr hdue
  refine ⟨_, hexec, ?_⟩
  have hset := settle_eq_setMl (readStrip s.otg.nextStrip s)
  rw [hset, hread]
  refine ⟨⟨rfl, rfl, rfl, rfl, rfl, rfl, rfl, rfl⟩, rfl, ?_, ?_⟩
  · show (s.splicedPool n).substitute s.otg.nextStrip (s.splicedRing s.otg.nextStrip n) = _
    simp only [SlotPool.substitute, SlotPool.substituted, splicedPool_onScreen, Option.bind_some, splicedPool_slot]
    by_cases hfilled : s.otg.nextStrip < (s.slot n).filled
    · simp only [if_pos hfilled]
    · simp only [if_neg hfilled]
      cases hframe : (s.slot n).frameNo with
      | none => simp
      | some f =>
        refine List.map_congr_left fun r _ => ?_
        by_cases hf : r.frameNo = f
        · simp [hf, FrameRec.substitutedOne]
        · simp [hf, Ne.symm hf]
  · have hstore := splicedPool_store s n
    show PanelPort.mk _ _ = _
    cases hsrc : (s.splicedPool n).sourceOf s.otg.nextStrip <;>
      simp only [State.setMl_fields, hsrc, stripLines, hstore] <;> rfl

end Sys2Proof.Machine
end

section
/-! The choice at a refresh start in the terms of the statements (R15, R16, R92 to R97, R156). -/

namespace Sys2Proof.Machine

theorem chooseRefresh_pool (s : State) : (chooseRefresh s).pool = s.shownPool := by
  rw [chooseRefresh, State.shownPool]
  by_cases hhold : s.holdExpired = true
  · simp only [if_pos hhold, blankUnderHold_frame]
  · simp only [if_neg hhold]
    cases s.newestEligible with
    | some k => simp [setKind, chooseSlot_pool]
    | none =>
      cases s.pool.held with
      | some k => simp [setKind, repeatHeld_pool]
      | none => rfl

theorem chooseSlot_hr (k : Slot) (s : State) : (chooseSlot k s).hr = s.fateRing (s.olderReplaced k) :=
  freeSlots_hr _ .replaced (by decide) s

theorem blankUnderHold_ps (s : State) :
    (blankUnderHold s).ps = { s.ps with lastKind := some .blank, blankActive := true } := by
  unfold blankUnderHold
  split <;> simp [setKind]

theorem blankUnderHold_noticed {s : State} {d : Time} (htime : s.ps.detachTime = some d) (hactive : s.ps.blankActive = false) :
    s.noticed (blankUnderHold s) (.outputBlank d s.timeBase) := by
  unfold blankUnderHold
  rw [hactive, htime]
  exact raise_noticed s _ _ rfl

theorem chooseRefresh_choiceShown (s : State) : s.choiceShown (chooseRefresh s) := by
  rw [chooseRefresh, State.choiceShown]
  by_cases hhold : s.holdExpired = true
  · simp only [if_pos hhold]
    exact ⟨by rw [blankUnderHold_ps], by simp, fun d hd hb => blankUnderHold_noticed hd hb⟩
  · simp only [if_neg hhold]
    cases s.newestEligible with
    | some k =>
      refine ⟨by simp [setKind], ?_⟩
      have hring := reportRefresh_hr s (setKind .new (chooseSlot k s)) k (by simp [setKind])
      rw [← chooseSlot_hr]
      exact hring
    | none =>
      cases s.pool.held with
      | some k =>
        refine ⟨by simp [setKind], ?_⟩
        exact reportRefresh_hr s (setKind .repeated (repeatHeld k s)) k (by simp [setKind])
      | none => exact ⟨rfl, rfl⟩

theorem chooseRefresh_kept {i : Fin 5} (hi : i ≠ 3) (s : State) : NoticeKept i s (chooseRefresh s) := by
  rw [chooseRefresh]
  split
  · unfold blankUnderHold
    split
    · exact NoticeKept.raise_of_ml (n := .outputBlank _ _) (Ne.symm hi) rfl rfl
    · exact .of_ml rfl rfl
  · repeat' split
    all_goals exact .of_ml (by simp [setKind]) (by simp [setKind])

/-- The choice stands when nothing more happens to what it shows, Q's copy apart. -/
theorem choiceShown_of_same {s u t : State} (h : s.choiceShown u) (hps : t.ps = { u.ps with q := t.ps.q })
    (hring : t.hr = u.hr) (hnotice : ∀ n : Notice, n.kind = 3 → s.noticed u n → s.noticed t n) : s.choiceShown t := by
  have hshows (kind : RefreshKind) (b : Bool) (hu : u.ps = { s.ps with lastKind := some kind, q := u.ps.q, blankActive := b }) :
      t.ps = { s.ps with lastKind := some kind, q := t.ps.q, blankActive := b } := by
    rw [hps, hu]
  rw [State.choiceShown] at h ⊢
  by_cases hhold : s.holdExpired = true
  · simp only [if_pos hhold] at h ⊢
    obtain ⟨hp, hr, hn⟩ := h
    exact ⟨hshows _ _ hp, hring.trans hr, fun d hd hb => hnotice _ rfl (hn d hd hb)⟩
  · simp only [if_neg hhold] at h ⊢
    cases hnew : s.newestEligible with
    | some k =>
      rw [hnew] at h
      exact ⟨hshows _ _ h.1, hring.trans h.2⟩
    | none =>
      rw [hnew] at h
      cases hheld : s.pool.held with
      | some k =>
        rw [hheld] at h
        exact ⟨hshows _ _ h.1, hring.trans h.2⟩
      | none =>
        rw [hheld] at h
        exact ⟨hshows _ _ h.1, hring.trans h.2⟩

theorem toScreen_slot (p : SlotPool) (k j : Slot) (r : SlotRec) : (p.toScreen k r).slot j =
    if j = k then r else if j ∈ p.cands.takeWhile (· ≠ k) then SlotRec.free else p.slot j := by
  simp [SlotPool.toScreen, SlotPool.slot]

/-- The choice adds no eligible mark. -/
theorem shownPool_eligible {s : State} {k : Slot} (h : (s.shownPool.slot k).eligible = true) :
    (s.slot k).eligible = true := by
  have hself : s.slot k = s.pool.slot k := rfl
  rw [State.shownPool] at h
  by_cases hhold : s.holdExpired = true
  · simp only [if_pos hhold] at h
    exact h
  · simp only [if_neg hhold] at h
    cases hnew : s.newestEligible with
    | some n =>
      rw [hnew] at h
      simp only [toScreen_slot] at h
      by_cases hk : k = n
      · rw [if_pos hk, ← hk] at h
        exact h
      · rw [if_neg hk] at h
        split at h
        · cases h
        · exact h
    | none =>
      rw [hnew] at h
      cases hheld : s.pool.held with
      | some n =>
        rw [hheld] at h
        replace h : ((s.pool.setSlot n { s.slot n with presented := true, shownTop := true }).slot k).eligible = true := h
        rw [SlotPool.slot_setSlot] at h
        by_cases hk : k = n
        · rw [if_pos hk, ← hk] at h
          exact h
        · rw [if_neg hk] at h
          exact h
      | none =>
        rw [hheld] at h
        exact h

end Sys2Proof.Machine
end

section
/-! The lock and the phase measurement at a refresh start (R60 to R64, R81, R82, R84). -/

namespace Sys2Proof.Machine

/-- Two states agree in what the lock, the measurement and the arming read and write; the profile may differ in the fields
that a tune merge writes, which neither reads (R60 to R63, R81, R141). -/
structure LockInputs (s u : State) : Prop where
  lock : u.otg.lock = s.otg.lock
  good : u.pu.good = s.pu.good
  bad : u.pu.bad = s.pu.bad
  armed : u.pu.armed = s.pu.armed
  nextFixed : u.pu.nextFixed = s.pu.nextFixed
  admitted : u.pu.admitted = s.pu.admitted
  ti : u.pu.ti = s.pu.ti
  state : u.sp.state = s.sp.state
  time : u.timeBase = s.timeBase
  prof : ∃ t, u.prof = s.prof.merge t

theorem LockInputs.refl (s : State) : LockInputs s s := ⟨rfl, rfl, rfl, rfl, rfl, rfl, rfl, rfl, rfl, TuneSet.empty, rfl⟩

theorem merge_merge_fixed (p : Profile) (t u : TuneSet) : ∃ v, (p.merge t).merge u = p.merge v := by
  refine ⟨⟨u.race.or t.race, u.raceMargin.or t.raceMargin, u.tear.or t.tear, u.spliceLimit.or t.spliceLimit,
    u.holdTimeout.or t.holdTimeout, u.blankColour.or t.blankColour, u.mask.or t.mask, u.lut.or t.lut⟩, ?_⟩
  have hor {α : Type} (a b : Option α) (d : α) : a.getD (b.getD d) = (a.or b).getD d := by cases a <;> rfl
  simp only [Profile.merge, hor]
  congr 1
  cases u.spliceLimit <;> rfl

theorem LockInputs.trans {s u v : State} (h : LockInputs s u) (g : LockInputs u v) : LockInputs s v := by
  obtain ⟨t, ht⟩ := h.prof
  obtain ⟨t', ht'⟩ := g.prof
  obtain ⟨t'', hm⟩ := merge_merge_fixed s.prof t t'
  exact ⟨g.lock.trans h.lock, g.good.trans h.good, g.bad.trans h.bad, g.armed.trans h.armed, g.nextFixed.trans h.nextFixed,
    g.admitted.trans h.admitted, g.ti.trans h.ti, g.state.trans h.state, g.time.trans h.time, t'', by rw [ht', ht, hm]⟩

/-- A state that differs in none of them. -/
theorem LockInputs.of_eq {s u : State} (hotg : u.otg.lock = s.otg.lock) (hpu : u.pu = s.pu) (hsp : u.sp = s.sp)
    (hpc : u.pc.active = s.pc.active) (ht : u.timeBase = s.timeBase) : LockInputs s u :=
  ⟨hotg, by rw [hpu], by rw [hpu], by rw [hpu], by rw [hpu], by rw [hpu], by rw [hpu], by rw [hsp], ht, TuneSet.empty,
    congrArg (Option.getD · Profile.absent) hpc⟩

theorem LockInputs.acquires {s u : State} (h : LockInputs s u) : u.acquires ↔ s.acquires := by
  obtain ⟨t, ht⟩ := h.prof
  simp only [State.acquires, h.lock, h.admitted, h.state, ht]
  rfl

theorem LockInputs.armedAs {s u : State} (h : LockInputs s u) : LockInputs s.armedAs u.armedAs := by
  obtain ⟨t, ht⟩ := h.prof
  have ha : u.acquires = s.acquires := propext h.acquires
  refine ⟨?_, ?_, ?_, ?_, ?_, h.admitted, h.ti, h.state, h.time, t, ht⟩
  all_goals simp only [State.armedAs, ha, h.lock, h.good, h.bad, h.armed, h.nextFixed, h.ti, ht]
  all_goals rfl

theorem setLock_fields (l : Lock) (s : State) (hl : l ≠ .freeRun) :
    (setLock l s).otg.lock = l ∧ (setLock l s).pu.armed = s.pu.armed ∧ (setLock l s).pu.nextFixed = s.pu.nextFixed ∧
      (s.otg.lock ≠ l → (setLock l s).pu.good = 0 ∧ (setLock l s).pu.bad = 0) := by
  rw [setLock]
  split
  next he => exact ⟨he, rfl, rfl, fun h => absurd he h⟩
  · simp [hl]

/-- What a measurement reads and writes (R60 to R64, R82). -/
theorem LockInputs.measureFrom {s u : State} (h : LockInputs s u) (armedAt : Time) :
    LockInputs (measureFrom armedAt s) (measureFrom armedAt u) := by
  obtain ⟨t, ht⟩ := h.prof
  have hm : u.measures = s.measures := by
    simp only [State.measures, h.lock, h.armed, ht]
    rfl
  simp only [Machine.measureFrom, hm]
  split
  swap
  · exact h
  · have hcounted : LockInputs (s.setPu (countMeasurement s.prof (phaseError s.prof (elapsed s.now armedAt)) s.otg.lock
        { s.pu with
          armed := false
          nextFixed := fixedFrom s.prof s.pu (correction s.prof s.otg.lock (phaseError s.prof (elapsed s.now armedAt))) }))
        (u.setPu (countMeasurement u.prof (phaseError u.prof (elapsed u.now armedAt)) u.otg.lock
        { u.pu with
          armed := false
          nextFixed := fixedFrom u.prof u.pu (correction u.prof u.otg.lock (phaseError u.prof (elapsed u.now armedAt))) })) := by
      have hnow : u.now = s.now := h.time
      refine ⟨h.lock, ?_, ?_, ?_, ?_, ?_, ?_, h.state, h.time, t, ht⟩
      all_goals
        simp only [State.setPu_fields, h.lock, ht, hnow]
        cases s.otg.lock <;>
          simp [countMeasurement, fixedFrom, h.good, h.bad, h.ti, h.admitted, h.nextFixed] <;> rfl
    generalize s.setPu _ = s' at hcounted ⊢
    generalize u.setPu _ = u' at hcounted ⊢
    have hmove (l : Lock) (hl : l ≠ .freeRun) : LockInputs (setLock l s') (setLock l u') := by
      obtain ⟨h1, h2, h3, h4⟩ := setLock_fields l s' hl
      obtain ⟨g1, g2, g3, g4⟩ := setLock_fields l u' hl
      by_cases he : s'.otg.lock = l
      · rw [setLock, setLock, if_pos he, if_pos (hcounted.lock.trans he)]
        exact hcounted
      · obtain ⟨h5, h6⟩ := h4 he
        obtain ⟨g5, g6⟩ := g4 (by rw [hcounted.lock]; exact he)
        refine ⟨g1.trans h1.symm, g5.trans h5.symm, g6.trans h6.symm, ?_, ?_, ?_, ?_, ?_, ?_, ?_⟩
        · rw [g2, h2, hcounted.armed]
        · rw [g3, h3, hcounted.nextFixed]
        · simpa using hcounted.admitted
        · simpa using hcounted.ti
        · simpa using hcounted.state
        · simpa using hcounted.time
        · simpa [State.prof] using hcounted.prof
    simp only [takeReport, hcounted.lock]
    cases s'.otg.lock with
    | freeRun => exact hcounted
    | acquire =>
      simp only [hcounted.good]
      split
      · exact hmove .track nofun
      · exact hcounted
    | track =>
      simp only [hcounted.bad]
      split
      · exact hmove .acquire nofun
      · exact hcounted

/-- A step of the lock: a move raises LOCK_STATE, and nothing else does (R84). -/
structure LockMoves (u v : State) : Prop where
  moved : v.otg.lock ≠ u.otg.lock → u.noticed v (.lockState v.otg.lock)
  kept : v.otg.lock = u.otg.lock → NoticeKept 1 u v

theorem LockMoves.of_kept {u v : State} (hl : v.otg.lock = u.otg.lock) (h : NoticeKept 1 u v) : LockMoves u v :=
  ⟨fun hne => absurd hl hne, fun _ => h⟩

theorem setLock_moves (l : Lock) (s : State) : LockMoves s (setLock l s) := by
  rw [setLock]
  split
  · exact .of_kept rfl (.refl 1 s)
  next hne =>
    refine ⟨fun _ => ?_, fun h => ?_⟩
    · simp only [raise_frame, State.setPu_fields, State.setOtg_fields]
      exact raise_noticed s _ _ rfl
    · simp at h
      exact absurd h.symm hne

/-- Two steps of the lock of which at most one moves it. -/
theorem LockMoves.trans {u v w : State} (h : LockMoves u v) (g : LockMoves v w)
    (hone : v.otg.lock = u.otg.lock ∨ w.otg.lock = v.otg.lock) : LockMoves u w := by
  rcases hone with huv | hvw
  · refine ⟨fun hne => ?_, fun he => (h.kept huv).trans (g.kept (he.trans huv.symm))⟩
    exact noticed_from (h.kept huv) (g.moved fun e => hne (e.trans huv))
  · refine ⟨fun hne => ?_, fun he => (h.kept (hvw.symm.trans he)).trans (g.kept hvw)⟩
    rw [hvw] at hne ⊢
    exact noticed_of_kept (h.moved hne) (g.kept hvw)

theorem takeReport_moves (s : State) : LockMoves s (takeReport s) := by
  have hstay : LockMoves s s := .of_kept rfl (.refl 1 s)
  rw [takeReport]
  cases s.otg.lock with
  | freeRun => exact hstay
  | acquire =>
    simp only
    split
    · exact setLock_moves .track s
    · exact hstay
  | track =>
    simp only
    split
    · exact setLock_moves .acquire s
    · exact hstay

theorem measureFrom_moves (armedAt : Time) (s : State) : LockMoves s (measureFrom armedAt s) := by
  rw [measureFrom]
  split
  swap
  · exact .of_kept rfl (.refl 1 s)
  · have htake (x : PacingUnit) : LockMoves s (takeReport (s.setPu x)) :=
      LockMoves.trans (v := s.setPu x) (.of_kept rfl (.of_ml rfl rfl)) (takeReport_moves _) (.inl rfl)
    exact htake _

theorem lockAndArm_moves (expired : Bool) (s : State) : LockMoves s (lockAndArm expired s) := by
  have hload : LockMoves s (loadFixed expired s) := by
    cases expired
    · exact .of_kept rfl (.refl 1 s)
    · exact .of_kept rfl (.of_ml rfl rfl)
  have hsame : (loadFixed expired s).otg.lock = s.otg.lock := by cases expired <;> rfl
  have htest : LockMoves (loadFixed expired s) (lockTest (loadFixed expired s)) := by
    rw [lockTest]
    split
    · exact setLock_moves _ _
    · exact .of_kept rfl (.refl 1 _)
  have harm : LockMoves (lockTest (loadFixed expired s)) (armMeasurement (lockTest (loadFixed expired s))) := by
    rw [armMeasurement]
    split
    · exact .of_kept rfl (.of_ml rfl rfl)
    · exact .of_kept rfl (.refl 1 _)
  have hlast : (armMeasurement (lockTest (loadFixed expired s))).otg.lock = (lockTest (loadFixed expired s)).otg.lock := by
    simp
  exact hload.trans (htest.trans harm (.inr hlast)) (.inl hsame)

/-- The arming and the test at a refresh start, in full (R60, R63, R81). -/
theorem lockAndArm_inputs (expired : Bool) (s : State) : LockInputs s.armedAs (lockAndArm expired s) := by
  obtain ⟨hlock, hgood, hbad, harmed, hnext, -⟩ := lockAndArm_lockAs expired s
  have hframe : (lockAndArm expired s).pu.admitted = s.pu.admitted ∧ (lockAndArm expired s).pu.ti = s.pu.ti ∧
      (lockAndArm expired s).sp = s.sp ∧ (lockAndArm expired s).timeBase = s.timeBase ∧ (lockAndArm expired s).pc = s.pc := by
    cases expired <;> simp [lockAndArm, loadFixed]
  obtain ⟨hadmitted, hti, hsp, htime, hpc⟩ := hframe
  exact ⟨hlock, hgood, hbad, harmed, hnext, hadmitted, hti, congrArg SourcePort.state hsp, htime, TuneSet.empty,
    congrArg (fun c : ProfileCtl => c.active.getD Profile.absent) hpc⟩

end Sys2Proof.Machine
end

section
/-! A refresh start: the scan begins, the timers are loaded, and the lock and the pacing unit take it (R60, R63, R70, R72,
R79, R81, R123). -/

namespace Sys2Proof.Machine

theorem refreshBy_begun (expired planned : Bool) (s : State) : s.refreshBegun (settle (refreshBy expired planned s)) := by
  have hcs : (refreshBy expired planned s).cs = (if s.cs.shadowPending then
      { s.cs with active := s.cs.shadow, shadow := s.cs.active, shadowPending := false } else s.cs) := by
    have hexchange (u : State) (hu : u.cs = s.cs) : (bankExchange u).cs = (if s.cs.shadowPending then
        { s.cs with active := s.cs.shadow, shadow := s.cs.active, shadowPending := false } else s.cs) := by
      rw [bankExchange, hu]
      split
      · simp [ColourStage.exchanged]
      · exact hu
    rw [refreshBy]
    exact hexchange _ (by simp [beginScan])
  refine ⟨?_, ?_, ?_, ?_, ?_, ?_, ?_, ?_, ?_, ?_, ?_, ?_, ?_⟩
  all_goals simp only [settle_frame]
  case refine_9 => exact hcs
  all_goals simp [refreshBy, beginScan, State.now]

/-- A merge leaves what the timers are loaded from (R141). -/
theorem prof_of_merged {s t : State} (h : PcMerged s t) : ∃ u, t.prof = s.prof.merge u := by
  rcases h with h | h
  · exact ⟨TuneSet.empty, by rw [State.prof, h]; rfl⟩
  · rw [State.prof, h]
    simp only [mergeTune, State.setPc_fields, State.prof]
    cases s.pc.active with
    | none => exact ⟨TuneSet.empty, rfl⟩
    | some p => exact ⟨s.pc.tune, rfl⟩

theorem refreshBy_loaded (expired planned : Bool) {s : State} (hmode : s.otg.mode = some .adaptive) :
    s.repeatLoaded (settle (refreshBy expired planned s)) planned := by
  let c := mergeAndChoose (beginScan s)
  have hotg : c.otg = (beginScan s).otg := (mergeAndChoose_lock _).1
  have hload : loadRepeat planned c = c.setOtg { c.otg with
      planCount := (repeatLoad c planned).1, repeatTimer := c.timerAfter (repeatLoad c planned).2, keptRepeat := false } := by
    rw [loadRepeat, if_pos]
    rw [hotg]
    exact hmode
  have hlate : (refreshBy expired planned s).otg.planCount = (loadRepeat planned c).otg.planCount ∧
      (refreshBy expired planned s).otg.repeatTimer = (loadRepeat planned c).otg.repeatTimer ∧
      (refreshBy expired planned s).otg.keptRepeat = (loadRepeat planned c).otg.keptRepeat ∧
      (refreshBy expired planned s).otg.tminTimer = (loadRepeat planned c).otg.tminTimer ∧
      (refreshBy expired planned s).ps.lastKind = (loadRepeat planned c).ps.lastKind := by
    simp [refreshBy, c]
  rw [hload] at hlate
  obtain ⟨hcount, htimer, hkept, htmin, hkind⟩ := hlate
  have hpu : c.pu.planActive = s.pu.planActive ∧ c.pu.k = s.pu.k ∧ c.pu.tr = s.pu.tr ∧ c.timeBase = s.timeBase := by
    simp [c]
  obtain ⟨hactive, hk, htr, htime⟩ := hpu
  have hmax : c.prof.winMax = s.prof.winMax := by
    obtain ⟨u, hu⟩ := prof_of_merged (PcMerged.trans (.of_eq (by simp)) (mergeAndChoose_pc (beginScan s)) : PcMerged s c)
    rw [hu]
    rfl
  have hplan : c.otg.planCount = s.otg.planCount := by
    rw [hotg]
    rfl
  unfold State.repeatLoaded
  simp only [settle_frame, hkept, hcount, htimer, htmin, hkind, State.setOtg_fields, State.timerAfter, State.now, htime]
  refine ⟨trivial, ?_, ?_⟩
  · rw [hotg]
    simp [beginScan, hmode, State.timerAfter, State.now]
  · simp only [repeatLoad, hactive, hk, htr, hmax, hplan]
    by_cases hnew : c.ps.lastKind = some .new
    · by_cases hp : s.pu.planActive = true
      · simp [hnew, hp]
      · simp [hnew, hp]
    · by_cases hp : planned = true
      · have hone : (0 < s.otg.planCount - 1) = (1 < s.otg.planCount) := propext (by omega)
        simp only [if_neg hnew, hp, if_true, hone]
        simp [hnew]
      · simp [hnew, hp]

theorem measureFrom_of_freeRun {s : State} (h : s.otg.lock = .freeRun) (armedAt : Time) : measureFrom armedAt s = s :=
  if_neg (by simp [State.measures, h])

theorem takeReport_ne_freeRun {s : State} (h : s.otg.lock ≠ .freeRun) : (takeReport s).otg.lock ≠ .freeRun := by
  have hto (l : Lock) (hl : l ≠ .freeRun) : (setLock l s).otg.lock ≠ .freeRun := by
    rw [(setLock_fields l s hl).1]
    exact hl
  rw [takeReport]
  cases hl : s.otg.lock with
  | freeRun => exact absurd hl h
  | acquire =>
    simp only
    split
    · exact hto .track nofun
    · exact h
  | track =>
    simp only
    split
    · exact hto .acquire nofun
    · exact h

theorem measureFrom_ne_freeRun {s : State} (h : s.otg.lock ≠ .freeRun) (armedAt : Time) :
    (measureFrom armedAt s).otg.lock ≠ .freeRun := by
  rw [measureFrom]
  split
  · exact takeReport_ne_freeRun (s := s.setPu _) h
  · exact h

/-- One measurement alone does not move the lock out of a fresh ACQUIRE (R64, R82). -/
theorem measureFrom_of_fresh {s : State} (h : s.otg.lock = .acquire) (hgood : s.pu.good = 0) (armedAt : Time) :
    (measureFrom armedAt s).otg.lock = s.otg.lock := by
  rw [measureFrom]
  split
  swap
  · rfl
  · simp only [takeReport, State.setPu_fields, h, countMeasurement, hgood]
    rw [if_neg]
    · exact h
    · split <;> omega

theorem lockAndArm_lock {s : State} (h : s.otg.lock ≠ .freeRun) (expired : Bool) :
    (lockAndArm expired s).otg.lock = s.otg.lock := by
  rw [(lockAndArm_inputs expired s).lock]
  exact if_neg fun ha => h ha.1

theorem lockAndArm_fixedTimer (s : State) :
    (lockAndArm true s).otg.fixedTimer = .running (plusTicks s.timeBase s.pu.nextFixed) := by
  simp [lockAndArm, loadFixed, State.timerAfter, State.now]

/-- The lock after a refresh start, from what the pacing unit left of it. -/
theorem lockAs_of_inputs {s x t u : State} (hin : LockInputs x t) (hmoves : LockMoves s t) (hu : LockSame t u)
    (harmed : u.pu.armed = t.pu.armed) (ht : t.timeBase = s.timeBase) : s.lockAs x (settle u) := by
  refine ⟨?_, ?_, ?_, ?_, ?_, fun hne => ?_⟩
  · simpa using hu.lock.trans hin.lock
  · simpa using hu.good.trans hin.good
  · simpa using hu.bad.trans hin.bad
  · simpa using harmed.trans hin.armed
  · simpa using hu.nextFixed.trans hin.nextFixed
  · rw [← hin.lock] at hne ⊢
    exact noticed_settle (noticed_of_kept (hmoves.moved hne) hu.notice) (hu.notice.timeBase.trans ht)

theorem bankExchange_lockSame (s : State) : LockSame s (bankExchange s) :=
  ⟨by simp, by simp, by simp, by simp, ⟨by simp, by simp, by simp, by simp⟩⟩

variable {s w : State} {expired : Bool}

/-- A refresh start that no eligibility event meets (R60, R63, R79, R81). -/
theorem lockAndArm_taken (hin : LockInputs s w) (hkept : NoticeKept 1 s w)
    (hexpired : s.otg.mode = some .fixed → expired = true) :
    s.startTaken (settle (bankExchange (lockAndArm expired w))) := by
  have hmoves : LockMoves s (lockAndArm expired w) :=
    LockMoves.trans (.of_kept hin.lock hkept) (lockAndArm_moves expired w) (.inl hin.lock)
  have hinputs := hin.armedAs.trans (lockAndArm_inputs expired w)
  refine ⟨lockAs_of_inputs hinputs hmoves (bankExchange_lockSame _) (by simp) hinputs.time, fun hmode => ?_⟩
  obtain rfl := hexpired hmode
  simp only [settle_frame, bankExchange_frame, lockAndArm_fixedTimer, hin.time, hin.nextFixed]

/-- A refresh start that an eligibility event meets, in either order (R60, R79; Log 11). -/
theorem takeStart_met (hin : LockInputs s w) (hkept : NoticeKept 1 s w) (hlast : w.otg.tLast = s.timeBase)
    (hexpired : s.otg.mode = some .fixed → expired = true) (eventFirst : Bool) :
    s.startMet (settle (bankExchange (takeStart expired true eventFirst s.otg.tLast w))) := by
  have hstart : LockMoves s w := .of_kept hin.lock hkept
  cases eventFirst with
  | true =>
    left
    have hmeasured : s.measured = measureFrom s.otg.tLast s := (phaseMeasure_eq_measured s).symm
    have hm : LockInputs s.measured (measureFrom s.otg.tLast w) := hmeasured ▸ hin.measureFrom _
    have hinputs := hm.armedAs.trans (lockAndArm_inputs expired _)
    have hone : (measureFrom s.otg.tLast w).otg.lock = w.otg.lock ∨
        (lockAndArm expired (measureFrom s.otg.tLast w)).otg.lock = (measureFrom s.otg.tLast w).otg.lock := by
      by_cases hfree : w.otg.lock = .freeRun
      · exact .inl (by rw [measureFrom_of_freeRun hfree])
      · exact .inr (lockAndArm_lock (measureFrom_ne_freeRun hfree _) expired)
    have hmoves := hstart.trans ((measureFrom_moves s.otg.tLast w).trans (lockAndArm_moves expired _) hone) (.inl hin.lock)
    have htime : s.measured.timeBase = s.timeBase := by
      rw [hmeasured]
      simp
    refine ⟨lockAs_of_inputs hinputs hmoves (bankExchange_lockSame _) (by simp [takeStart]) (hinputs.time.trans htime),
      fun hmode => ?_⟩
    obtain rfl := hexpired hmode
    simp only [settle_frame, bankExchange_frame, takeStart, lockAndArm_fixedTimer, hm.time, hm.nextFixed, htime]
  | false =>
    right
    have ha := hin.armedAs.trans (lockAndArm_inputs expired w)
    have hmeasured : s.armedAs.measured = measureFrom s.timeBase s.armedAs := (phaseMeasure_eq_measured s.armedAs).symm
    have hlast' : (lockAndArm expired w).otg.tLast = s.timeBase := by
      rw [← hlast]
      cases expired <;> simp [lockAndArm, loadFixed]
    have hmeasure : phaseMeasure (lockAndArm expired w) = measureFrom s.timeBase (lockAndArm expired w) := by
      rw [phaseMeasure, hlast']
    have hinputs : LockInputs s.armedAs.measured (phaseMeasure (lockAndArm expired w)) := by
      rw [hmeasured, hmeasure]
      exact ha.measureFrom _
    have hone : (lockAndArm expired w).otg.lock = w.otg.lock ∨
        (phaseMeasure (lockAndArm expired w)).otg.lock = (lockAndArm expired w).otg.lock := by
      by_cases hacq : s.acquires
      · refine .inr ?_
        have hl : (lockAndArm expired w).otg.lock = .acquire := ha.lock.trans (if_pos hacq)
        have hg : (lockAndArm expired w).pu.good = 0 := ha.good.trans (if_pos hacq)
        exact measureFrom_of_fresh hl hg _
      · refine .inl ?_
        rw [ha.lock, hin.lock]
        exact if_neg hacq
    have hmoves : LockMoves s (phaseMeasure (lockAndArm expired w)) :=
      hstart.trans ((lockAndArm_moves expired w).trans (measureFrom_moves _ _) hone) (.inl hin.lock)
    have htime : s.armedAs.measured.timeBase = s.timeBase := by
      rw [hmeasured]
      simp [State.armedAs]
    refine ⟨lockAs_of_inputs hinputs hmoves (bankExchange_lockSame _) (by simp [takeStart]) (hinputs.time.trans htime),
      fun hmode => ?_⟩
    obtain rfl := hexpired hmode
    have hkeeps : (phaseMeasure (lockAndArm true w)).otg.fixedTimer = (lockAndArm true w).otg.fixedTimer := by simp
    simp only [settle_frame, bankExchange_frame, takeStart, hkeeps, lockAndArm_fixedTimer, hin.time, hin.nextFixed]

end Sys2Proof.Machine
end

section
/-! A refresh start with no tune field pending (R60, R70, R79, R81, R92). -/

namespace Sys2Proof.Machine

theorem setLock_kept {i : Fin 5} (hi : i ≠ 1) (l : Lock) (s : State) : NoticeKept i s (setLock l s) := by
  rw [setLock]
  split
  · exact .refl i s
  · exact .raise_of_ml (n := .lockState l) (Ne.symm hi) rfl rfl

theorem measureFrom_kept {i : Fin 5} (hi : i ≠ 1) (armedAt : Time) (s : State) :
    NoticeKept i s (measureFrom armedAt s) := by
  have htake (u : State) (hu : NoticeKept i s u) : NoticeKept i s (takeReport u) := by
    rw [takeReport]
    cases u.otg.lock with
    | freeRun => exact hu
    | acquire =>
      simp only
      split
      · exact hu.trans (setLock_kept hi .track u)
      · exact hu
    | track =>
      simp only
      split
      · exact hu.trans (setLock_kept hi .acquire u)
      · exact hu
  rw [measureFrom]
  split
  · exact htake _ (.of_ml rfl rfl)
  · exact .refl i s

theorem lockAndArm_kept {i : Fin 5} (hi : i ≠ 1) (expired : Bool) (s : State) : NoticeKept i s (lockAndArm expired s) := by
  have hload : NoticeKept i s (loadFixed expired s) := by
    cases expired
    · exact .refl i s
    · exact .of_ml rfl rfl
  have htest : NoticeKept i (loadFixed expired s) (lockTest (loadFixed expired s)) := by
    rw [lockTest]
    split
    · exact setLock_kept hi .acquire _
    · exact .refl i _
  have harm : NoticeKept i (lockTest (loadFixed expired s)) (lockAndArm expired s) := by
    rw [lockAndArm, armMeasurement]
    split
    · exact .of_ml rfl rfl
    · exact .refl i _
  exact hload.trans (htest.trans harm)

theorem takeStart_kept {i : Fin 5} (hi : i ≠ 1) (expired event eventFirst : Bool) (armedAt : Time) (s : State) :
    NoticeKept i s (takeStart expired event eventFirst armedAt s) := by
  cases event with
  | false => exact lockAndArm_kept hi expired s
  | true =>
    cases eventFirst with
    | true => exact (measureFrom_kept hi armedAt s).trans (lockAndArm_kept hi expired _)
    | false => exact (lockAndArm_kept hi expired s).trans (measureFrom_kept hi _ _)

theorem bankExchange_kept (i : Fin 5) (s : State) : NoticeKept i s (bankExchange s) :=
  ⟨by simp, by simp, by simp, by simp⟩

theorem loadRepeat_kept (i : Fin 5) (planned : Bool) (s : State) : NoticeKept i s (loadRepeat planned s) := by
  rw [loadRepeat]
  split
  · exact .of_ml rfl rfl
  · exact .refl i s

/-- What the choice shows stays shown to the end of the refresh start. -/
theorem choiceShown_refresh {s c : State} (expired planned event eventFirst : Bool) (armedAt : Time) (h : s.choiceShown c)
    (ht : c.timeBase = s.timeBase) : s.choiceShown (settle (bankExchange
      (takeStart expired event eventFirst armedAt (loadRepeat planned c)))) := by
  refine choiceShown_of_same h (by simp) (by simp) fun n hn hnoticed => noticed_settle ?_ (by simp [ht])
  have h1 : n.kind ≠ 1 := by simp [hn]
  exact noticed_of_kept (noticed_of_kept (noticed_of_kept hnoticed (loadRepeat_kept _ planned c))
    (takeStart_kept h1 expired event eventFirst armedAt _)) (bankExchange_kept _ _)

/-- The lock's share touches nothing else of the pacing unit. -/
theorem lockAndArm_pu (expired : Bool) (s : State) : (lockAndArm expired s).pu = { s.pu with
    armed := (lockAndArm expired s).pu.armed
    nextFixed := (lockAndArm expired s).pu.nextFixed
    good := (lockAndArm expired s).pu.good
    bad := (lockAndArm expired s).pu.bad } := by
  have hload : (loadFixed expired s).pu = s.pu := by cases expired <;> rfl
  have hset (l : Lock) (u : State) : (setLock l u).pu = { u.pu with
      armed := (setLock l u).pu.armed, nextFixed := (setLock l u).pu.nextFixed, good := (setLock l u).pu.good
      bad := (setLock l u).pu.bad } := by
    rw [setLock]
    split
    · rfl
    · simp
  have htest : (lockTest (loadFixed expired s)).pu = { s.pu with
      armed := (lockTest (loadFixed expired s)).pu.armed, nextFixed := (lockTest (loadFixed expired s)).pu.nextFixed
      good := (lockTest (loadFixed expired s)).pu.good, bad := (lockTest (loadFixed expired s)).pu.bad } := by
    rw [lockTest]
    split
    · rw [← hload]
      exact hset .acquire _
    · rw [hload]
  rw [lockAndArm, armMeasurement]
  split
  · simp only [State.setPu_fields]
    rw [htest]
  · exact htest

theorem beginScan_choiceShown (s t : State) : (beginScan s).choiceShown t ↔ s.choiceShown t := Iff.rfl

theorem beginScan_shownPool (s : State) : (beginScan s).shownPool = s.shownPool := rfl

theorem loadRepeat_inputs (planned : Bool) (s : State) : LockInputs s (loadRepeat planned s) := by
  rw [loadRepeat]
  split
  · exact .of_eq rfl rfl rfl rfl rfl
  · exact .refl s

theorem refreshBy_started (expired planned : Bool) {s : State} (htune : s.pc.tune = TuneSet.empty)
    (hexpired : s.otg.mode = some .fixed → expired = true) : s.refreshStarted (settle (refreshBy expired planned s)) := by
  let c := chooseRefresh (beginScan s)
  let w := loadRepeat planned c
  have hchosen : mergeAndChoose (beginScan s) = c := if_pos htune
  have hframe : w.pool = s.shownPool ∧ w.pc = s.pc ∧ w.pu = s.pu ∧ w.ps.q = s.ps.q := by
    simp [w, c, chooseRefresh_pool, beginScan_shownPool]
  obtain ⟨hpool, hpc, hpu, hq⟩ := hframe
  have hevent : s.marksSince w = false := by
    rw [State.marksSince, List.any_eq_false]
    intro k _
    rw [Bool.and_eq_true, not_and, Bool.not_eq_true']
    intro hk hw
    rw [State.slot, hpool] at hw
    rw [shownPool_eligible hw] at hk
    cases hk
  have heq : refreshBy expired planned s = bankExchange (lockAndArm expired w) := by
    simp only [refreshBy, hchosen]
    rw [show s.marksSince (loadRepeat planned c) = false from hevent]
    rfl
  have hin : LockInputs s w := by
    refine LockInputs.trans (u := beginScan s) (.of_eq rfl rfl rfl rfl rfl) (LockInputs.trans (u := c) ?_ (loadRepeat_inputs _ c))
    exact .of_eq (by simp [c]) (by simp [c]) (by simp [c]) (by simp [c]) (by simp [c])
  have hkept : NoticeKept 1 s w := by
    refine NoticeKept.trans (v := beginScan s) (.of_ml rfl rfl) (NoticeKept.trans (v := c) ?_ (loadRepeat_kept 1 planned c))
    exact chooseRefresh_kept (by decide) _
  have hshown := choiceShown_refresh expired planned false true s.otg.tLast
    ((beginScan_choiceShown s c).mp (chooseRefresh_choiceShown (beginScan s))) (by simp [c, beginScan])
  refine ⟨refreshBy_begun expired planned s, ?_, ?_, ?_, ?_, ?_, ?_⟩ <;> rw [heq]
  · exact hshown
  · simpa using hpool
  · simpa using hq
  · exact lockAndArm_taken hin hkept hexpired
  · simpa using hpc
  · have h := lockAndArm_pu expired w
    rw [hpu] at h
    simp only [settle_frame, bankExchange_frame]
    exact h

end Sys2Proof.Machine
end

section
/-! A refresh start with tune fields pending (R13, R57, R98, R141; Log 10, Log 11). -/

namespace Sys2Proof.Machine

/-- The race test marks candidate `k` under this Q (R12, R13). -/
structure State.Marks (s : State) (q : Option Nat) (k : Slot) : Prop where
  filling : s.pool.filling = some k
  cand : k ∈ s.pool.cands
  clear : (s.slot k).eligible = false
  race : s.prof.race = true
  healthy : s.sp.state.healthy = true
  reached : q.any (fun n => decide (n ≤ (s.slot k).filled)) = true

variable {s : State} {q : Option Nat} {k : Slot}

theorem marked_of_marks (h : s.Marks q k) :
    s.marked q = { s with pool := s.pool.setSlot k { s.slot k with eligible := true } } := by
  simp only [State.marked, h.filling]
  exact if_pos ⟨h.cand, h.clear, h.race, h.healthy, h.reached⟩

theorem marked_of_not (h : ∀ k, ¬ s.Marks q k) : s.marked q = s := by
  rw [State.marked]
  split
  next k hk =>
    refine if_neg fun hm => h k ?_
    obtain ⟨hcand, hclear, hrace, hhealthy, hreached⟩ := hm
    exact ⟨hk, hcand, hclear, hrace, hhealthy, hreached⟩
  · rfl

theorem marked_slot_of_marks (h : s.Marks q k) : ((s.marked q).slot k).eligible = true := by
  rw [marked_of_marks h]
  exact congrArg SlotRec.eligible (slot_setSlot_self s k { s.slot k with eligible := true })

theorem marked_eq_self_iff : s.marked q = s ↔ ∀ k, ¬ s.Marks q k := by
  refine ⟨fun h k hk => ?_, marked_of_not⟩
  have hslot := marked_slot_of_marks hk
  rw [h, hk.clear] at hslot
  cases hslot

/-- The mark changes the slots alone. -/
theorem marked_eq (s : State) (q : Option Nat) :
    s.marked q = { s with pool := { s.pool with slots := (s.marked q).pool.slots } } := by
  by_cases h : ∃ k, s.Marks q k
  · obtain ⟨k, hk⟩ := h
    rw [marked_of_marks hk]
    rfl
  · rw [marked_of_not fun k hk => h ⟨k, hk⟩]

/-- The mark reads nothing of these blocks. -/
theorem marked_of_blocks (s : State) (q : Option Nat) (o : OutputTiming) (pan : PanelPort) (ch : Nat) (ps : Scheduler)
    (ring : List FrameRec) (ml : MessageLink) :
    State.marked { s with otg := o, panel := pan, choices := ch, ps := ps, hr := ring, ml := ml } q =
      { s.marked q with otg := o, panel := pan, choices := ch, ps := ps, hr := ring, ml := ml } := by
  by_cases h : ∃ k, s.Marks q k
  · obtain ⟨k, hk⟩ := h
    have hk' : State.Marks { s with otg := o, panel := pan, choices := ch, ps := ps, hr := ring, ml := ml } q k :=
      ⟨hk.filling, hk.cand, hk.clear, hk.race, hk.healthy, hk.reached⟩
    rw [marked_of_marks hk, marked_of_marks hk']
    rfl
  · have h' (k : Slot) : ¬ State.Marks { s with otg := o, panel := pan, choices := ch, ps := ps, hr := ring, ml := ml } q k :=
      fun hk => h ⟨k, hk.filling, hk.cand, hk.clear, hk.race, hk.healthy, hk.reached⟩
    rw [marked_of_not h', marked_of_not fun k hk => h ⟨k, hk⟩]

theorem judges_iff_marks (hroles : s.pool.rolesHold) : (s.qPublished q).judges k = true ↔ s.Marks q k := by
  have hof (hk : s.pool.filling = some k) : (s.qPublished q).judges k = true ↔ s.Marks q k := by
    obtain ⟨-, hfill, -⟩ := id hroles
    rw [judges_of_filling (s := s.qPublished q) ((hfill k).mpr hk)]
    refine ⟨fun ⟨hc, he, hr, hh, n, hn, hle⟩ => ⟨hk, hc, he, hr, hh, ?_⟩, fun h => ?_⟩
    · rw [show q = some n from hn]
      exact decide_eq_true hle
    · obtain _ | n := q
      · exact absurd h.reached (by simp)
      · have hle : n ≤ (s.slot k).filled := by simpa using h.reached
        exact ⟨h.cand, h.clear, h.race, h.healthy, n, rfl, hle⟩
  exact ⟨fun hj => (hof (filling_of_judges (s := s.qPublished q) hroles hj)).mp hj, fun h => (hof h.filling).mpr h⟩

/-- A publication whose events go nowhere marks, and does nothing else (R13, R57). -/
theorem judgeAll_eq_marked {event : State → State} (hevent : ∀ u : State, u.ps.watchOpen = s.ps.watchOpen → event u = u)
    (hroles : s.pool.rolesHold) (q : Option Nat) : judgeAll event (s.qPublished q) = (s.marked q).qPublished q := by
  by_cases h : ∃ k, s.Marks q k
  · obtain ⟨k, hk⟩ := h
    rw [judgeAll_of_judges (s := s.qPublished q) event hroles ((judges_iff_marks hroles).mpr hk), marked_of_marks hk, hevent]
    · rfl
    · rfl
  · have hquiet (k : Slot) : (s.qPublished q).judges k = false := by
      rw [← Bool.not_eq_true, judges_iff_marks hroles]
      exact fun hk => h ⟨k, hk⟩
    rw [judgeAll_of_quiet event hquiet, marked_of_not fun k hk => h ⟨k, hk⟩]

/-- The marks that a change of Q to `q` brings (R13, R57). -/
def State.published (s : State) (old q : Option Nat) : State := if q = old then s else s.marked q

theorem published_eq (s : State) (old q : Option Nat) :
    s.published old q = { s with pool := { s.pool with slots := (s.published old q).pool.slots } } := by
  rw [State.published]
  split
  · rfl
  · exact marked_eq s q

theorem published_of_blocks (s : State) (old q : Option Nat) (o : OutputTiming) (pan : PanelPort) (ch : Nat) (ps : Scheduler)
    (ring : List FrameRec) (ml : MessageLink) :
    State.published { s with otg := o, panel := pan, choices := ch, ps := ps, hr := ring, ml := ml } old q =
      { s.published old q with otg := o, panel := pan, choices := ch, ps := ps, hr := ring, ml := ml } := by
  simp only [State.published]
  split
  · rfl
  · exact marked_of_blocks s q o pan ch ps ring ml

theorem PacingUnit.with_q_self (x : PacingUnit) {old : Option Nat} (hq : x.q = old) (hlast : x.lastQ = old) :
    { x with q := old, lastQ := old } = x := by
  subst hq
  cases x
  cases hlast
  rfl

/-- Publishing the Q that all copies hold changes nothing. -/
theorem qPublished_self {u : State} {old : Option Nat} (hq : u.pu.q = old) (hlast : u.pu.lastQ = old)
    (hpool : u.pool.q = old) (hps : u.ps.q = old) : u.qPublished old = u := by
  have hpu := u.pu.with_q_self hq hlast
  have hp : { u.pool with q := old } = u.pool := by rw [← hpool]
  have hs : { u.ps with q := old } = u.ps := by rw [← hps]
  rw [State.qPublished]
  simp only [State.setPu, State.setPool, State.setPs, hpu, hp, hs]

/-- The publication after a merge, with the copies of Q in agreement before it (R57, R141). -/
theorem publishMargin_eq {u : State} {old : Option Nat} (changed : Bool) (hroles : u.pool.rolesHold)
    (hwatch : u.ps.watchOpen = false) (hq : u.pu.q = old) (hlast : u.pu.lastQ = old) (hpool : u.pool.q = old)
    (hps : u.ps.q = old) (hsame : changed = false → computeQ u.pc.active u.pu.fi = old) :
    publishMargin changed u =
      (u.published old (computeQ u.pc.active u.pu.fi)).qPublished (computeQ u.pc.active u.pu.fi) := by
  by_cases heq : computeQ u.pc.active u.pu.fi = old
  · have hstill : publishMargin changed u = u := by
      cases changed with
      | false => rfl
      | true =>
        have hset := recomputeQ_of_same checkInScan (s := u) (heq.trans hlast.symm)
        rw [heq, ← hq] at hset
        exact hset
    rw [hstill, State.published, if_pos heq, heq, qPublished_self hq hlast hpool hps]
  · have hchanged : changed = true := by
      rw [← Bool.not_eq_false]
      exact fun h => heq (hsame h)
    have hset := recomputeQ_of_changed checkInScan (s := u) fun h => heq (h.trans hlast)
    rw [hchanged, State.published, if_neg heq, ← judgeAll_eq_marked (event := checkInScan) (fun u hu => spliceCheck_of_closed _ (hu.trans hwatch))
      hroles, ← hset]
    rfl

end Sys2Proof.Machine
end

section
/-! The candidate that a published Q marks, before or after the choice of the same refresh start (R13, R15, R57, R92). -/

namespace Sys2Proof.Machine

/-- Slot `k` is filling, on the list, and not yet marked. -/
def SlotPool.Unmarked (p : SlotPool) (k : Slot) : Prop :=
  p.filling = some k ∧ k ∈ p.cands ∧ (p.slot k).eligible = false

/-- A candidate that goes on screen leaves an unmarked filling candidate alone, and makes none. -/
theorem toScreen_unmarked {p : SlotPool} (h : p.rolesHold) {n k : Slot} (hn : n ∈ p.cands)
    (hmark : (p.slot n).eligible = true) {r : SlotRec} (hr : r.eligible = true) :
    ((p.toScreen n r).Unmarked k ↔ p.Unmarked k) ∧
      ((p.toScreen n r).Unmarked k → (p.toScreen n r).slot k = p.slot k) := by
  have hfilling := toScreen_filling h hn r
  have hout (hk : p.filling = some k) : k ∉ p.cands.takeWhile (· ≠ n) := by
    rw [hk] at hfilling
    have hf : p.filling.filter (fun j => decide (j ∉ p.cands.takeWhile (· ≠ n))) = some k := hfilling
    simpa using (Option.filter_eq_some_iff.mp hf).2
  have hother (hk : p.filling = some k) (hkn : k ≠ n) : (p.toScreen n r).slot k = p.slot k := by
    rw [toScreen_slot, if_neg hkn, if_neg (hout hk)]
  have hself : (p.toScreen n r).slot n = r := by rw [toScreen_slot, if_pos rfl]
  have hlist (hk : p.filling = some k) (hkn : k ≠ n) : k ∈ (p.toScreen n r).cands ↔ k ∈ p.cands := by
    have hstays := hout hk
    simp only [SlotPool.toScreen, List.mem_filter, Bool.and_eq_true, decide_eq_true_eq]
    exact ⟨fun hm => hm.1, fun hm => ⟨hm, hkn, hstays⟩⟩
  have hne (hu : (p.toScreen n r).Unmarked k) : k ≠ n := by
    rintro rfl
    have he := hu.2.2
    rw [hself, hr] at he
    cases he
  refine ⟨⟨fun hu => ?_, fun ⟨hf, hc, he⟩ => ?_⟩, fun hu => hother (hfilling ▸ hu.1) (hne hu)⟩
  · have hkn := hne hu
    obtain ⟨hf, hc, he⟩ := hu
    rw [hfilling] at hf
    rw [hother hf hkn] at he
    exact ⟨hf, (hlist hf hkn).mp hc, he⟩
  · have hkn : k ≠ n := by
      rintro rfl
      rw [hmark] at he
      cases he
    exact ⟨hfilling.trans hf, (hlist hf hkn).mpr hc, by rw [hother hf hkn]; exact he⟩

/-- The choice leaves an unmarked filling candidate alone, and makes none (R15, R16, R92 to R96). -/
theorem shownPool_unmarked {s : State} (h : s.pool.rolesHold) (k : Slot) :
    (s.shownPool.Unmarked k ↔ s.pool.Unmarked k) ∧
      (s.shownPool.Unmarked k → (s.shownPool.slot k).filled = (s.slot k).filled) := by
  rw [State.shownPool]
  by_cases hhold : s.holdExpired = true
  · rw [if_pos hhold]
    exact ⟨Iff.rfl, fun _ => rfl⟩
  · rw [if_neg hhold]
    cases hnew : s.newestEligible with
    | some n =>
      obtain ⟨hn, hmark⟩ := mem_cands_of_newestEligible hnew
      obtain ⟨hiff, hsame⟩ := toScreen_unmarked (k := k) h hn hmark
        (r := { s.slot n with presented := true, shownTop := true }) hmark
      exact ⟨hiff, fun hu => congrArg SlotRec.filled (hsame hu)⟩
    | none =>
      cases hheld : s.pool.held with
      | none => exact ⟨Iff.rfl, fun _ => rfl⟩
      | some n =>
        have hslot : (s.pool.setSlot n { s.slot n with presented := true, shownTop := true }).slot k =
            if k = n then { s.slot n with presented := true, shownTop := true } else s.pool.slot k :=
          SlotPool.slot_setSlot ..
        have hkeeps : ((s.pool.setSlot n { s.slot n with presented := true, shownTop := true }).slot k).eligible =
            (s.pool.slot k).eligible ∧
            ((s.pool.setSlot n { s.slot n with presented := true, shownTop := true }).slot k).filled = (s.pool.slot k).filled := by
          rw [hslot]
          split
          next he =>
            subst he
            exact ⟨rfl, rfl⟩
          · exact ⟨rfl, rfl⟩
        obtain ⟨heligible, hfilled⟩ := hkeeps
        refine ⟨⟨fun ⟨hf, hc, he⟩ => ⟨hf, hc, heligible ▸ he⟩, fun ⟨hf, hc, he⟩ => ⟨hf, hc, heligible.trans he⟩⟩,
          fun _ => hfilled⟩

/-- The mark is set alike before and after a choice. -/
theorem marks_shown {s m : State} (hpool : m.pool = s.pool) (h : s.pool.rolesHold) (q : Option Nat) (k : Slot) :
    State.Marks { m with pool := s.shownPool } q k ↔ m.Marks q k := by
  obtain ⟨hiff, hfilled⟩ := shownPool_unmarked h k
  have hslot : m.slot k = s.slot k := congrArg (SlotPool.slot · k) hpool
  refine ⟨fun ⟨hf, hc, he, hr, hh, hq⟩ => ?_, fun ⟨hf, hc, he, hr, hh, hq⟩ => ?_⟩
  · obtain ⟨hf', hc', he'⟩ := hiff.mp ⟨hf, hc, he⟩
    refine ⟨by rw [hpool]; exact hf', by rw [hpool]; exact hc', by rw [hslot]; exact he', hr, hh, ?_⟩
    rw [hslot, ← hfilled ⟨hf, hc, he⟩]
    exact hq
  · rw [hpool] at hf hc
    rw [hslot] at he hq
    obtain hu := hiff.mpr ⟨hf, hc, he⟩
    refine ⟨hu.1, hu.2.1, hu.2.2, hr, hh, ?_⟩
    rw [← hfilled hu] at hq
    exact hq

/-- The newest candidate of a dark screen is the filling one. -/
theorem newestEligible_of_filling {s : State} (h : s.screenOff) {k : Slot} (hf : s.pool.filling = some k)
    (hk : (s.slot k).eligible = true) : s.newestEligible = some k := by
  obtain ⟨⟨-, -, -, -, -, hcands⟩, hoff, -⟩ := h
  rw [State.newestEligible, hcands, hoff, hf]
  simp [List.filter_append, hk]

/-- A marked filling frame keeps its mark through the choice. -/
theorem shownPool_keeps_mark {s : State} (h : s.screenOff) {k : Slot} (hf : s.pool.filling = some k)
    (hk : (s.slot k).eligible = true) : (s.shownPool.slot k).eligible = true := by
  rw [State.shownPool]
  split
  · exact hk
  · rw [newestEligible_of_filling h hf hk]
    simp only [toScreen_slot, if_true]
    exact hk

theorem merge_eq_withTune (p : Profile) (t : TuneSet) : p.merge t = p.withTune t := by
  rw [Profile.merge, Profile.withTune]
  cases t.spliceLimit <;> rfl

end Sys2Proof.Machine
end

section
/-! A refresh start with tune fields pending (R13, R57, R60, R92, R98, R141; Log 10, Log 11). -/

namespace Sys2Proof.Machine

/-- `s` with its tune set merged into profile `p` (R141). -/
def State.merged (s : State) (p : Profile) : State :=
  { s with pc := { s.pc with active := some (p.withTune s.pc.tune), tune := TuneSet.empty } }

/-- Q under the merged profile (R55, R141). -/
def State.mergedQ (s : State) (p : Profile) : Option Nat := computeQ (some (p.withTune s.pc.tune)) s.pu.fi

/-- What the merge, the publication and the choice of a refresh start from `s` leave in `c`, the scan having begun; whether a
candidate has been marked is whether the publication marks one (R13, R57, R92, R98, R141). -/
structure State.MergedChoice (s : State) (p : Profile) (c : State) : Prop where
  pc : c.pc = (s.merged p).pc
  choices : c.choices = s.choices + 2
  pu : c.pu = { s.pu with q := s.mergedQ p, lastQ := s.mergedQ p }
  poolQ : c.pool.q = s.mergedQ p
  psQ : c.ps.q = s.mergedQ p
  shown : s.choiceShown c ∧
        c.pool = { (State.published { s.merged p with pool := s.shownPool } s.pu.q (s.mergedQ p)).pool with q := s.mergedQ p } ∨
      (s.merged p).choiceShown c ∧
        c.pool = { (State.published { s.merged p with pool := (s.merged p).shownPool } s.pu.q (s.mergedQ p)).pool with
          q := s.mergedQ p } ∨
      ((s.merged p).published s.pu.q (s.mergedQ p)).choiceShown c ∧
        c.pool = { ((s.merged p).published s.pu.q (s.mergedQ p)).shownPool with q := s.mergedQ p }
  marks : s.marksSince c = true ↔ (s.merged p).published s.pu.q (s.mergedQ p) ≠ s.merged p
  kept : NoticeKept 1 s c
  rest : c.otg = (beginScan s).otg ∧ c.sp = s.sp ∧ c.timeBase = s.timeBase

theorem marksSince_iff {s t : State} : s.marksSince t = true ↔ ∃ k, (s.slot k).eligible = false ∧ (t.slot k).eligible = true := by
  simp [State.marksSince]

variable {s : State} {p : Profile}

/-- A changed Q marks a candidate. -/
theorem published_ne_iff {m : State} {old q : Option Nat} : m.published old q ≠ m ↔ q ≠ old ∧ ∃ k, m.Marks q k := by
  rw [State.published]
  split
  next h => exact ⟨fun hn => absurd rfl hn, fun hn => absurd h hn.1⟩
  next h =>
    rw [ne_eq, marked_eq_self_iff, not_forall_not]
    exact ⟨fun hk => ⟨h, hk⟩, fun hk => hk.2⟩

/-- A choice and then a publication mark exactly when the publication marks before a choice. -/
theorem marksSince_published {m y : State} {old q : Option Nat} (hm : m.pool = s.pool) (hroles : s.pool.rolesHold)
    {x : State} (hx : x.pool = s.pool) (hy : y.pool.slots = (State.published { m with pool := x.shownPool } old q).pool.slots) :
    s.marksSince y = true ↔ m.published old q ≠ m := by
  have hslot (k : Slot) : y.slot k = (State.published { m with pool := x.shownPool } old q).slot k :=
    congrArg (fun v : Vector SlotRec 4 => v[k]) hy
  have hsx (k : Slot) : x.slot k = s.slot k := congrArg (SlotPool.slot · k) hx
  have hsm (k : Slot) : m.slot k = s.slot k := congrArg (SlotPool.slot · k) hm
  have hmarks (k : Slot) : State.Marks { m with pool := x.shownPool } q k ↔ m.Marks q k :=
    marks_shown (hm.trans hx.symm) (hx ▸ hroles) q k
  rw [marksSince_iff, published_ne_iff]
  by_cases hq : q = old
  · refine ⟨fun ⟨k, hclear, hset⟩ => ?_, fun h => absurd hq h.1⟩
    rw [hslot, State.published, if_pos hq] at hset
    rw [← hsx, shownPool_eligible hset] at hclear
    cases hclear
  · by_cases hk : ∃ k, m.Marks q k
    · refine ⟨fun _ => ⟨hq, hk⟩, fun _ => ?_⟩
      obtain ⟨k, hk⟩ := hk
      refine ⟨k, hsm k ▸ hk.clear, ?_⟩
      rw [hslot, State.published, if_neg hq]
      exact marked_slot_of_marks ((hmarks k).mpr hk)
    · refine ⟨fun ⟨k, hclear, hset⟩ => ?_, fun h => absurd h.2 hk⟩
      rw [hslot, State.published, if_neg hq, marked_of_not fun k h => hk ⟨k, (hmarks k).mp h⟩] at hset
      rw [← hsx, shownPool_eligible hset] at hclear
      cases hclear

/-- The mark leaves the screen dark and the filling slot with its frame. -/
theorem marked_screenOff {m : State} (h : m.screenOff) (q : Option Nat) :
    (m.marked q).screenOff ∧ (m.marked q).pool.filling = m.pool.filling := by
  by_cases hk : ∃ k, m.Marks q k
  · obtain ⟨k, hk⟩ := hk
    rw [marked_of_marks hk]
    exact ⟨⟨markEligible_rolesHold h.1 hk.cand, h.2⟩, rfl⟩
  · rw [marked_of_not fun k h => hk ⟨k, h⟩]
    exact ⟨h, rfl⟩

theorem published_screenOff {m : State} (h : m.screenOff) (old q : Option Nat) : (m.published old q).screenOff := by
  rw [State.published]
  split
  · exact h
  · exact (marked_screenOff h q).1

/-- A publication and then a choice mark exactly when the publication does. -/
theorem marksSince_chosen {m y : State} {old q : Option Nat} (hm : m.pool = s.pool) (hoff : m.screenOff)
    (hy : y.pool.slots = (m.published old q).shownPool.slots) : s.marksSince y = true ↔ m.published old q ≠ m := by
  have hslot (k : Slot) : y.slot k = (m.published old q).shownPool.slot k :=
    congrArg (fun v : Vector SlotRec 4 => v[k]) hy
  have hsm (k : Slot) : m.slot k = s.slot k := congrArg (SlotPool.slot · k) hm
  rw [marksSince_iff]
  refine ⟨fun ⟨k, hclear, hset⟩ hsame => ?_, fun hne => ?_⟩
  · rw [hslot, hsame] at hset
    rw [← hsm, shownPool_eligible hset] at hclear
    cases hclear
  · obtain ⟨hq, k, hk⟩ := published_ne_iff.mp hne
    obtain ⟨hdark, hfilling⟩ := marked_screenOff hoff q
    refine ⟨k, hsm k ▸ hk.clear, ?_⟩
    rw [hslot, State.published, if_neg hq]
    exact shownPool_keeps_mark hdark (hfilling.trans hk.filling) (marked_slot_of_marks hk)

theorem shownPool_qPublished (u : State) (q : Option Nat) : (u.qPublished q).shownPool = { u.shownPool with q := q } := by
  have hnew : (u.qPublished q).newestEligible = u.newestEligible := rfl
  have hhold : (u.qPublished q).holdExpired = u.holdExpired := rfl
  rw [State.shownPool, State.shownPool, hnew, hhold]
  by_cases h : u.holdExpired = true
  · rw [if_pos h, if_pos h]
    rfl
  · rw [if_neg h, if_neg h]
    cases u.newestEligible with
    | some k => rfl
    | none =>
      have hheld : (u.qPublished q).pool.held = u.pool.held := rfl
      rw [hheld]
      cases u.pool.held <;> rfl

/-- The merge changes no Q that the margin keeps. -/
theorem mergedQ_of_kept (hpacing : s.pacingHolds) (hactive : s.pc.active = some p) (hkeeps : s.mergeChangesMargin = false) :
    s.mergedQ p = s.pu.q := by
  obtain ⟨-, -, -, -, hq, -⟩ := hpacing
  have hmargin : (s.prof.merge s.pc.tune).raceMargin = s.prof.raceMargin := by
    simpa [State.mergeChangesMargin] using hkeeps
  have h := computeQ_merge (p := s.pc.active) s.pu.fi hmargin
  rw [hq, ← h, hactive, State.mergedQ, ← merge_eq_withTune]
  rfl

/-- The state after the scan of a refresh start has begun and the tune set has been merged. -/
def State.begunMerged (s : State) (p : Profile) : State :=
  { s.merged p with otg := (beginScan s).otg, panel := (beginScan s).panel, choices := s.choices + 2 }

theorem mergeTune_begun (hactive : s.pc.active = some p) :
    mergeTune ((beginScan s).setChoices ((beginScan s).choices + 2)) = s.begunMerged p := by
  have hpc : (beginScan s).pc = s.pc := rfl
  simp only [mergeTune, State.setPc, State.setChoices, hpc, hactive, Option.map_some, merge_eq_withTune]
  rfl

end Sys2Proof.Machine
end

section
/-! The merge, the publication and the choice of a refresh start, in each of their orders (R57, R92, R98, R141; Log 10). -/

namespace Sys2Proof.Machine

theorem State.ext_blocks {s t : State} (h1 : t.timeBase = s.timeBase ∧ t.resetAsserted = s.resetAsserted ∧ t.pool = s.pool ∧
    t.sp = s.sp ∧ t.pu = s.pu ∧ t.otg = s.otg ∧ t.ps = s.ps) (h2 : t.cs = s.cs ∧ t.pc = s.pc ∧ t.pf = s.pf ∧ t.hr = s.hr ∧
    t.ml = s.ml ∧ t.panel = s.panel ∧ t.choices = s.choices ∧ t.pending = s.pending) : t = s := by
  obtain ⟨ha, hb, hc, hd, he, hf, hg⟩ := h1
  obtain ⟨hi, hj, hk, hl, hm, hn, ho, hp⟩ := h2
  cases s
  cases t
  simp only at *
  subst ha hb hc hd he hf hg hi hj hk hl hm hn ho hp
  rfl

theorem chooseRefresh_eq (s : State) : chooseRefresh s = { s with
    pool := s.shownPool, ps := (chooseRefresh s).ps, hr := (chooseRefresh s).hr, ml := (chooseRefresh s).ml } := by
  refine State.ext_blocks ⟨?_, ?_, chooseRefresh_pool s, ?_, ?_, ?_, rfl⟩ ⟨?_, ?_, ?_, rfl, rfl, ?_, ?_, ?_⟩
  all_goals simp

variable {s : State} {p : Profile}

/-- The publication under the merged profile. -/
theorem publishMargin_merged (hpacing : s.pacingHolds) (hactive : s.pc.active = some p) {y : State}
    (hroles : y.pool.rolesHold) (hwatch : y.ps.watchOpen = false) (hpu : y.pu = s.pu) (hpc : y.pc = (s.merged p).pc)
    (hpool : y.pool.q = s.pool.q) (hps : y.ps.q = s.ps.q) : publishMargin s.mergeChangesMargin y =
      (y.published s.pu.q (s.mergedQ p)).qPublished (s.mergedQ p) := by
  obtain ⟨-, -, -, -, -, hlast, hpoolQ, hpsQ, -⟩ := id hpacing
  have hq : computeQ y.pc.active y.pu.fi = s.mergedQ p := by
    rw [hpu, hpc]
    rfl
  have h := publishMargin_eq (u := y) (old := s.pu.q) s.mergeChangesMargin hroles hwatch (by rw [hpu]) (by rw [hpu, hlast])
    (hpool.trans hpoolQ) (hps.trans hpsQ) (fun hc => hq.trans (mergedQ_of_kept hpacing hactive hc))
  rw [hq] at h
  exact h

/-- The choice after the publication. -/
theorem mergedChoice_of_published (hoff : s.screenOff) (hpacing : s.pacingHolds) (hactive : s.pc.active = some p) :
    s.MergedChoice p (chooseRefresh (publishMargin s.mergeChangesMargin (s.begunMerged p))) := by
  have hpub : publishMargin s.mergeChangesMargin (s.begunMerged p) =
      State.qPublished { (s.merged p).published s.pu.q (s.mergedQ p) with
        otg := (beginScan s).otg, panel := (beginScan s).panel, choices := s.choices + 2 } (s.mergedQ p) := by
    rw [publishMargin_merged (y := s.begunMerged p) hpacing hactive hoff.1 hoff.2.2 rfl rfl rfl rfl, State.begunMerged,
      published_of_blocks (s.merged p) _ _ _ _ _ (s.merged p).ps (s.merged p).hr (s.merged p).ml, published_eq (s.merged p)]
  generalize hv : (s.merged p).published s.pu.q (s.mergedQ p) = v at hpub
  have hvs : v = { s.merged p with pool := { s.pool with slots := v.pool.slots } } := by
    rw [← hv]
    exact published_eq _ _ _
  rw [hpub]
  generalize hz : State.qPublished { v with
        otg := (beginScan s).otg, panel := (beginScan s).panel, choices := s.choices + 2 } (s.mergedQ p) = z
  have hpool : (chooseRefresh z).pool = { v.shownPool with q := s.mergedQ p } := by
    rw [chooseRefresh_pool, ← hz, shownPool_qPublished]
    rfl
  have hshown : v.choiceShown (chooseRefresh z) := by
    have h := chooseRefresh_choiceShown z
    rw [← hz] at h ⊢
    exact h
  have hzs : z.pc = (s.merged p).pc ∧ z.choices = s.choices + 2 ∧ z.ps.q = s.mergedQ p ∧ z.otg = (beginScan s).otg ∧
      z.pu = { s.pu with q := s.mergedQ p, lastQ := s.mergedQ p } ∧ z.sp = s.sp ∧ z.timeBase = s.timeBase ∧ z.ml = s.ml := by
    rw [← hz, hvs]
    exact ⟨rfl, rfl, rfl, rfl, rfl, rfl, rfl, rfl⟩
  obtain ⟨hpc, hch, hq, hotg, hpu, hsp, ht, hml⟩ := hzs
  refine ⟨?_, ?_, ?_, ?_, ?_, .inr (.inr ⟨hv ▸ hshown, hv ▸ hpool⟩), ?_, ?_, ?_⟩
  · simpa using hpc
  · simpa using hch
  · simpa using hpu
  · rw [hpool]
  · simpa using hq
  · exact marksSince_chosen (s := s) (m := s.merged p) rfl hoff (by rw [hpool, hv])
  · exact NoticeKept.trans (v := z) (.of_ml hml ht) (chooseRefresh_kept (by decide) z)
  · simp [hotg, hsp, ht]

/-- The choice before the publication, by the profile before the merge or after it. -/
theorem mergedChoice_of_chosen (hoff : s.screenOff) (hpacing : s.pacingHolds) (hactive : s.pc.active = some p) {x y : State}
    (hx : x.screenOff) (hpool : x.pool = s.pool) (hy : y = { s.begunMerged p with
      pool := x.shownPool, ps := (chooseRefresh x).ps, hr := (chooseRefresh x).hr, ml := (chooseRefresh x).ml })
    (hps : x.ps = s.ps) (hml : x.ml = s.ml) (ht : x.timeBase = s.timeBase)
    (hcase : s.choiceShown y ∧ x.shownPool = s.shownPool ∨
      (s.merged p).choiceShown y ∧ x.shownPool = (s.merged p).shownPool) :
    s.MergedChoice p (publishMargin s.mergeChangesMargin y) := by
  obtain ⟨hroles, hwatch, -⟩ := chooseRefresh_roles hx
  rw [chooseRefresh_pool] at hroles
  have hframe : y.pool = x.shownPool ∧ y.pu = s.pu ∧ y.pc = (s.merged p).pc ∧ y.ps = (chooseRefresh x).ps ∧
      y.otg = (beginScan s).otg ∧ y.choices = s.choices + 2 ∧ y.sp = s.sp ∧ y.timeBase = s.timeBase ∧
      y.ml = (chooseRefresh x).ml := by
    rw [hy]
    exact ⟨rfl, rfl, rfl, rfl, rfl, rfl, rfl, rfl, rfl⟩
  obtain ⟨hypool, hypu, hypc, hyps, hyotg, hych, hysp, hyt, hyml⟩ := hframe
  have hpoolQ : x.shownPool.q = s.pool.q := by
    rw [← chooseRefresh_pool]
    simp [hpool]
  rw [publishMargin_merged hpacing hactive (hypool ▸ hroles) (hyps ▸ hwatch) hypu hypc (by rw [hypool, hpoolQ])
    (by simp [hyps, hps])]
  have hpub : y.published s.pu.q (s.mergedQ p) = { y with
      pool := (State.published { s.merged p with pool := x.shownPool } s.pu.q (s.mergedQ p)).pool } := by
    have h := published_of_blocks { s.merged p with pool := x.shownPool } s.pu.q (s.mergedQ p) (beginScan s).otg (beginScan s).panel
      (s.choices + 2) (chooseRefresh x).ps (chooseRefresh x).hr (chooseRefresh x).ml
    have hpub := published_eq { s.merged p with pool := x.shownPool } s.pu.q (s.mergedQ p)
    rw [hy]
    refine h.trans ?_
    rw [hpub]
    rfl
  have hkept : NoticeKept 1 s y :=
    NoticeKept.trans (v := x) (.of_ml hml ht) ((chooseRefresh_kept (i := 1) (by decide) x).trans
      (.of_ml hyml (by simp [hyt, ht])))
  have hstay (u : State) (h : u.choiceShown y) : u.choiceShown ((y.published s.pu.q (s.mergedQ p)).qPublished (s.mergedQ p)) := by
    rw [hpub]
    exact choiceShown_of_same h rfl rfl fun _ _ hn => hn
  rw [hpub] at hstay ⊢
  refine ⟨hypc, hych, ?_, rfl, rfl, ?_, ?_, ?_, ⟨hyotg, hysp, hyt⟩⟩
  · simp only [State.qPublished, State.setPu, State.setPool, State.setPs, hypu]
  · rcases hcase with ⟨hshown, he⟩ | ⟨hshown, he⟩
    · refine .inl ⟨hstay s hshown, ?_⟩
      rw [← he]
      rfl
    · refine .inr (.inl ⟨hstay _ hshown, ?_⟩)
      rw [← he]
      rfl
  · exact marksSince_published (s := s) (m := s.merged p) rfl hoff.1 hpool rfl
  · exact hkept.trans (.of_ml rfl rfl)

theorem mergeAndChoose_merged (hoff : s.screenOff) (hpacing : s.pacingHolds) (hactive : s.pc.active = some p)
    (htune : s.pc.tune ≠ TuneSet.empty) : s.MergedChoice p (mergeAndChoose (beginScan s)) := by
  have hmargin : (beginScan s).mergeChangesMargin = s.mergeChangesMargin := rfl
  simp only [mergeAndChoose]
  rw [if_neg (show (beginScan s).pc.tune ≠ TuneSet.empty from htune), hmargin]
  cases Config.refreshOrder (beginScan s).choices with
  | mergePublishChoose =>
    simp only
    rw [mergeTune_begun hactive]
    exact mergedChoice_of_published hoff hpacing hactive
  | mergeChoosePublish =>
    simp only
    rw [mergeTune_begun hactive]
    have hshown : (s.merged p).choiceShown (chooseRefresh (s.begunMerged p)) := chooseRefresh_choiceShown (s.begunMerged p)
    exact mergedChoice_of_chosen (x := s.begunMerged p) hoff hpacing hactive hoff rfl (chooseRefresh_eq _) rfl rfl rfl
      (.inr ⟨hshown, rfl⟩)
  | chooseMergePublish =>
    simp only
    have hy : mergeTune (chooseRefresh ((beginScan s).setChoices ((beginScan s).choices + 2))) =
        { s.begunMerged p with
          pool := (beginScan s).shownPool
          ps := (chooseRefresh ((beginScan s).setChoices (s.choices + 2))).ps
          hr := (chooseRefresh ((beginScan s).setChoices (s.choices + 2))).hr
          ml := (chooseRefresh ((beginScan s).setChoices (s.choices + 2))).ml } := by
      have hm := mergeTune_begun hactive
      rw [chooseRefresh_eq, ← hm]
      rfl
    have hshown : s.choiceShown (chooseRefresh ((beginScan s).setChoices (s.choices + 2))) :=
      chooseRefresh_choiceShown ((beginScan s).setChoices (s.choices + 2))
    refine mergedChoice_of_chosen (x := (beginScan s).setChoices (s.choices + 2)) hoff hpacing hactive hoff rfl hy rfl rfl rfl
      (.inl ⟨choiceShown_of_same hshown ?_ ?_ ?_, rfl⟩)
    · rfl
    · rfl
    · exact fun _ _ hn => hn

end Sys2Proof.Machine
end

section
/-! A refresh start, with or without tune fields pending (R60, R70, R72, R141; Log 10, Log 11). -/

namespace Sys2Proof.Machine

variable {s : State} {p : Profile}

/-- The start is taken, or met by the event of its publication. -/
theorem takeStart_taken_or_met {s w : State} {expired : Bool} (hin : LockInputs s w) (hkept : NoticeKept 1 s w)
    (hlast : w.otg.tLast = s.timeBase) (hexpired : s.otg.mode = some .fixed → expired = true) (eventFirst : Bool) {marks : Prop}
    {event : Bool} (hevent : event = true ↔ marks) :
    (¬ marks → s.startTaken (settle (bankExchange (takeStart expired event eventFirst s.otg.tLast w)))) ∧
      (marks → s.startMet (settle (bankExchange (takeStart expired event eventFirst s.otg.tLast w)))) := by
  cases event with
  | false => exact ⟨fun _ => lockAndArm_taken hin hkept hexpired, fun h => absurd (hevent.mpr h) (by decide)⟩
  | true => exact ⟨fun h => absurd (hevent.mp rfl) h, fun _ => takeStart_met hin hkept hlast hexpired eventFirst⟩

theorem refreshBy_merged (expired planned : Bool) (hoff : s.screenOff) (hpacing : s.pacingHolds)
    (hactive : s.pc.active = some p) (htune : s.pc.tune ≠ TuneSet.empty)
    (hexpired : s.otg.mode = some .fixed → expired = true) : s.refreshMerged p (settle (refreshBy expired planned s)) := by
  have hchoice := mergeAndChoose_merged hoff hpacing hactive htune
  generalize hc : mergeAndChoose (beginScan s) = c at hchoice
  let w := loadRepeat planned c
  have heq : refreshBy expired planned s =
      bankExchange (takeStart expired (s.marksSince w) (Config.eventFirst (s.choices + 1)) s.otg.tLast w) := by
    rw [refreshBy, hc]
  obtain ⟨hotg, hsp, htime⟩ := hchoice.rest
  have hmarks : s.marksSince w = true ↔ (s.merged p).published s.pu.q (s.mergedQ p) ≠ s.merged p := by
    rw [← hchoice.marks]
    simp [State.marksSince, State.slot, w]
  have hin : LockInputs s w := by
    refine LockInputs.trans (u := c) ?_ (loadRepeat_inputs planned c)
    refine ⟨by rw [hotg]; rfl, ?_, ?_, ?_, ?_, ?_, ?_, congrArg SourcePort.state hsp, htime, s.pc.tune, ?_⟩
    case refine_7 =>
      rw [State.prof, State.prof, hchoice.pc, hactive]
      exact (merge_eq_withTune p s.pc.tune).symm
    all_goals rw [hchoice.pu]
  have hkept : NoticeKept 1 s w := hchoice.kept.trans (loadRepeat_kept 1 planned c)
  have hlast : w.otg.tLast = s.timeBase := by
    simp [w, hotg, beginScan, State.now]
  obtain ⟨htaken, hmet⟩ := takeStart_taken_or_met hin hkept hlast hexpired (Config.eventFirst (s.choices + 1)) hmarks
  have hfinal (u : State) (h : u.choiceShown c) (hu : c.timeBase = u.timeBase) :=
    choiceShown_refresh expired planned (s.marksSince w) (Config.eventFirst (s.choices + 1)) s.otg.tLast h hu
  have hlate : (settle (refreshBy expired planned s)).pool = c.pool ∧ (settle (refreshBy expired planned s)).pc = c.pc ∧
      (settle (refreshBy expired planned s)).choices = c.choices ∧ (settle (refreshBy expired planned s)).pu.q = c.pu.q ∧
      (settle (refreshBy expired planned s)).pu.lastQ = c.pu.lastQ ∧ (settle (refreshBy expired planned s)).ps.q = c.ps.q := by
    rw [heq]
    simp [w]
  obtain ⟨hpool, hpc, hchoices, hq, hlastQ, hpsQ⟩ := hlate
  have hpublished : ((s.merged p).published s.pu.q (s.mergedQ p)).timeBase = s.timeBase := by
    rw [published_eq]
    rfl
  unfold State.refreshMerged
  refine ⟨refreshBy_begun expired planned s, ?_, ?_, ?_, ?_, ?_, ?_, ?_, ?_, ?_⟩
  · exact hpc.trans hchoice.pc
  · exact hchoices.trans hchoice.choices
  · exact hq.trans (congrArg PacingUnit.q hchoice.pu)
  · exact hlastQ.trans (congrArg PacingUnit.lastQ hchoice.pu)
  · rw [hpool]
    exact hchoice.poolQ
  · exact hpsQ.trans hchoice.psQ
  · rw [hpool, heq]
    rcases hchoice.shown with ⟨hshown, hp⟩ | ⟨hshown, hp⟩ | ⟨hshown, hp⟩
    · exact .inl ⟨hfinal s hshown htime, hp⟩
    · exact .inr (.inl ⟨hfinal _ hshown htime, hp⟩)
    · exact .inr (.inr ⟨hfinal _ hshown (htime.trans hpublished.symm), hp⟩)
  · rw [heq]
    exact fun h => htaken (not_not_intro h)
  · rw [heq]
    exact hmet

/-- A refresh start from a dark screen is as stated (R70, R72, R141). -/
theorem refreshBy_made (expired planned : Bool) (hout : s.otg.timing ≠ .scan)
    (hexpired : s.otg.mode = some .fixed → expired = true) :
    s.refreshMade (settle (refreshBy expired planned s)) planned :=
  ⟨fun htune => refreshBy_started expired planned htune hexpired,
    fun htune hpool hpacing _ hactive =>
      refreshBy_merged expired planned (screenOff_of_poolHolds hpool hout) hpacing hactive htune hexpired,
    fun hmode => refreshBy_loaded expired planned hmode⟩

end Sys2Proof.Machine
end

section
/-! The expiries that start a refresh (R73 to R76, R79). -/

namespace Sys2Proof.Machine

/-- Nothing that the lock and the measurement read has been changed, and no LOCK_STATE has been raised. -/
structure LockKept (s t : State) : Prop where
  inputs : LockInputs s t
  notice : NoticeKept 1 s t

theorem LockKept.refl (s : State) : LockKept s s := ⟨.refl s, .refl 1 s⟩

theorem LockKept.trans {s t u : State} (h : LockKept s t) (g : LockKept t u) : LockKept s u :=
  ⟨h.inputs.trans g.inputs, h.notice.trans g.notice⟩

theorem checkInScan_lockKept (s : State) : LockKept s (checkInScan s) :=
  ⟨.of_eq (by simp [checkInScan]) (by simp [checkInScan]) (by simp [checkInScan]) (by simp [checkInScan])
    (by simp [checkInScan]), .of_ml (by simp [checkInScan]) (by simp [checkInScan])⟩

theorem chooseRefresh_lockKept (s : State) : LockKept s (chooseRefresh s) :=
  ⟨.of_eq (by simp) (by simp) (by simp) (by simp) (by simp), chooseRefresh_kept (by decide) s⟩

theorem mergeTune_lockKept (s : State) : LockKept s (mergeTune s) :=
  ⟨⟨rfl, rfl, rfl, rfl, rfl, rfl, rfl, rfl, rfl, prof_of_merged (.inr rfl)⟩, .of_ml rfl rfl⟩

theorem publishMargin_lockKept (changed : Bool) (s : State) : LockKept s (publishMargin changed s) := by
  have hset (x : PacingUnit) (hx : x = { s.pu with q := x.q, lastQ := x.lastQ }) (P : SlotPool) (y : Scheduler) :
      LockKept s { s with pu := x, pool := P, ps := y } := by
    rw [hx]
    exact ⟨⟨rfl, rfl, rfl, rfl, rfl, rfl, rfl, rfl, rfl, TuneSet.empty, rfl⟩, .of_ml rfl rfl⟩
  simp only [publishMargin, recomputeQ]
  repeat' split
  · exact hset { s.pu with q := computeQ s.pc.active s.pu.fi } rfl s.pool s.ps
  · exact judgeAll_inv (LockKept s) checkInScan (fun v hv => hv.trans (checkInScan_lockKept v))
      (fun k v hv => hv.trans ⟨.of_eq rfl rfl rfl rfl rfl, .of_ml rfl rfl⟩) _ (hset _ rfl _ _)
  · exact .refl s

theorem mergeAndChoose_lockKept (s : State) : LockKept s (mergeAndChoose s) := by
  have hcounted : LockKept s (s.setChoices (s.choices + 2)) := ⟨.of_eq rfl rfl rfl rfl rfl, .of_ml rfl rfl⟩
  simp only [mergeAndChoose]
  repeat' split
  · exact chooseRefresh_lockKept s
  · exact hcounted.trans ((mergeTune_lockKept _).trans ((publishMargin_lockKept _ _).trans (chooseRefresh_lockKept _)))
  · exact hcounted.trans ((mergeTune_lockKept _).trans ((chooseRefresh_lockKept _).trans (publishMargin_lockKept _ _)))
  · exact hcounted.trans ((chooseRefresh_lockKept _).trans ((mergeTune_lockKept _).trans (publishMargin_lockKept _ _)))

/-- Every refresh start is taken by the lock and the pacing unit, or met by an event of its publication (R60, R79, R81). -/
theorem refreshBy_taken_or_met (expired planned : Bool) {s : State} (hexpired : s.otg.mode = some .fixed → expired = true) :
    s.startTaken (settle (refreshBy expired planned s)) ∨ s.startMet (settle (refreshBy expired planned s)) := by
  have hbegun : LockKept s (beginScan s) := ⟨.of_eq rfl rfl rfl rfl rfl, .of_ml rfl rfl⟩
  obtain ⟨hin, hkept⟩ := (hbegun.trans (mergeAndChoose_lockKept (beginScan s))).trans
    ⟨loadRepeat_inputs planned _, loadRepeat_kept 1 planned _⟩
  have hlast : (loadRepeat planned (mergeAndChoose (beginScan s))).otg.tLast = s.timeBase := by
    simp [beginScan, State.now]
  obtain ⟨htaken, hmet⟩ := takeStart_taken_or_met hin hkept hlast hexpired (Config.eventFirst (s.choices + 1)) Iff.rfl
  by_cases h : s.marksSince (loadRepeat planned (mergeAndChoose (beginScan s))) = true
  · exact .inr (hmet h)
  · exact .inl (htaken h)

/-- The items of the generator that a refresh start reads (R60, R72, R79, R81, R85, R88). -/
structure OutputTiming.SameStart (o o' : OutputTiming) : Prop where
  lock : o'.lock = o.lock
  tLast : o'.tLast = o.tLast
  mode : o'.mode = o.mode
  planCount : o'.planCount = o.planCount
  pendingApp : o'.pendingApp = o.pendingApp
  pendingReset : o'.pendingReset = o.pendingReset

section
variable {s t : State} {o : OutputTiming}

theorem lockAs_congr {s s' u u' t : State} (hu : LockInputs u u') (hlock : s'.otg.lock = s.otg.lock) (hml : s'.ml = s.ml)
    (ht : s'.timeBase = s.timeBase) (h : s'.lockAs u' t) : s.lockAs u t := by
  obtain ⟨h1, h2, h3, h4, h5, h6⟩ := h
  refine ⟨h1.trans hu.lock, h2.trans hu.good, h3.trans hu.bad, h4.trans hu.armed, h5.trans hu.nextFixed, fun hne => ?_⟩
  rw [← hu.lock] at hne ⊢
  have hn := h6 (by rwa [hlock])
  rw [State.noticed, hml, ht] at hn
  exact hn

theorem LockInputs.measured {s s' : State} (h : LockInputs s s') (hlast : s'.otg.tLast = s.otg.tLast) :
    LockInputs s.measured s'.measured := by
  rw [← phaseMeasure_eq_measured, ← phaseMeasure_eq_measured, phaseMeasure, phaseMeasure, hlast]
  exact h.measureFrom _

theorem lockInputs_of_sameStart (h : s.otg.SameStart o) : LockInputs s { s with otg := o } :=
  .of_eq h.lock rfl rfl rfl rfl

theorem startTaken_of_sameStart (h : s.otg.SameStart o) (hs : State.startTaken { s with otg := o } t) : s.startTaken t := by
  obtain ⟨hlock, hload⟩ := hs
  refine ⟨lockAs_congr (s' := { s with otg := o }) (lockInputs_of_sameStart h).armedAs h.lock rfl rfl hlock, fun hmode => hload (h.mode.trans hmode)⟩

theorem measured_tLast (s : State) : s.measured.otg.tLast = s.otg.tLast := by
  rw [← phaseMeasure_eq_measured]
  simp

theorem startMet_of_sameStart (h : s.otg.SameStart o) (hs : State.startMet { s with otg := o } t) : s.startMet t := by
  have hin := lockInputs_of_sameStart h
  have hm : LockInputs s.measured (State.measured { s with otg := o }) := hin.measured h.tLast
  rcases hs with ⟨hlock, hload⟩ | ⟨hlock, hload⟩
  · refine .inl ⟨lockAs_congr (s' := { s with otg := o }) hm.armedAs h.lock rfl rfl hlock, fun hmode => ?_⟩
    rw [← hm.nextFixed]
    exact hload (h.mode.trans hmode)
  · exact .inr ⟨lockAs_congr (s' := { s with otg := o }) (hin.armedAs.measured rfl) h.lock rfl rfl hlock, fun hmode => hload (h.mode.trans hmode)⟩

theorem refreshBegun_of_sameStart (h : s.otg.SameStart o) (hs : State.refreshBegun { s with otg := o } t) :
    s.refreshBegun t := by
  obtain ⟨h1, h2, h3, h4, hmode, happ, hreset, hrest⟩ := hs
  exact ⟨h1, h2, h3, h4, hmode.trans h.mode, happ.trans h.pendingApp, hreset.trans h.pendingReset, hrest⟩

theorem published_otg (m : State) (old q : Option Nat) (o : OutputTiming) :
    State.published { m with otg := o } old q = { m.published old q with otg := o } := by
  refine (published_of_blocks m old q o m.panel m.choices m.ps m.hr m.ml).trans ?_
  rw [published_eq m]

theorem refreshMerged_of_sameStart (h : s.otg.SameStart o) {p : Profile} (hs : State.refreshMerged { s with otg := o } p t) :
    s.refreshMerged p t := by
  obtain ⟨hbegun, hpc, hch, hq, hlastQ, hpoolQ, hpsQ, hshown, htaken, hmet⟩ := hs
  have hm : State.merged { s with otg := o } p = { s.merged p with otg := o } := rfl
  have hv : (State.merged { s with otg := o } p).published s.pu.q (s.mergedQ p) =
      { (s.merged p).published s.pu.q (s.mergedQ p) with otg := o } := published_otg (s.merged p) _ _ o
  have hp (P : SlotPool) : (State.published { State.merged { s with otg := o } p with pool := P } s.pu.q (s.mergedQ p)).pool =
      (State.published { s.merged p with pool := P } s.pu.q (s.mergedQ p)).pool :=
    (congrArg State.pool (published_otg ((s.merged p).setPool P) s.pu.q (s.mergedQ p) o) :)
  have hmarks : (s.merged p).published s.pu.q (s.mergedQ p) = s.merged p ↔
      (State.merged { s with otg := o } p).published s.pu.q (s.mergedQ p) = State.merged { s with otg := o } p := by
    refine ⟨fun he => by rw [hv, he]; rfl, fun he => ?_⟩
    rw [hv] at he
    have hpool : ((s.merged p).published s.pu.q (s.mergedQ p)).pool = (s.merged p).pool :=
      (congrArg State.pool he :)
    rw [published_eq, hpool]
  unfold State.refreshMerged
  refine ⟨refreshBegun_of_sameStart h hbegun, hpc, hch, hq, hlastQ, hpoolQ, hpsQ, ?_,
    fun he => startTaken_of_sameStart h (htaken (hmarks.mp he)), fun hne => startMet_of_sameStart h (hmet fun he => hne (hmarks.mpr he))⟩
  rcases hshown with ⟨hc, hpool⟩ | ⟨hc, hpool⟩ | ⟨hc, hpool⟩
  · refine .inl ⟨hc, hpool.trans ?_⟩
    exact congrArg (fun P : SlotPool => { P with q := s.mergedQ p }) (hp s.shownPool)
  · refine .inr (.inl ⟨hc, hpool.trans ?_⟩)
    exact congrArg (fun P : SlotPool => { P with q := s.mergedQ p }) (hp (s.merged p).shownPool)
  · refine .inr (.inr ?_)
    have hc' : ((State.merged { s with otg := o } p).published s.pu.q (s.mergedQ p)).choiceShown t := hc
    have hpool' : t.pool = { ((State.merged { s with otg := o } p).published s.pu.q (s.mergedQ p)).shownPool with
        q := s.mergedQ p } := hpool
    rw [hv] at hc' hpool'
    exact ⟨hc', hpool'⟩

/-- A refresh start reads nothing else of the generator. -/
theorem refreshMade_of_sameStart (h : s.otg.SameStart o) {planned : Bool}
    (hpool : s.poolHolds → State.poolHolds { s with otg := o })
    (hs : State.refreshMade { s with otg := o } t planned) : s.refreshMade t planned := by
  obtain ⟨hstarted, hmerged, hloaded⟩ := hs
  refine ⟨fun htune => ?_, fun htune hp hpacing p hactive => refreshMerged_of_sameStart h (hmerged htune (hpool hp) hpacing p hactive),
    fun hmode => ?_⟩
  · obtain ⟨hbegun, hshown, hpoolEq, hq, htaken, hrest⟩ := hstarted htune
    exact ⟨refreshBegun_of_sameStart h hbegun, hshown, hpoolEq, hq, startTaken_of_sameStart h htaken, hrest⟩
  · have hl := hloaded (h.mode.trans hmode)
    simp only [State.repeatLoaded, h.planCount] at hl
    exact hl

end

end Sys2Proof.Machine
end

section
/-! The expiries that start a refresh (R73 to R76, R79). -/

namespace Sys2Proof.Machine

/-- A repeat expiry that no arriving frame skips starts a refresh (R75, R76). -/
theorem repeatExpiryOpen_of_goes {s : State} {planned : Bool} (h : s.repeatGoes planned) :
    repeatExpiryOpen s = refreshStart planned s := by
  rw [repeatExpiryOpen]
  rcases h with ⟨hplan, rfl⟩ | ⟨hplan, rfl, hfilling⟩
  · exact if_neg (by omega)
  · have hstill : ¬ s.frameArriving = true := fun ha => by
      obtain ⟨k, hk, hfilled, heligible⟩ := frameArriving_iff.mp ha
      rcases hfilling k hk with h0 | he
      · omega
      · rw [heligible] at he
        cases he
    rw [if_pos hplan, if_neg hstill]

theorem enterBlankOpen_of_goes {s : State} {planned : Bool} (h : ¬ s.opensOnFrame) (hkept : s.otg.keptRepeat = true)
    (hgoes : s.repeatGoes planned) : enterBlankOpen s =
      refreshStart planned (s.setOtg { s.otg with timing := .blankOpen, keptRepeat := false }) :=
  (enterBlankOpen_of_kept h hkept).trans
    (repeatExpiryOpen_of_goes (s := s.setOtg { s.otg with timing := .blankOpen, keptRepeat := false }) hgoes)

/-- A refresh start after the generator's markers and timers have been moved, out of SCAN. -/
theorem refreshBy_made_after {s : State} (expired planned : Bool) {o : OutputTiming} (h : s.otg.SameStart o)
    (hs : s.otg.timing ≠ .scan) (ho : o.timing ≠ .scan) (hexpired : s.otg.mode = some .fixed → expired = true) :
    s.refreshMade (settle (refreshBy expired planned { s with otg := o })) planned :=
  refreshMade_of_sameStart h (fun hp => ⟨hp.1, fun _ => hp.2 hs⟩)
    (refreshBy_made (s := { s with otg := o }) expired planned ho fun hm => hexpired (h.mode.symm.trans hm))

theorem tminExpiry_made {s : State} {planned : Bool} (hmode : s.otg.mode = some .adaptive) (hmin : s.otg.timing = .blankMin)
    (hopens : s.opensWithRefresh planned) : s.refreshMade (settle (tminExpired s)) planned := by
  have hno : s.otg.mode = some .fixed → false = true := fun h => by
    rw [hmode] at h
    cases h
  have hout : s.otg.timing ≠ .scan := by
    rw [hmin]
    decide
  rw [tminExpired_of_blankMin hmin]
  rcases hopens with ⟨hframe, rfl⟩ | ⟨hframe, hkept, hgoes⟩
  · rw [enterBlankOpen_of_frame (s := s.setOtg { s.otg with tminTimer := .stopped }) hframe]
    exact refreshBy_made_after false false (o := { s.otg with tminTimer := .stopped, timing := .blankOpen })
      ⟨rfl, rfl, rfl, rfl, rfl, rfl⟩ hout nofun hno
  · rw [enterBlankOpen_of_goes (s := s.setOtg { s.otg with tminTimer := .stopped }) hframe hkept hgoes]
    exact refreshBy_made_after false planned
      (o := { s.otg with tminTimer := .stopped, timing := .blankOpen, keptRepeat := false })
      ⟨rfl, rfl, rfl, rfl, rfl, rfl⟩ hout nofun hno

theorem fixedExpired_of_blank {s : State} (h : s.otg.timing = .blank) :
    fixedExpired s = fixedRefresh (s.setOtg { s.otg with fixedTimer := .stopped }) := by
  simp only [fixedExpired, State.setOtg_fields, h]

/-- Settles O53: each expiry by the timing state, and the refresh start it reaches. -/
theorem expiriesStartRefresh : Obligations.ExpiriesStartRefresh := by
  rintro s c planned hr (⟨hmode, rfl, hdue, hmin, hopens⟩ | ⟨hmode, rfl, hdue, hopen, hgoes⟩ | ⟨hmode, rfl, hdue, hblank, rfl⟩)
  · exact ⟨_, whenDue_of_due hr hdue, tminExpiry_made hmode hmin hopens, nofun⟩
  · refine ⟨_, whenDue_of_due hr hdue, ?_, nofun⟩
    have hout : s.otg.timing ≠ .scan := by
      rw [hopen]
      decide
    rw [repeatExpired_of_blankOpen hopen,
      repeatExpiryOpen_of_goes (s := s.setOtg { s.otg with repeatTimer := .stopped }) hgoes]
    refine refreshBy_made_after false planned (o := { s.otg with repeatTimer := .stopped })
      ⟨rfl, rfl, rfl, rfl, rfl, rfl⟩ hout hout fun h => ?_
    rw [hmode] at h
    cases h
  · have hout : s.otg.timing ≠ .scan := by
      rw [hblank]
      decide
    have hstart : s.otg.SameStart { s.otg with fixedTimer := .stopped } := ⟨rfl, rfl, rfl, rfl, rfl, rfl⟩
    have hmade : s.refreshMade (settle (fixedExpired s)) false := by
      rw [fixedExpired_of_blank hblank]
      exact refreshBy_made_after true false hstart hout hout fun _ => rfl
    refine ⟨_, whenDue_of_due hr hdue, hmade, fun _ => ?_⟩
    by_cases htune : s.pc.tune = TuneSet.empty
    · obtain ⟨-, -, -, -, ⟨-, hload⟩, -⟩ := hmade.1 htune
      exact .inl hload
    · rw [fixedExpired_of_blank hblank]
      rcases refreshBy_taken_or_met true false (s := { s with otg := { s.otg with fixedTimer := .stopped } }) fun _ => rfl
        with htaken | hmet
      · exact .inl (startTaken_of_sameStart hstart htaken).2
      · exact .inr ⟨htune, startMet_of_sameStart hstart hmet⟩

end Sys2Proof.Machine
end

section
/-! A refresh start at which no publication marks anything: the choice is that of the state that it finds (R57, R92; Log 10). -/

namespace Sys2Proof.Machine

/-- Two states show the same to the choice of a refresh start, the copies of Q and the tune fields apart. -/
structure SameScene (s u : State) : Prop where
  pool : u.pool = { s.pool with q := u.pool.q }
  ps : u.ps = { s.ps with q := u.ps.q }
  hr : u.hr = s.hr
  sp : u.sp = s.sp
  time : u.timeBase = s.timeBase

theorem SameScene.refl (s : State) : SameScene s s := ⟨rfl, rfl, rfl, rfl, rfl⟩

theorem SameScene.trans {s u v : State} (h : SameScene s u) (g : SameScene u v) : SameScene s v := by
  refine ⟨?_, ?_, g.hr.trans h.hr, g.sp.trans h.sp, g.time.trans h.time⟩
  · rw [g.pool, h.pool]
  · rw [g.ps, h.ps]

theorem SameScene.slot {s u : State} (h : SameScene s u) (k : Slot) : u.slot k = s.slot k := by
  rw [State.slot, h.pool]
  rfl

theorem SameScene.newestEligible {s u : State} (h : SameScene s u) : u.newestEligible = s.newestEligible := by
  have hcands : u.pool.cands = s.pool.cands := by rw [h.pool]
  simp only [State.newestEligible, hcands, h.slot]

theorem not_holdExpired {s : State} (h : s.sp.state ≠ .detached) : s.holdExpired = false := by
  simp [State.holdExpired, h]

variable {s u t : State} {n : Slot}

/-- The choice of a source that is not DETACHED, a candidate being eligible (R93, R97). -/
theorem choiceShown_of_newest (hstate : s.sp.state ≠ .detached) (hnew : s.newestEligible = some n) :
    s.choiceShown t ↔ t.ps = { s.ps with lastKind := some .new, q := t.ps.q } ∧
      t.hr = s.refreshRing n (s.fateRing (s.olderReplaced n)) := by
  rw [State.choiceShown, not_holdExpired hstate]
  simp only [hnew, Bool.false_eq_true, if_false]

/-- The pool of that choice (R15). -/
theorem shownPool_of_newest (hstate : s.sp.state ≠ .detached) (hnew : s.newestEligible = some n) :
    s.shownPool = s.pool.toScreen n { s.slot n with presented := true, shownTop := true } := by
  rw [State.shownPool, not_holdExpired hstate]
  simp only [hnew, Bool.false_eq_true, if_false]

/-- A choice whose pool and report are those of the state `s`, Q's copies apart. -/
structure Shows (s : State) (c : State) : Prop where
  shown : s.choiceShown c
  pool : c.pool = { s.shownPool with q := c.pool.q }

theorem shows_of_scene (h : SameScene s u) (hstate : s.sp.state ≠ .detached) (hnew : s.newestEligible = some n) :
    Shows s (chooseRefresh u) := by
  have hstate' : u.sp.state ≠ .detached := h.sp ▸ hstate
  have hnew' := h.newestEligible.trans hnew
  obtain ⟨hps, hring⟩ := (choiceShown_of_newest hstate' hnew').mp (chooseRefresh_choiceShown u)
  refine ⟨(choiceShown_of_newest hstate hnew).mpr ⟨?_, ?_⟩, ?_⟩
  · rw [hps, h.ps]
  · have hcands : u.pool.cands = s.pool.cands := by rw [h.pool]
    have holder : u.olderReplaced n = s.olderReplaced n := by rw [State.olderReplaced, hcands, State.olderReplaced]
    have hfate (l : List (Slot × Fate)) : u.fateRing l = s.fateRing l := 
      fateRing_congr l h.hr fun x _ => congrArg SlotRec.frameNo (h.slot x.1)
    rw [hring, holder, hfate]
    simp only [State.refreshRing, h.slot, h.time]
  · rw [chooseRefresh_pool, shownPool_of_newest hstate' hnew', shownPool_of_newest hstate hnew, h.slot]
    rw [h.pool]
    rfl

/-- Every filling candidate is marked. -/
def SlotPool.AllMarked (p : SlotPool) : Prop := ∀ k, ¬ p.Unmarked k

theorem SlotPool.allMarked_of_filling {p : SlotPool} {k : Slot} (hf : p.filling = some k) (hk : (p.slot k).eligible = true) :
    p.AllMarked := by
  rintro j ⟨hj, -, he⟩
  obtain rfl := Option.some.inj (hf.symm.trans hj)
  rw [hk] at he
  cases he

theorem SlotPool.allMarked_of_none {p : SlotPool} (hf : p.filling = none) : p.AllMarked := by
  rintro j ⟨hj, -⟩
  rw [hf] at hj
  cases hj

/-- A judgement finds nothing to mark (R13). -/
theorem judges_of_allMarked (hroles : s.pool.rolesHold) (h : s.pool.AllMarked) (k : Slot) : s.judges k = false := by
  rw [← Bool.not_eq_true]
  intro hj
  have hk := filling_of_judges hroles hj
  obtain ⟨-, hfill, -⟩ := id hroles
  obtain ⟨hc, he, -⟩ := (judges_of_filling ((hfill k).mpr hk)).mp hj
  exact h k ⟨hk, hc, he⟩

/-- Q is that of the windows and, if it has changed, has been published (R55, R56, R57). -/
def State.qSet (s : State) : State :=
  if computeQ s.pc.active s.pu.fi = s.pu.lastQ then s.setPu { s.pu with q := computeQ s.pc.active s.pu.fi }
  else s.qPublished (computeQ s.pc.active s.pu.fi)

theorem recomputeQ_of_allMarked (event : State → State) (hroles : s.pool.rolesHold) (h : s.pool.AllMarked) :
    recomputeQ event s = s.qSet := by
  rw [State.qSet]
  split
  next hsame => exact recomputeQ_of_same event hsame
  next hchanged =>
    rw [recomputeQ_of_changed event hchanged]
    exact judgeAll_of_quiet event (judges_of_allMarked (s := s.qPublished _) hroles h)

theorem qSet_eq (s : State) : s.qSet = { s with
    pu := { s.pu with q := s.qSet.pu.q, lastQ := s.qSet.pu.lastQ }
    pool := { s.pool with q := s.qSet.pool.q }
    ps := { s.ps with q := s.qSet.ps.q } } := by
  rw [State.qSet]
  split <;> rfl

theorem qSet_scene (s : State) : SameScene s s.qSet := by
  rw [qSet_eq]
  exact ⟨rfl, rfl, rfl, rfl, rfl⟩

theorem publishMargin_scene (changed : Bool) (hroles : s.pool.rolesHold) (h : s.pool.AllMarked) :
    SameScene s (publishMargin changed s) := by
  cases changed with
  | false => exact .refl s
  | true =>
    have heq : publishMargin true s = s.qSet := recomputeQ_of_allMarked checkInScan hroles h
    rw [heq]
    exact qSet_scene s

/-- A presentation keeps every marked candidate marked. -/
theorem shownPool_allMarked (hroles : s.pool.rolesHold) (h : s.pool.AllMarked) : s.shownPool.AllMarked :=
  fun k hk => h k ((shownPool_unmarked hroles k).1.mp hk)

theorem Shows.of_scene {c d : State} (h : Shows s c) (hstate : s.sp.state ≠ .detached) (hnew : s.newestEligible = some n)
    (hd : SameScene c d) : Shows s d := by
  obtain ⟨hps, hring⟩ := (choiceShown_of_newest hstate hnew).mp h.shown
  refine ⟨(choiceShown_of_newest hstate hnew).mpr ⟨?_, hd.hr.trans hring⟩, ?_⟩
  · rw [hd.ps, hps]
  · rw [hd.pool, h.pool]

/-- Whatever the order of merge, publication and choice, the newest eligible candidate is shown (R92, R98; Log 10). -/
theorem mergeAndChoose_shows (hoff : s.screenOff) (hstate : s.sp.state ≠ .detached) (hnew : s.newestEligible = some n)
    (hmarked : s.pool.AllMarked) : Shows s (mergeAndChoose s) := by
  have hcounted : SameScene s (s.setChoices (s.choices + 2)) := ⟨rfl, rfl, rfl, rfl, rfl⟩
  have hmerged (u : State) : SameScene u (mergeTune u) := ⟨rfl, rfl, rfl, rfl, rfl⟩
  have hlate (changed : Bool) (c d : State) (hc : Shows s c) (hd : SameScene c d)
      (hdpool : d.pool = c.pool) : Shows s (publishMargin changed d) := by
    have hroles : d.pool.rolesHold := by
      obtain ⟨h, -⟩ := chooseRefresh_roles hoff
      rw [chooseRefresh_pool] at h
      rw [hdpool, hc.pool]
      exact h
    have hall : d.pool.AllMarked := by
      rw [hdpool, hc.pool]
      exact shownPool_allMarked hoff.1 hmarked
    exact (hc.of_scene hstate hnew hd).of_scene hstate hnew (publishMargin_scene changed hroles hall)
  simp only [mergeAndChoose]
  repeat' split
  · exact shows_of_scene (.refl s) hstate hnew
  · refine shows_of_scene (hcounted.trans ((hmerged _).trans ?_)) hstate hnew
    exact publishMargin_scene (s := mergeTune (s.setChoices (s.choices + 2))) _ hoff.1 hmarked
  · exact hlate _ _ _ (shows_of_scene (hcounted.trans (hmerged _)) hstate hnew) (.refl _) rfl
  · exact hlate _ _ _ (shows_of_scene hcounted hstate hnew) (hmerged _) rfl

/-- The refresh start shows the newest eligible candidate (R70, R92). -/
theorem refreshBy_shows (expired planned : Bool) (hoff : s.screenOff) (hstate : s.sp.state ≠ .detached)
    (hnew : s.newestEligible = some n) (hmarked : s.pool.AllMarked) :
    (refreshBy expired planned s).pool = { s.shownPool with q := (refreshBy expired planned s).pool.q } ∧
      (refreshBy expired planned s).ps = { s.ps with lastKind := some .new, q := (refreshBy expired planned s).ps.q } ∧
      (refreshBy expired planned s).hr = s.refreshRing n (s.fateRing (s.olderReplaced n)) := by
  have hshows := mergeAndChoose_shows (s := beginScan s) hoff hstate hnew hmarked
  obtain ⟨hps, hring⟩ := (choiceShown_of_newest (s := beginScan s) hstate hnew).mp hshows.shown
  have hframe : (refreshBy expired planned s).pool = (mergeAndChoose (beginScan s)).pool ∧
      (refreshBy expired planned s).ps = (mergeAndChoose (beginScan s)).ps ∧
      (refreshBy expired planned s).hr = (mergeAndChoose (beginScan s)).hr := by
    simp [refreshBy]
  obtain ⟨hpool', hps', hhr'⟩ := hframe
  rw [hpool', hps', hhr']
  exact ⟨hshows.pool, hps, hring⟩

end Sys2Proof.Machine
end

section
/-! A strip that makes a racing frame eligible (R12, R14, R31, R60, R74, R105). -/

namespace Sys2Proof.Machine

theorem SlotPool.setSlot_setSlot (p : SlotPool) (k : Slot) (r r' : SlotRec) : (p.setSlot k r).setSlot k r' = p.setSlot k r' := by
  simp only [SlotPool.setSlot, SlotPool.mk.injEq, and_true]
  ext j hj
  simp only [Fin.getElem_fin, Vector.getElem_set]
  split <;> rfl

variable {s : State} {k : Slot}

/-- The line that fills a strip, and the mark (R2, R7, R12). -/
theorem raceStrip_eq (hmod : s.sp.lineCount % 8 = 7) (e : Bool) (pixels : List Pixel) :
    markEligible k ((s.lineStored k e pixels).setSlot k (((s.lineStored k e pixels).slot k).counted
      (s.sp.stripErr || e || decide (pixels.length ≠ s.prof.width)))) = s.raceStrip k e pixels := by
  have hne : s.sp.lineCount ≠ 0 := by omega
  rw [markEligible, slot_setSlot_self, State.setSlot, State.setSlot, State.raceStrip, State.lineStored, if_pos hmod, if_neg hne]
  simp only [State.setPool, SlotPool.setSlot_setSlot]
  rfl

/-- A line of a racing candidate that fills the strip which Q needs (R12, R14, R30, R31). -/
theorem lineEvent_races {q : Nat} {pixels : List Pixel} (hatt : s.sp.state.healthy = true) (hc : s.sp.cond = .taken)
    (hk : s.pool.filling = some k) (hline : s.sp.lineCount < s.prof.height) (hmod : s.sp.lineCount % 8 = 7)
    (hroles : s.pool.rolesHold) (hclear : (s.slot k).eligible = false) (hrace : s.prof.race = true)
    (hq : s.pool.q = some q) (hreached : q ≤ (s.slot k).filled + 1) (hcand : k ∈ s.pool.cands) (e : Bool) :
    lineEvent e pixels s = eligibilityEvent (s.raceStrip k e pixels) := by
  have hattached : s.sp.state.attached = true := by
    revert hatt
    cases s.sp.state <;> decide
  obtain ⟨-, hfill, -⟩ := id hroles
  have hjudges : ((s.lineStored k e pixels).setSlot k (((s.lineStored k e pixels).slot k).counted
      (s.sp.stripErr || e || decide (pixels.length ≠ s.prof.width)))).judges k = true :=
    (judges_counted (s := s.lineStored k e pixels) ((hfill k).mpr hk) _).mpr
      ⟨hcand, hclear, hrace, hatt, q, hq, hreached⟩
  rw [lineEvent_of_taken hattached hc, takenLine_of_good hline (fun h0 => by omega), goodLine_eq hk hline, if_pos hmod,
    stripFilled_of_filling (s := s.lineStored k e pixels) hk, if_pos hjudges, raceStrip_eq hmod]

theorem raceStrip_slot (s : State) (k j : Slot) (e : Bool) (pixels : List Pixel) : (s.raceStrip k e pixels).slot j =
    if j = k then { s.slot k with
      filled := (s.slot k).filled + 1
      bad := if s.sp.stripErr || e || decide (pixels.length ≠ s.prof.width) then (s.slot k).bad + 1 else (s.slot k).bad
      eligible := true } else s.slot j :=
  SlotPool.slot_setSlot ..

theorem raceStrip_rolesHold (hroles : s.pool.rolesHold) (hcand : k ∈ s.pool.cands) (e : Bool) (pixels : List Pixel) :
    (s.raceStrip k e pixels).pool.rolesHold :=
  SlotPool.rolesHold.setSlot (p := { s.pool with store := _ }) hroles rfl (fun _ => rfl) (rolesHold_isFree_of_cand hroles hcand)

theorem eligibilityEvent_of_opens {s : State} (ht : s.otg.timing = .blankOpen) (hmode : s.otg.mode = some .adaptive)
    (hblank : s.ps.blankActive = false) : eligibilityEvent s = refreshStart false s.measured := by
  simp only [eligibilityEvent, ht, phaseMeasure_eq_measured]
  refine if_pos ⟨?_, ?_⟩
  · rw [← phaseMeasure_eq_measured]
    simpa using hmode
  · rw [← phaseMeasure_eq_measured]
    simpa using hblank

theorem eligibilityEvent_of_rest {s : State} (h : s.otg.timing ∈ [Timing.idle, .blankMin, .blank] ∨
    s.otg.timing = .blankOpen ∧ (s.otg.mode ≠ some .adaptive ∨ s.ps.blankActive = true)) : eligibilityEvent s = s.measured := by
  rw [← phaseMeasure_eq_measured]
  rcases h with h | ⟨ht, h⟩
  · simp only [List.mem_cons, List.not_mem_nil, or_false] at h
    rcases h with ht | ht | ht <;> simp only [eligibilityEvent, ht]
  · simp only [eligibilityEvent, ht]
    refine if_neg fun ⟨hmode, hblank⟩ => ?_
    rcases h with h | h
    · exact h (by simpa using hmode)
    · simp [h] at hblank

theorem eligibilityEvent_of_scan {s : State} (ht : s.otg.timing = .scan) :
    eligibilityEvent s = spliceCheck s.otg.nextStrip s.measured := by
  simp only [eligibilityEvent, ht, eligibleInScan, checkInScan]
  rw [← phaseMeasure_eq_measured]
  simp

/-- The filling frame of a dark screen goes on screen, the older ready frame leaving (R15). -/
theorem toScreen_of_filling {p : SlotPool} (h : p.rolesHold) (hoff : p.onScreen = none) (hk : p.filling = some k) (r : SlotRec) :
    (p.toScreen k r).filling = some k ∧ (p.toScreen k r).ready = none ∧ (p.toScreen k r).cands = [] ∧
      (p.toScreen k r).held = p.held ∧
      ∀ j, j ≠ k → (p.toScreen k r).slot j = if p.ready = some j then SlotRec.free else p.slot j := by
  obtain ⟨-, -, hready, -, -, hcands⟩ := id h
  have hlist : p.cands = p.ready.toList ++ [k] := by
    rw [hcands, hoff, hk]
    simp
  have hne (j : Slot) (hj : p.ready = some j) : j ≠ k := fun e => h.ready_ne_filling (e ▸ hj) hk
  have hold : p.cands.takeWhile (· ≠ k) = p.ready.toList := by
    rw [hlist]
    cases hr : p.ready with
    | none => simp
    | some j => simp [hne j hr]
  have hmem (j : Slot) : j ∈ p.ready.toList ↔ p.ready = some j := Option.mem_toList
  refine ⟨(toScreen_filling h (by simp [hlist]) r).trans hk, ?_, ?_, ?_, fun j hj => ?_⟩
  · simp only [SlotPool.toScreen, hold, hmem]
    cases hr : p.ready with
    | none => rfl
    | some j => simp [Option.filter]
  · simp only [SlotPool.toScreen, hlist]
    cases hr : p.ready with
    | none => simp
    | some j => simp [hne j hr]
  · simp only [SlotPool.toScreen, hold, hmem]
    cases hh : p.held with
    | none => rfl
    | some j =>
      have hj : p.ready ≠ some j := fun e => by
        obtain ⟨-, -, hheld, -⟩ := hready j e
        exact hheld hh
      simp [Option.filter, hj]
  · rw [toScreen_slot, if_neg hj, hold]
    simp only [hmem]

theorem measured_frame (s : State) : s.measured.pool = s.pool ∧ s.measured.ps = s.ps ∧ s.measured.sp = s.sp ∧
    s.measured.hr = s.hr ∧ s.measured.pc = s.pc ∧ s.measured.timeBase = s.timeBase ∧ s.measured.otg.timing = s.otg.timing ∧
    s.measured.otg.mode = s.otg.mode ∧ s.measured.otg.nextStrip = s.otg.nextStrip := by
  rw [← phaseMeasure_eq_measured]
  simp

end Sys2Proof.Machine
end

section
/-! A racing frame becomes eligible (R12, R14, R60, R74, R105). -/

namespace Sys2Proof.Machine

/-- A splice check that splices, or does not (R103, R104, R105, R106). -/
theorem spliceCheck_splices {u : State} (hroles : u.pool.rolesHold) (hwatch : u.ps.watchOpen = true)
    (htear : u.prof.tear = .splice) {j : Nat} (hj : j ≤ u.prof.spliceLimit) {n : Slot} (hn : u.spliceCandidate j = some n) :
    spliceCheck j u = { u with
      pool := u.splicedPool n, hr := u.splicedRing j n, ps := { u.ps with watchOpen := false } } := by
  obtain ⟨hcand, -⟩ := mem_cands_of_spliceCandidate hn
  rw [spliceCheck_of_candidate hwatch htear hj hn, makeSplice_eq hroles hcand]

variable {s : State} {k : Slot}

/-- What a refresh start shows of a racing frame that has just become eligible (R15, R92). -/
theorem refreshStart_shows_racing {u : State} (hoff : u.screenOff) (hstate : u.sp.state.healthy = true)
    (hk : u.pool.filling = some k) (hset : (u.slot k).eligible = true) :
    (refreshStart false u).ps.lastKind = some .new ∧ (refreshStart false u).pool.onScreen = some k ∧
      (refreshStart false u).pool.filling = some k ∧ (refreshStart false u).pool.ready = none ∧
      (refreshStart false u).pool.cands = [] ∧ (refreshStart false u).pool.held = u.pool.held ∧
      ((refreshStart false u).slot k).eligible = true ∧ ((refreshStart false u).slot k).filled = (u.slot k).filled ∧
      ∀ j, j ≠ k → (refreshStart false u).slot j = if u.pool.ready = some j then SlotRec.free else u.slot j := by
  have hnew := newestEligible_of_filling hoff hk hset
  have hattached : u.sp.state ≠ .detached := fun h => by
    rw [h] at hstate
    cases hstate
  obtain ⟨hpool, hps, -⟩ := refreshBy_shows false false hoff hattached hnew (SlotPool.allMarked_of_filling hk hset)
  rw [shownPool_of_newest hattached hnew] at hpool
  obtain ⟨hfilling, hready, hcands, hheld, hslots⟩ := toScreen_of_filling hoff.1 hoff.2.1 hk
    { u.slot k with presented := true, shownTop := true }
  have hself : (refreshStart false u).slot k = { u.slot k with presented := true, shownTop := true } := by
    rw [State.slot, refreshStart, hpool]
    exact toScreen_slot_self u.pool k _
  have hother (j : Slot) : (refreshStart false u).slot j =
      (u.pool.toScreen k { u.slot k with presented := true, shownTop := true }).slot j := by
    rw [State.slot, refreshStart, hpool]
    rfl
  refine ⟨?_, ?_, ?_, ?_, ?_, ?_, ?_, ?_, fun j hj => (hother j).trans (hslots j hj)⟩
  · rw [refreshStart, hps]
  · rw [refreshStart, hpool]
    rfl
  · rw [refreshStart, hpool]
    exact hfilling
  · rw [refreshStart, hpool]
    exact hready
  · rw [refreshStart, hpool]
    exact hcands
  · rw [refreshStart, hpool]
    exact hheld
  · rw [hself]
    exact hset
  · rw [hself]

/-- Settles O48: the eligibility event of the strip, by the timing state. -/
theorem racingFrameStartsRefresh : Obligations.RacingFrameStartsRefresh := by
  intro s k e pixels q hr hhealthy hc hk hline hmod hlen hpool hclear hrace hq hreached hcand u
  have hexec : exec (.line e pixels) s = .next (settle (eligibilityEvent (s.raceStrip k e pixels))) := by
    rw [exec_line hr e hlen, lineEvent_races hhealthy hc hk hline hmod hpool.1 hclear hrace hq hreached hcand]
  obtain ⟨hupool, hups, husp, -, hupc, -, htiming, hmode, hstrip⟩ := measured_frame (s.raceStrip k e pixels)
  have hroles : u.pool.rolesHold := by
    rw [hupool]
    exact raceStrip_rolesHold hpool.1 hcand e pixels
  have hslot (j : Slot) : u.slot j = (s.raceStrip k e pixels).slot j := congrArg (SlotPool.slot · j) hupool
  have hprof : u.prof = s.prof := congrArg (fun c : ProfileCtl => c.active.getD Profile.absent) hupc
  refine ⟨fun ht hadaptive hblank => ?_, fun hrest => ?_, fun ht => ⟨fun hclosed => ?_, fun hwatch htear => ?_⟩⟩
  · have hout : u.otg.timing ≠ .scan := by
      rw [htiming]
      exact fun h => absurd (h.symm.trans ht) nofun
    obtain ⟨honScreen, hwatch⟩ := hpool.2 (by rw [ht]; decide)
    have hoff : u.screenOff := ⟨hroles, by rw [hupool]; exact honScreen, by rw [hups]; exact hwatch⟩
    have huk : u.pool.filling = some k := by
      rw [hupool]
      exact hk
    have hrecord := raceStrip_slot s k k e pixels
    rw [if_pos rfl] at hrecord
    have hset : (u.slot k).eligible = true := by rw [hslot, hrecord]
    obtain ⟨hkind, hon, hfilling, hready, hcands, hheld, heligible, hfilled, hothers⟩ :=
      refreshStart_shows_racing hoff (by rw [husp]; exact hhealthy) huk hset
    have hopens : eligibilityEvent (s.raceStrip k e pixels) = refreshStart false u :=
      eligibilityEvent_of_opens ht hadaptive hblank
    rw [hopens] at hexec
    refine ⟨_, hexec, refreshBy_made false false hout fun h => ?_, ?_⟩
    · rw [hmode] at h
      exact absurd (h.symm.trans hadaptive) nofun
    · have hsame (j : Slot) : (settle (refreshStart false u)).slot j = (refreshStart false u).slot j := by
        simp [State.slot]
      simp only [settle_frame, hsame]
      refine ⟨hkind, hon, hfilling, hready, hcands, by rw [hheld, hupool]; rfl, heligible, ?_, fun j hj => ?_⟩
      · rw [hfilled, hslot, hrecord]
      · rw [hothers j hj, hslot, raceStrip_slot, if_neg hj, hupool]
        rfl
  · rw [hexec, eligibilityEvent_of_rest (s := s.raceStrip k e pixels) hrest]
  · rw [hexec, eligibilityEvent_of_scan (s := s.raceStrip k e pixels) ht, spliceCheck_of_no_splice (s := u), if_neg]
    · exact fun ⟨hw, hs, _⟩ => hclosed ⟨by rwa [hups] at hw, by rwa [hprof] at hs⟩
    · exact fun ⟨hw, hs, _⟩ => hclosed ⟨by rwa [hups] at hw, by rwa [hprof] at hs⟩
  · have hw : u.ps.watchOpen = true := by
      rw [hups]
      exact hwatch
    have hs : u.prof.tear = .splice := by
      rw [hprof]
      exact htear
    have hscan : exec (.line e pixels) s = .next (settle (spliceCheck s.otg.nextStrip u)) := by
      rw [hexec, eligibilityEvent_of_scan (s := s.raceStrip k e pixels) ht]
      rfl
    refine ⟨fun hlate => ?_, fun hlimit => ⟨fun hnone => ?_, fun n hn => ?_⟩⟩
    · have hclose : spliceCheck s.otg.nextStrip u = closeWatch u := by
        rw [spliceCheck_of_no_splice, if_pos ⟨hw, hs, by rwa [hprof]⟩]
        rw [hprof]
        exact fun ⟨_, _, hle, _⟩ => absurd hle (by omega)
      rw [hscan, hclose, closeWatch, hups]
      rfl
    · rw [hscan, spliceCheck_of_no_splice, if_neg]
      · rw [hprof]
        exact fun ⟨_, _, hlt⟩ => absurd hlt (by omega)
      · rw [hnone]
        exact fun ⟨_, _, _, hsome⟩ => absurd hsome (by decide)
    · refine ⟨_, hscan, ?_⟩
      rw [spliceCheck_splices hroles hw hs (by rwa [hprof]) hn]
      refine ⟨⟨?_, ?_, ?_, ?_, ?_, ?_, ?_, ?_⟩, ?_, ?_⟩
      all_goals simp only [settle_frame]

end Sys2Proof.Machine
end

section
/-! The restart of the cycle, and the flush at a change of geometry (R21, R44, R85, R88). -/

namespace Sys2Proof.Machine

/-- The link after the lock has dropped, if it was out of FREE_RUN (R84). -/
def State.lockReport (s : State) : MessageLink :=
  if s.otg.lock = .freeRun then s.ml else (raise (.lockState .freeRun) s).ml

theorem PacingUnit.with_counts_self (x : PacingUnit) (hgood : x.good = 0) (hbad : x.bad = 0) {n : Nat} (hn : n = x.nextFixed) :
    { x with good := 0, bad := 0, nextFixed := n } = x := by
  subst hn
  cases x
  cases hgood
  cases hbad
  rfl

/-- The cycle restarts; counts at 0 and a next fixed interval at its start value stay (R83, R85, R88; Log 36). -/
theorem restartCycle_eq {s : State} (hgood : s.pu.good = 0) (hbad : s.pu.bad = 0)
    (hnext : s.prof.pacing = .fixed → s.pu.nextFixed = s.prof.fixedInterval) : restartCycle s = { s with
      otg := { s.otg.restarted s.prof s.timeBase with
        pendingApp := s.otg.pendingApp, pendingReset := s.otg.pendingReset }
      ml := s.lockReport } := by
  let o : OutputTiming := { s.otg.restarted s.prof s.timeBase with
    lock := s.otg.lock, pendingApp := s.otg.pendingApp, pendingReset := s.otg.pendingReset }
  have hstart : restartCycle s = dropLock (s.setOtg o) := by
    simp only [restartCycle, o, OutputTiming.restarted]
    cases s.prof.pacing <;> rfl
  have hprof : (s.setOtg o).prof = s.prof := rfl
  have hlock : (s.setOtg o).otg.lock = s.otg.lock := rfl
  rw [hstart, dropLock, setLock, hlock, State.lockReport]
  by_cases hfree : s.otg.lock = .freeRun
  · rw [if_pos hfree, if_pos hfree]
    simp only [State.setOtg, o, hfree]
    rfl
  · rw [if_neg hfree, if_neg hfree]
    have hpu : { s.pu with
        good := 0
        bad := 0
        nextFixed := if s.prof.pacing = .fixed then s.prof.fixedInterval else s.pu.nextFixed } = s.pu := by
      refine s.pu.with_counts_self hgood hbad ?_
      split
      next hf => exact (hnext hf).symm
      · rfl
    have hset : (((s.setOtg o).setOtg { (s.setOtg o).otg with lock := .freeRun }).setPu { (s.setOtg o).pu with
        good := 0
        bad := 0
        nextFixed := if (.freeRun : Lock) = .freeRun ∧ (s.setOtg o).prof.pacing = .fixed then
          (s.setOtg o).prof.fixedInterval else (s.setOtg o).pu.nextFixed }) = { s with
            otg := { s.otg.restarted s.prof s.timeBase with
              pendingApp := s.otg.pendingApp, pendingReset := s.otg.pendingReset } } := by
      simp only [hprof, true_and]
      exact congrArg (fun x => State.setPu { s with
            otg := { s.otg.restarted s.prof s.timeBase with
              pendingApp := s.otg.pendingApp, pendingReset := s.otg.pendingReset } } x) hpu
    refine (congrArg (raise (.lockState .freeRun)) hset).trans ((raise_eq_setMl _ _).trans ?_)
    rw [raise_ml_congr (s := s)]
    · rfl
    · rfl

/-- A record after the first fate reported for its frame, if one is (R158). -/
def FrameRec.fated (r : FrameRec) (report : Option (Slot × Fate)) : FrameRec :=
  match r.fate, report with
  | .pending, some x => { r with fate := x.2 }
  | _, _ => r

theorem fateRing_eq_fated (s : State) (reports : List (Slot × Fate)) : s.fateRing reports =
    s.hr.map fun r => r.fated (reports.find? fun x => (s.slot x.1).frameNo = some r.frameNo) := by
  rfl

theorem FrameRec.fated_close (r : FrameRec) (report : Option (Slot × Fate)) (bad : Nat) (truncated : Bool) :
    FrameRec.fated { r with bad := bad, truncated := truncated } report =
      { r.fated report with bad := bad, truncated := truncated } := by
  obtain ⟨_, _, _, _, _, _, _, _, _, _, fate⟩ := r
  cases fate <;> cases report <;> rfl

theorem FrameRec.fated_frameNo (r : FrameRec) (report : Option (Slot × Fate)) : (r.fated report).frameNo = r.frameNo := by
  obtain ⟨_, _, _, _, _, _, _, _, _, _, fate⟩ := r
  cases fate <;> cases report <;> rfl

/-- The fates of a report and the stamps of a close are independent (R155, R158). -/
theorem fateRing_closeRing {s u : State} (bad : Nat) (truncated : Bool) (reports : List (Slot × Fate))
    (hring : u.hr = s.closeRing bad truncated s.hr) (hslots : ∀ k, u.slot k = s.slot k) :
    u.fateRing reports = s.closeRing bad truncated (s.fateRing reports) := by
  rw [fateRing_eq_fated, fateRing_eq_fated, hring, State.closeRing, State.closeRing, List.map_map, List.map_map]
  refine List.map_congr_left fun r _ => ?_
  have hframe (x : Option (Slot × Fate)) : (r.fated x).frameNo = r.frameNo := r.fated_frameNo x
  simp only [Function.comp_apply, hslots]
  by_cases hr : r.frameNo = s.sp.frameCounter
  · rw [if_pos hr, if_pos ((hframe _).trans hr)]
    exact FrameRec.fated_close ..
  · rw [if_neg hr, if_neg fun h => hr ((hframe _).symm.trans h)]

/-- The frame in progress closes at a change of geometry (R44, R155). -/
theorem closeByGeometry_eq (s : State) : closeByGeometry s = { s with hr := s.cutRing s.hr } := by
  have hbad : s.fillingBad = s.badSoFar := by
    rw [State.fillingBad, State.badSoFar]
    cases s.pool.filling <;> rfl
  rw [closeByGeometry, State.cutRing, hbad]
  cases s.sp.cond <;> rfl

theorem fateRing_cutRing {s u : State} (reports : List (Slot × Fate)) (hring : u.hr = s.cutRing s.hr)
    (hslots : ∀ k, u.slot k = s.slot k) : u.fateRing reports = s.cutRing (s.fateRing reports) := by
  rw [State.cutRing] at hring ⊢
  cases hcond : s.sp.cond with
  | taken =>
    rw [hcond] at hring
    exact fateRing_closeRing _ _ _ hring hslots
  | foreign =>
    rw [hcond] at hring
    exact fateRing_closeRing _ _ _ hring hslots
  | none | observed | ignored =>
    rw [hcond] at hring
    exact fateRing_congr _ hring fun x _ => congrArg SlotRec.frameNo (hslots x.1)

/-- Every slot freed and its frame FLUSHED (R21). -/
theorem flushPool_eq (s : State) : flushPool s = { s with
    pool := SlotPool.powerOn s.pool.store
    hr := s.fateRing ((List.finRange 4).map fun k => (k, .flushed)) } := by
  refine State.ext_blocks ⟨?_, ?_, flushPool_pool s, ?_, ?_, ?_, ?_⟩ ⟨?_, ?_, ?_, ?_, ?_, ?_, ?_, ?_⟩
  case refine_10 => exact freeSlots_hr _ .flushed (by decide) s
  all_goals simp

/-- A change of geometry: the close, the flush, and the frame in progress passed over (R21, R44; Log 15, Log 33, Log 34). -/
theorem applyFrames_of_geometry (old : Profile) (s : State) : applyFrames (some old) true s = { s with
    pool := SlotPool.powerOn s.pool.store
    hr := s.flushRing
    sp := { s.sp with cond := s.sp.cond.passedOver, stripErr := false, cleanRun := 0, prevRef := none } } := by
  have hring : State.fateRing { s with hr := s.cutRing s.hr } ((List.finRange 4).map fun k => (k, .flushed)) = s.flushRing :=
    fateRing_cutRing (u := { s with hr := s.cutRing s.hr }) _ rfl fun _ => rfl
  simp only [applyFrames, if_true, closeByGeometry_eq, flushPool_eq, hring]
  rfl

theorem applyFrames_of_same (old : Profile) (s : State) : applyFrames (some old) false s = s := rfl

end Sys2Proof.Machine
end

section
/-! A later profile applied (R66, R85, R138, R139). -/

namespace Sys2Proof.Machine

/-- The results that an application leaves in the pacing unit (R66). -/
theorem applyPacing_pu (geo win : Bool) (u : State) : (applyPacing geo win u).pu = { u.pu with
    intervals := (applyPacing geo win u).pu.intervals
    fills := (applyPacing geo win u).pu.fills
    ti := averageInterval (applyPacing geo win u).pu.intervals
    fi := averageFill (applyPacing geo win u).pu.fills
    q := computeQ u.pc.active (averageFill (applyPacing geo win u).pu.fills)
    lastQ := (applyPacing geo win u).pu.q
    planActive := (planOf u.pc.active (applyPacing geo win u).pu.ti).1
    k := (planOf u.pc.active (applyPacing geo win u).pu.ti).2.1
    tr := (planOf u.pc.active (applyPacing geo win u).pu.ti).2.2
    admitted := admissionHolds u.pc.active (applyPacing geo win u).pu.ti
    armed := false
    good := 0
    bad := 0
    nextFixed := if u.prof.pacing = .fixed then u.prof.fixedInterval else 0 } := by
  obtain ⟨hpu, hpc, -, -⟩ := pacingJudged_fields geo win u
  rw [applyPacing_eq]
  simp only [setAdmission, setPlan, State.setPu_fields, hpu, hpc, State.prof]
  rfl

/-- The windows of an application (R52, R54, R66; Log 37). -/
theorem applyPacing_windows (geo win : Bool) (u : State) :
    ((geo || win) = true → emptiedTo u.pu.sampledNow u.pu.intervals (applyPacing geo win u).pu.intervals) ∧
    ((geo || win) = false → (applyPacing geo win u).pu.intervals = u.pu.intervals) ∧
    (geo = true → emptiedTo u.pu.filledNow u.pu.fills (applyPacing geo win u).pu.fills) ∧
    (geo = false → (applyPacing geo win u).pu.fills = u.pu.fills) := by
  obtain ⟨hpu, -, -, -⟩ := pacingJudged_fields geo win u
  have hwindows : (applyPacing geo win u).pu.intervals = (emptyWindows (geo || win) geo u).pu.intervals ∧
      (applyPacing geo win u).pu.fills = (emptyWindows (geo || win) geo u).pu.fills := by
    rw [applyPacing_eq]
    simp only [setAdmission, setPlan, State.setPu_fields, hpu]
    exact ⟨rfl, rfl⟩
  rw [hwindows.1, hwindows.2]
  exact emptyWindows_windows (geo || win) geo u

/-- Both copies of Q are the pacing unit's (R57, R66, R91). -/
theorem applyPacing_copies (geo win : Bool) (u : State) :
    (applyPacing geo win u).pool.q = (applyPacing geo win u).pu.q ∧
      (applyPacing geo win u).ps = { u.ps with q := (applyPacing geo win u).pu.q } := by
  obtain ⟨hpu, -, hpool, hps⟩ := pacingJudged_fields geo win u
  have hq : (applyPacing geo win u).pu.q = (u.pacingJudged geo win).pu.q := by
    rw [applyPacing_eq]
    rfl
  have hcopies : (applyPacing geo win u).pool.q = (applyPacing geo win u).pu.q ∧
      (applyPacing geo win u).ps.q = (applyPacing geo win u).pu.q := by
    rw [hq, hpu]
    exact ⟨hpool, hps⟩
  refine ⟨hcopies.1, ?_⟩
  rw [← hcopies.2]
  have hframe : (applyPacing geo win u).ps.detachTime = u.ps.detachTime ∧
      (applyPacing geo win u).ps.blankActive = u.ps.blankActive ∧ (applyPacing geo win u).ps.lastKind = u.ps.lastKind ∧
      (applyPacing geo win u).ps.watchOpen = u.ps.watchOpen := by simp
  obtain ⟨h1, h2, h3, h4⟩ := hframe
  generalize (applyPacing geo win u).ps = x at h1 h2 h3 h4 ⊢
  cases x
  simp only at h1 h2 h3 h4 ⊢
  rw [h1, h2, h3, h4]

theorem applyPacing_judged (geo win : Bool) (u : State) : (applyPacing geo win u).pool = (u.pacingJudged geo win).pool ∧
    (applyPacing geo win u).pu.q = (u.pacingJudged geo win).pu.q := by
  rw [applyPacing_eq]
  exact ⟨rfl, rfl⟩

/-- The judgement of an application sets marks, and nothing else (R13, R66; Log 12). -/
theorem applyPacing_slots (geo win : Bool) (u : State) (k : Slot) : (applyPacing geo win u).slot k = u.slot k ∨
    (applyPacing geo win u).slot k = { u.slot k with eligible := true } := by
  have hmark (v : State) (j : Slot) (hv : ∀ k, v.slot k = u.slot k ∨ v.slot k = { u.slot k with eligible := true }) (k : Slot) :
      (markEligible j v).slot k = u.slot k ∨ (markEligible j v).slot k = { u.slot k with eligible := true } := by
    have hslot : (markEligible j v).slot k = if k = j then { v.slot j with eligible := true } else v.slot k :=
      SlotPool.slot_setSlot ..
    rw [hslot]
    split
    next he =>
      subst he
      rcases hv k with h | h <;> rw [h] <;> exact .inr rfl
    · exact hv k
  have hjudged : ∀ k, (u.pacingJudged geo win).slot k = u.slot k ∨
      (u.pacingJudged geo win).slot k = { u.slot k with eligible := true } :=
    judgeAll_inv (fun v => ∀ k, v.slot k = u.slot k ∨ v.slot k = { u.slot k with eligible := true }) (fun s => s)
      (fun _ h => h) (fun j v hv => hmark v j hv) _ fun _ => .inl rfl
  have hpool := (applyPacing_judged geo win u).1
  rw [State.slot, hpool]
  exact hjudged k

theorem marked_pool_congr {s u : State} (hpool : u.pool = s.pool) (hsp : u.sp = s.sp) (hprof : u.prof = s.prof)
    (q : Option Nat) : (u.marked q).pool = (s.marked q).pool := by
  have hslot (k : Slot) : u.slot k = s.slot k := congrArg (SlotPool.slot · k) hpool
  have hmarks (k : Slot) : u.Marks q k ↔ s.Marks q k := by
    refine ⟨fun ⟨h1, h2, h3, h4, h5, h6⟩ => ?_, fun ⟨h1, h2, h3, h4, h5, h6⟩ => ?_⟩
    · rw [hpool] at h1 h2
      rw [hslot] at h3 h6
      exact ⟨h1, h2, h3, hprof ▸ h4, hsp ▸ h5, h6⟩
    · rw [← hpool] at h1 h2
      rw [← hslot] at h3 h6
      exact ⟨h1, h2, h3, hprof ▸ h4, hsp ▸ h5, h6⟩
  by_cases h : ∃ k, s.Marks q k
  · obtain ⟨k, hk⟩ := h
    rw [marked_of_marks hk, marked_of_marks ((hmarks k).mpr hk), hslot]
    exact congrArg (SlotPool.setSlot · k { s.slot k with eligible := true }) hpool
  · rw [marked_of_not fun k hk => h ⟨k, hk⟩, marked_of_not fun k hk => h ⟨k, (hmarks k).mp hk⟩]
    exact hpool

/-- With the roles in order, the judgement of an application marks the one candidate that meets the test (R13, R66). -/
theorem applyPacing_pool (geo win : Bool) {u : State} (hroles : u.pool.rolesHold) :
    (applyPacing geo win u).pool =
      { (u.marked (applyPacing geo win u).pu.q).pool with q := (applyPacing geo win u).pu.q } := by
  obtain ⟨hpu, -, -, -⟩ := pacingJudged_fields geo win u
  obtain ⟨hpool, hq⟩ := applyPacing_judged geo win u
  replace hq : (applyPacing geo win u).pu.q = computeQ (u.pacingBegun geo win).pc.active (u.pacingBegun geo win).pu.fi := by
    rw [hq, hpu]
    rfl
  have hmark := judgeAll_eq_marked (s := u.pacingBegun geo win) (event := fun s => s) (fun _ _ => rfl) hroles
    (computeQ (u.pacingBegun geo win).pc.active (u.pacingBegun geo win).pu.fi)
  have hsame := marked_pool_congr (s := u) (u := u.pacingBegun geo win) rfl rfl rfl
    (computeQ (u.pacingBegun geo win).pc.active (u.pacingBegun geo win).pu.fi)
  rw [hpool, hq, State.pacingJudged, hmark, ← hsame]
  rfl

end Sys2Proof.Machine
end

section
/-! A later profile applied, every block's share (R66, R85, R138, R139). -/

namespace Sys2Proof.Machine

variable {s : State} {old p : Profile}

/-- The state in which the blocks take their shares of an application (R138). -/
def State.begun (s : State) (p : Profile) : State :=
  { s with pc := { s.pc with active := some p, proposal := none, propState := .none } }

/-- The shares of the source port, the slot pool and the pacing unit (R66, R138). -/
def State.paced (s : State) (old p : Profile) : State :=
  applyPacing (geometryDiffers (some old) p) (windowDiffers (some old) p)
    (applyFrames (some old) (geometryDiffers (some old) p) (s.begun p))

/-- Neither share reaches these blocks. -/
theorem paced_frame (s : State) (old p : Profile) :
    (s.paced old p).pc = (s.begun p).pc ∧ (s.paced old p).otg = s.otg ∧ (s.paced old p).ml = s.ml ∧
      (s.paced old p).cs = s.cs ∧ (s.paced old p).pf = s.pf ∧ (s.paced old p).panel = s.panel ∧
      (s.paced old p).timeBase = s.timeBase ∧ (s.paced old p).pool.store = s.pool.store := by
  rw [State.paced]
  cases geometryDiffers (some old) p with
  | true =>
    rw [applyFrames_of_geometry]
    simp [SlotPool.powerOn, State.begun]
  | false =>
    rw [applyFrames_of_same]
    simp [State.begun]

/-- Of the pacing unit's items none is touched by the flush. -/
theorem paced_framed (s : State) (old p : Profile) :
    (applyFrames (some old) (geometryDiffers (some old) p) (s.begun p)).pu = s.pu ∧
      (applyFrames (some old) (geometryDiffers (some old) p) (s.begun p)).ps = s.ps ∧
      (applyFrames (some old) (geometryDiffers (some old) p) (s.begun p)).pc = (s.begun p).pc := by
  cases geometryDiffers (some old) p with
  | true =>
    rw [applyFrames_of_geometry]
    exact ⟨rfl, rfl, rfl⟩
  | false => exact ⟨rfl, rfl, rfl⟩

theorem paced_pu (s : State) (old p : Profile) : (s.paced old p).pu = { s.pu with
    intervals := (s.paced old p).pu.intervals
    fills := (s.paced old p).pu.fills
    ti := averageInterval (s.paced old p).pu.intervals
    fi := averageFill (s.paced old p).pu.fills
    q := computeQ (some p) (averageFill (s.paced old p).pu.fills)
    lastQ := (s.paced old p).pu.q
    planActive := (planOf (some p) (s.paced old p).pu.ti).1
    k := (planOf (some p) (s.paced old p).pu.ti).2.1
    tr := (planOf (some p) (s.paced old p).pu.ti).2.2
    admitted := admissionHolds (some p) (s.paced old p).pu.ti
    armed := false
    good := 0
    bad := 0
    nextFixed := if p.pacing = .fixed then p.fixedInterval else 0 } := by
  obtain ⟨hpu, -, hpc⟩ := paced_framed s old p
  have h := applyPacing_pu (geometryDiffers (some old) p) (windowDiffers (some old) p)
    (applyFrames (some old) (geometryDiffers (some old) p) (s.begun p))
  rw [hpu, State.prof, hpc] at h
  exact h

/-- A later application, out of IDLE (R85, R138; Log 12). -/
theorem applyProfile_later (hp : s.pc.proposal = some p) (hold : s.pc.active = some old) (ht : s.otg.timing ≠ .idle) :
    applyProfile s = { s.paced old p with
      otg := { s.otg.restarted p s.timeBase with pendingReset := s.otg.pendingReset }
      ml := s.lockReport.complete .profileApply .ok } := by
  obtain ⟨hpc, hotg, hml, -, -, -, htime, -⟩ := paced_frame s old p
  have hprof : (s.paced old p).prof = p := by
    rw [State.prof, hpc]
    rfl
  have hpu := paced_pu s old p
  have hrestart : restartCycle (s.paced old p) = { s.paced old p with
      otg := { s.otg.restarted p s.timeBase with pendingApp := s.otg.pendingApp, pendingReset := s.otg.pendingReset }
      ml := s.lockReport } := by
    have hreport : (s.paced old p).lockReport = s.lockReport := by
      rw [State.lockReport, State.lockReport, hotg, hml, raise_ml_congr _ hml]
    have hnext : (s.paced old p).prof.pacing = .fixed → (s.paced old p).pu.nextFixed = (s.paced old p).prof.fixedInterval := by
      rw [hprof]
      exact fun hfixed => (congrArg PacingUnit.nextFixed hpu).trans (if_pos hfixed)
    have hcycle : ({ (s.paced old p).otg.restarted (s.paced old p).prof (s.paced old p).timeBase with
        pendingApp := (s.paced old p).otg.pendingApp
        pendingReset := (s.paced old p).otg.pendingReset } : OutputTiming) = { s.otg.restarted p s.timeBase with
          pendingApp := s.otg.pendingApp, pendingReset := s.otg.pendingReset } := by
      rw [hprof, hotg, htime]
    exact (restartCycle_eq (congrArg PacingUnit.good hpu) (congrArg PacingUnit.bad hpu) hnext).trans
      (congrArg₂ (fun o m => (s.paced old p).setOtg o |>.setMl m) hcycle hreport)
  have happly : applyProfile s = completeDeferred .profileApply .ok
      ((restartCycle (s.paced old p)).setOtg { (restartCycle (s.paced old p)).otg with pendingApp := false }) := by
    simp only [applyProfile, hp, hold, ht, if_false]
    rfl
  rw [happly, completeDeferred_eq, hrestart]
  generalize s.paced old p = x
  generalize s.lockReport = m
  rfl

theorem geometryDiffers_some : geometryDiffers (some old) p = false ↔ old.width = p.width ∧ old.height = p.height := by
  simp [geometryDiffers]

theorem windowDiffers_some : windowDiffers (some old) p = false ↔
    old.pacing = p.pacing ∧ old.winMin = p.winMin ∧ old.winMax = p.winMax := by
  simp [windowDiffers, and_assoc]

end Sys2Proof.Machine
end

section
/-! The application of a later profile is as stated (R66, R85, R138, R139). -/

namespace Sys2Proof.Machine

variable {s : State} {old p : Profile}

/-- With the same geometry the frames stay, but for the mark (R13, R66, R139). -/
theorem paced_same (hgeo : geometryDiffers (some old) p = false) :
    (s.paced old p).sp = s.sp ∧ (s.paced old p).hr = s.hr ∧
      (∀ k, (s.paced old p).slot k = s.slot k ∨ (s.paced old p).slot k = { s.slot k with eligible := true }) ∧
      (s.poolHolds → (s.paced old p).pool =
        { (State.marked { s with pc := { s.pc with active := some p } } (s.paced old p).pu.q).pool with
          q := (s.paced old p).pu.q }) ∧
      (s.paced old p).pool.filling = s.pool.filling ∧ (s.paced old p).pool.ready = s.pool.ready ∧
      (s.paced old p).pool.held = s.pool.held ∧ (s.paced old p).pool.onScreen = s.pool.onScreen ∧
      (s.paced old p).pool.cands = s.pool.cands ∧ (s.paced old p).pu.fills = s.pu.fills ∧
      (windowDiffers (some old) p = false → (s.paced old p).pu.intervals = s.pu.intervals) ∧
      (windowDiffers (some old) p = true → emptiedTo s.pu.sampledNow s.pu.intervals (s.paced old p).pu.intervals) := by
  have hpaced : s.paced old p = applyPacing false (windowDiffers (some old) p) (s.begun p) := by
    rw [State.paced, hgeo]
    rfl
  rw [hpaced]
  obtain ⟨hemptied, hkept, -, hfills⟩ := applyPacing_windows false (windowDiffers (some old) p) (s.begun p)
  have hpool : s.poolHolds → (applyPacing false (windowDiffers (some old) p) (s.begun p)).pool =
      { (State.marked { s with pc := { s.pc with active := some p } }
          (applyPacing false (windowDiffers (some old) p) (s.begun p)).pu.q).pool with
        q := (applyPacing false (windowDiffers (some old) p) (s.begun p)).pu.q } := by
    intro h
    have hmarked := marked_pool_congr (s := { s with pc := { s.pc with active := some p } }) (u := s.begun p) rfl rfl rfl
      (applyPacing false (windowDiffers (some old) p) (s.begun p)).pu.q
    rw [← hmarked]
    exact applyPacing_pool false (windowDiffers (some old) p) (u := s.begun p) h.1
  refine ⟨by simp [State.begun], by simp [State.begun], fun k => applyPacing_slots false _ (s.begun p) k, hpool,
    ?_, ?_, ?_, ?_, ?_, hfills rfl, fun hw => ?_, fun hw => ?_⟩
  · simp [State.begun]
  · simp [State.begun]
  · simp [State.begun]
  · simp [State.begun]
  · simp [State.begun]
  · exact hkept (by simpa using hw)
  · exact hemptied (by simpa using hw)

/-- With another geometry every slot is freed, and the frame in progress is passed over (R21, R44, R139). -/
theorem paced_other (hgeo : geometryDiffers (some old) p = true) :
    (s.paced old p).sp = { s.sp with
        cond := s.sp.cond.passedOver, stripErr := false, cleanRun := 0, prevRef := none } ∧
      (s.paced old p).hr = s.flushRing ∧ (∀ k, (s.paced old p).slot k = SlotRec.free) ∧
      (s.paced old p).pool.filling = none ∧ (s.paced old p).pool.ready = none ∧ (s.paced old p).pool.held = none ∧
      (s.paced old p).pool.onScreen = none ∧ (s.paced old p).pool.cands = [] ∧
      emptiedTo s.pu.filledNow s.pu.fills (s.paced old p).pu.fills ∧
      emptiedTo s.pu.sampledNow s.pu.intervals (s.paced old p).pu.intervals := by
  let flushed : State := { s.begun p with
    pool := SlotPool.powerOn s.pool.store
    hr := s.flushRing
    sp := { s.sp with cond := s.sp.cond.passedOver, stripErr := false, cleanRun := 0, prevRef := none } }
  have hpaced : s.paced old p = applyPacing true (windowDiffers (some old) p) flushed := by
    rw [State.paced, hgeo]
    exact congrArg (applyPacing true (windowDiffers (some old) p)) (applyFrames_of_geometry old (s.begun p))
  rw [hpaced]
  obtain ⟨hemptied, -, hfills, -⟩ := applyPacing_windows true (windowDiffers (some old) p) flushed
  have hslots (k : Slot) : (applyPacing true (windowDiffers (some old) p) flushed).slot k = SlotRec.free := by
    have hpool := applyPacing_pool true (windowDiffers (some old) p) (u := flushed) (powerOn_rolesHold _)
    have hnone : flushed.marked (applyPacing true (windowDiffers (some old) p) flushed).pu.q = flushed := rfl
    rw [hnone] at hpool
    rw [State.slot, hpool]
    simp [flushed, SlotPool.slot, SlotPool.powerOn]
  refine ⟨by simp [flushed], by simp [flushed], hslots, ?_, ?_, ?_, ?_, ?_, hfills rfl, hemptied rfl⟩
  all_goals simp [flushed, SlotPool.powerOn]

theorem complete_notices (m : MessageLink) (k : DeferredKind) (st : Status) :
    (m.complete k st).enables = m.enables ∧ (m.complete k st).tx = m.tx ∧ (m.complete k st).notices = m.notices := by
  rw [MessageLink.complete]
  split
  · cases k <;> exact ⟨rfl, rfl, rfl⟩
  all_goals exact ⟨rfl, rfl, rfl⟩

/-- The drop of the lock is reported whatever completes after it (R84). -/
theorem lockReport_noticed {u : State} (hlock : s.otg.lock ≠ .freeRun) {k : DeferredKind} {st : Status}
    (hml : u.ml = s.lockReport.complete k st) : s.noticed u (.lockState .freeRun) := by
  obtain ⟨he, htx, hn⟩ := complete_notices s.lockReport k st
  have hraised : s.lockReport = (raise (.lockState .freeRun) s).ml := if_neg hlock
  have h := raise_noticed s s (.lockState .freeRun) rfl
  intro hon
  have h := h hon
  rw [hml, hn, htx, hraised]
  exact h

/-- A later profile applied out of SCAN and with no reset pending (R85, R138). -/
theorem applyProfile_appliedAs (hp : s.pc.proposal = some p) (hold : s.pc.active = some old) (ht : s.otg.timing ≠ .idle)
    (hreset : s.otg.pendingReset = false) : s.appliedAs old p (settle (applyProfile s)) := by
  obtain ⟨hpc, hotg, hml, hcs, hpf, hpanel, htime, hstore⟩ := paced_frame s old p
  have happlied := applyProfile_later hp hold ht
  have hpu := paced_pu s old p
  obtain ⟨hpoolQ, hps⟩ := applyPacing_copies (geometryDiffers (some old) p) (windowDiffers (some old) p)
    (applyFrames (some old) (geometryDiffers (some old) p) (s.begun p))
  rw [(paced_framed s old p).2.1] at hps
  have hnotice : s.otg.lock ≠ .freeRun → s.noticed (settle (applyProfile s)) (.lockState .freeRun) := fun hlock =>
    noticed_settle (lockReport_noticed hlock (by rw [happlied])) (by simp)
  have hslot (k : Slot) : (settle (applyProfile s)).slot k = (s.paced old p).slot k := by
    have hpool : (settle (applyProfile s)).pool = (applyProfile s).pool := by simp
    rw [State.slot, hpool, happlied]
    rfl
  unfold State.appliedAs
  refine ⟨?_, ?_, hnotice, ?_, ?_, ?_, ?_, ?_, ?_, ?_, ?_, fun hw hh => ?_, fun hne => ?_⟩
  all_goals simp only [settle_frame, hslot]
  all_goals rw [happlied]
  · exact hpc
  · rw [hreset]
    rfl
  · exact hcs
  · exact hpf
  · exact hpanel
  · exact htime
  · exact hstore
  · exact hps
  · exact hpoolQ
  · exact hpu
  · obtain ⟨hsp, hhr, hslots, hpool, hfilling, hready, hheld, hon, hcands, hfills, hkept, hemptied⟩ :=
      paced_same (s := s) (geometryDiffers_some.mpr ⟨hw, hh⟩)
    refine ⟨hsp, hhr, hslots, hpool, hfilling, hready, hheld, hon, hcands, hfills,
      fun h => hkept (windowDiffers_some.mpr h), fun h => hemptied ?_⟩
    rw [← Bool.not_eq_false]
    exact fun h' => h (windowDiffers_some.mp h')
  · refine paced_other (s := s) ?_
    rw [← Bool.not_eq_false]
    exact fun h => hne (geometryDiffers_some.mp h)

end Sys2Proof.Machine
end

section
/-! A later profile confirmed outside SCAN (R85, R136, R138). -/

namespace Sys2Proof.Machine

theorem raise_ml (n : Notice) (s : State) : (raise n s).ml = { s.ml with notices := (raise n s).ml.notices } := by
  rw [raise]
  split <;> rfl

/-- A report of the lock leaves the replies and the deferred records (R169). -/
theorem lockReport_eq (s : State) : s.lockReport = { s.ml with notices := s.lockReport.notices } := by
  rw [State.lockReport]
  split
  · rfl
  · exact raise_ml _ s

/-- The one reply of an operation that completes with the queue free (R167). -/
theorem settle_of_completed {u : State} {m : MessageLink} {k : DeferredKind} {tag : Byte} {st : Status}
    (hml : u.ml = m.complete k st) (hwait : m.deferred k = .waiting tag) (hdone : m.doneOrder = [])
    (hroom : m.replies.length < 4) : (settle u).ml.replies = m.replies ++ [⟨tag, st, 0, []⟩] ∧
      (settle u).ml.deferred k = .empty := by
  rw [complete_of_waiting st hwait] at hml
  have horder : u.ml.doneOrder = [k] := by rw [hml, hdone]; rfl
  have hreplies : u.ml.replies = m.replies := by
    rw [hml]
    cases k <;> rfl
  have hdef : u.ml.deferred k = .completed tag st := by
    rw [hml]
    cases k <;> rfl
  have hlawful : u.ml.doneHolds := by
    refine ⟨fun j hj => ?_, by rw [horder]; exact List.nodup_singleton k⟩
    rw [horder, List.mem_singleton] at hj
    exact ⟨tag, st, by rw [hj, hdef]⟩
  have hks : u.ml.doneOrder.take (4 - u.ml.replies.length) = [k] := by
    rw [horder, hreplies]
    exact List.take_of_length_le (by simp; omega)
  obtain ⟨hr, -, hd⟩ := settle_link hlawful hks
  refine ⟨?_, ?_⟩
  · rw [hr, hreplies, MessageLink.completedReplies]
    simp [hdef]
  · rw [hd]
    cases k <;> rfl

/-- Settles O26: the application at the Confirm, and its one reply. -/
theorem applicationRestartsCycle : Obligations.ApplicationRestartsCycle := by
  intro s r old p hserves hheld hp hold ht hreset
  let s' : State := { s with
    pc := { s.pc with propState := .confirmed }
    otg := { s.otg with pendingApp := true }
    ml := { s.ml with slots := s.ml.slots.drop 1, defProfile := .waiting r.tag } }
  have hexec : exec .confirmProfile s = .next (settle (confirmProfile r (takeRequest s))) := execRequest_of_serves hserves
  have hnot : s.otg.timing ≠ .scan ∧ s.otg.timing ≠ .idle := by
    simp only [List.mem_cons, List.not_mem_nil, or_false] at ht
    rcases ht with ht | ht | ht <;> rw [ht] <;> decide
  obtain ⟨hscan, hidle⟩ := hnot
  have hconfirm : confirmProfile r (takeRequest s) = applyProfile s' := by
    rw [confirmProfile, if_pos (by exact hheld)]
    exact if_neg hscan
  obtain ⟨-, hgranted, -, -⟩ := id hserves
  obtain ⟨hroom, hdone⟩ := granted_room hgranted
  have happlied : s'.appliedAs old p (settle (applyProfile s')) := applyProfile_appliedAs hp hold hidle hreset
  rw [hconfirm] at hexec
  have hml : (applyProfile s').ml = s'.lockReport.complete .profileApply .ok := by
    rw [applyProfile_later (s := s') hp hold hidle]
  have hreport := lockReport_eq s'
  obtain ⟨hreplies, -⟩ := settle_of_completed hml (tag := r.tag) (by rw [hreport]; rfl) (by rw [hreport]; exact hdone)
    (by rw [hreport]; exact hroom)
  obtain ⟨h1, h2, h3, h4, h5, h6, h7, h8, h9, h10, h11, hsame, hother⟩ := happlied
  refine ⟨_, hexec, ⟨h1, h2, h3, h4, h5, h6, h7, h8, h9, h10, h11, fun hw hh => ?_, hother⟩, ?_, ?_⟩
  · obtain ⟨hsp, hhr, hslots, hpool, hrest⟩ := hsame hw hh
    refine ⟨hsp, hhr, hslots, fun h => (hpool h).trans ?_, hrest⟩
    have hmarked := marked_pool_congr (s := { s with pc := { s.pc with active := some p } })
      (u := { s' with pc := { s'.pc with active := some p } }) rfl rfl rfl (settle (applyProfile s')).pu.q
    rw [hmarked]
  · rw [hreplies, hreport]
  · have hslots : (settle (applyProfile s')).ml.slots = (applyProfile s').ml.slots := by simp
    rw [hslots, hml, (complete_keeps _ _ _).1, hreport]

end Sys2Proof.Machine
end

section
/-! The source port's share of a reset point (R45, R108). -/

namespace Sys2Proof.Machine

/-- Only notices have been raised on the message link. -/
def Reported (s t : State) : Prop := t.ml = { s.ml with notices := t.ml.notices }

theorem Reported.of_ml {s t : State} (h : t.ml = s.ml) : Reported s t := by rw [Reported, h]

theorem Reported.trans {s t u : State} (h : Reported s t) (g : Reported t u) : Reported s u := by
  rw [Reported, g, h]

theorem Reported.raise (n : Notice) (s : State) : Reported s (raise n s) := raise_ml n s

theorem setLock_reported (l : Lock) (s : State) : Reported s (setLock l s) := by
  rw [setLock]
  split
  · exact .of_ml rfl
  · exact Reported.trans (t := (s.setOtg { s.otg with lock := l }).setPu _) (.of_ml rfl) (.raise _ _)

theorem moveSource_reported (st : SourceState) (score : Nat) (s : State) : Reported s (moveSource st score s) := by
  have hset : Reported s (s.setSp { s.sp with state := st, score := score }) := .of_ml rfl
  rw [moveSource]
  split
  · exact hset
  · split
    · exact hset.trans (.raise _ _)
    · exact hset.trans ((Reported.raise _ _).trans (setLock_reported _ _))

theorem clearIntervals_reported (s : State) : Reported s (clearIntervals s) := by
  have htake (u : State) (hu : u.ml = s.ml) : Reported s (takeAdmission u) := by
    rw [takeAdmission]
    split
    · exact .of_ml hu
    · exact Reported.trans (.of_ml hu) (setLock_reported _ u)
  exact htake _ (by simp [setAdmission, setPlan])

theorem clearWindows_reported {s : State} (h : s.pool.rolesHold) : Reported s (clearWindows s) := by
  rw [clearWindows_eq h, qUnknown_eq]
  exact (clearIntervals_reported s).trans (.of_ml rfl)

theorem enterDetached_reported (score : Nat) {s : State} (h : s.pool.rolesHold) : Reported s (enterDetached score s) := by
  refine (moveSource_reported .detached score s).trans (Reported.trans ?_ (clearWindows_reported ?_))
  · exact .of_ml rfl
  · have hpool : (moveSource .detached score s).pool = s.pool := by simp
    exact hpool.symm ▸ h

theorem moveSource_clean (score : Nat) (s : State) : moveSource .clean score s = s.moved .clean score := by
  rw [moveSource, State.moved]
  by_cases h : s.sp.state = .clean
  · rw [if_pos h, if_pos h.symm]
    rfl
  · rw [if_neg h, if_neg (Ne.symm h)]
    rfl

/-- A reset point's frame in progress passed over, and its pool emptied, before the source state is set (R22, R45; Log 38). -/
def State.resetBegun (s : State) : State :=
  { s with
    pool := SlotPool.powerOn s.pool.store
    sp := { s.sp with cond := s.sp.cond.passedOver, cleanRun := 0, prevRef := none, stripErr := false } }

/-- What the source port's share of a reset point leaves (R22, R36, R37, R45, R47, R84, R108). -/
structure Resourced (s v : State) : Prop where
  pool : v.pool = SlotPool.powerOn s.pool.store
  sp : v.sp = { s.resetBegun.sp with state := v.sp.state, score := v.sp.score }
  ps : v.ps = { s.ps with detachTime := v.ps.detachTime, q := v.ps.q }
  otg : v.otg = { s.otg with lock := v.otg.lock, planCount := v.otg.planCount, repeatTimer := v.otg.repeatTimer }
  rest : v.cs = s.cs ∧ v.pc = s.pc ∧ v.pf = s.pf ∧ v.panel = s.panel ∧ v.timeBase = s.timeBase
  entered : v.pu.sampledNow = s.pu.sampledNow ∧ v.pu.filledNow = s.pu.filledNow
  windows : v.pu.intervals = s.pu.intervals ∧ v.pu.fills = s.pu.fills ∨
    v.pu.intervals = [] ∧ v.pu.fills = []
  present : s.sp.signal = true → v.sp.state = .clean ∧ v.sp.score = 0 ∧ v.ps.detachTime = none
  absent : s.sp.signal = false → v.sp.state = .detached ∧ v.sp.score = 128 ∧
    v.ps.detachTime = (if s.sp.state = .detached then s.ps.detachTime else some s.timeBase)
  cleared : s.sp.signal = false → s.sp.state ≠ .detached → v.pu.intervals = [] ∧ v.pu.fills = []
  source : v.sp.state ≠ s.sp.state → s.noticed v (.sourceState v.sp.state v.sp.score)
  lock : s.otg.lock ≠ .freeRun → v.otg.lock = .freeRun ∧ s.noticed v (.lockState .freeRun) ∨
    v.otg.lock = s.otg.lock ∧ NoticeKept 1 s v
  link : Reported s v

variable {s : State}

theorem resetSource_of_present (h : s.sp.signal = true) : resetSource (resetPool s) =
    (s.resetBegun.moved .clean 0).setPs { s.ps with detachTime := none } := by
  have hps : (s.resetBegun.moved .clean 0).ps = s.ps := by
    rw [moved_eq]
    rfl
  rw [← hps, ← moveSource_clean]
  exact if_pos h

theorem resetSource_of_detached (h : s.sp.signal = false) (hdet : s.sp.state = .detached) :
    resetSource (resetPool s) = s.resetBegun.setSp { s.resetBegun.sp with score := 128 } := by
  have hno : ¬ s.resetBegun.sp.signal = true := by
    rw [show s.resetBegun.sp.signal = s.sp.signal from rfl, h]
    decide
  exact (if_neg hno).trans (if_pos hdet)

theorem resetSource_of_absent (h : s.sp.signal = false) (hdet : s.sp.state ≠ .detached) :
    resetSource (resetPool s) = enterDetached 128 s.resetBegun := by
  have hno : ¬ s.resetBegun.sp.signal = true := by
    rw [show s.resetBegun.sp.signal = s.sp.signal from rfl, h]
    decide
  exact (if_neg hno).trans (if_neg hdet)

theorem resourced_of_present (h : s.sp.signal = true) : Resourced s (resetSource (resetPool s)) := by
  have hnotice : SourceState.clean ≠ s.sp.state → s.noticed (s.resetBegun.moved .clean 0) (.sourceState .clean 0) :=
    fun hne => moved_noticed (s := s.resetBegun) 0 hne
  have hkept : NoticeKept 1 s (s.resetBegun.moved .clean 0) :=
    NoticeKept.trans (v := s.resetBegun) (.of_ml rfl rfl) (moved_lockSame s.resetBegun .clean 0).notice
  have hlink : Reported s (s.resetBegun.moved .clean 0) := by
    rw [← moveSource_clean]
    exact Reported.trans (t := s.resetBegun) (.of_ml rfl) (moveSource_reported ..)
  have heq := moved_eq s.resetBegun .clean 0
  rw [resetSource_of_present h]
  generalize (s.resetBegun.moved .clean 0).ml = m at heq
  rw [heq] at hnotice hkept hlink ⊢
  exact {
    pool := rfl, sp := rfl, ps := rfl, otg := rfl, rest := ⟨rfl, rfl, rfl, rfl, rfl⟩, entered := ⟨rfl, rfl⟩
    windows := .inl ⟨rfl, rfl⟩
    present := fun _ => ⟨rfl, rfl, rfl⟩
    absent := fun hs => absurd (h.symm.trans hs) (by decide)
    cleared := fun hs => absurd (h.symm.trans hs) (by decide)
    source := hnotice
    lock := fun _ => .inr ⟨rfl, hkept.trans (.of_ml rfl rfl)⟩
    link := hlink }

theorem resourced_of_detached (h : s.sp.signal = false) (hdet : s.sp.state = .detached) :
    Resourced s (resetSource (resetPool s)) := by
  rw [resetSource_of_detached h hdet]
  exact {
    pool := rfl, sp := rfl, ps := rfl, otg := rfl, rest := ⟨rfl, rfl, rfl, rfl, rfl⟩, entered := ⟨rfl, rfl⟩
    windows := .inl ⟨rfl, rfl⟩
    present := fun hs => absurd (h.symm.trans hs) (by decide)
    absent := fun _ => ⟨hdet, rfl, (if_pos hdet).symm⟩
    cleared := fun _ hne => absurd hdet hne
    source := fun hne => absurd rfl hne
    lock := fun _ => .inr ⟨rfl, .of_ml rfl rfl⟩
    link := .of_ml rfl }

theorem resourced_of_absent (h : s.sp.signal = false) (hdet : s.sp.state ≠ .detached) :
    Resourced s (resetSource (resetPool s)) := by
  have hroles : s.resetBegun.pool.rolesHold := powerOn_rolesHold _
  have hdrops := enterDetached_drops 128 hroles
  have hlink : Reported s (enterDetached 128 s.resetBegun) :=
    Reported.trans (t := s.resetBegun) (.of_ml rfl) (enterDetached_reported 128 hroles)
  have hlock := hdrops.lockDrops (s := s.resetBegun) (detachedAt_lockSame s.resetBegun 128) (by
    obtain ⟨m, heq⟩ := detachedAt_eq s.resetBegun 128
    rw [heq]
    rfl)
  have hsource : s.noticed (enterDetached 128 s.resetBegun) (.sourceState .detached 128) :=
    noticed_of_kept (detachedAt_noticed (s := s.resetBegun) 128 hdet) (hdrops.others 0 (by decide))
  obtain ⟨l, g, b, n, m, heq⟩ := hdrops.core
  obtain ⟨m', heq'⟩ := detachedAt_eq s.resetBegun 128
  rw [heq'] at heq
  have hpool : { SlotPool.powerOn s.pool.store with q := s.resetBegun.copyUnknown s.resetBegun.pool.q } =
      SlotPool.powerOn s.pool.store := by
    have hq : s.resetBegun.copyUnknown s.resetBegun.pool.q = none := by
      rw [State.copyUnknown]
      split <;> rfl
    exact congrArg (fun q => { SlotPool.powerOn s.pool.store with q := q }) hq
  rw [resetSource_of_absent h hdet]
  generalize enterDetached 128 s.resetBegun = v at heq hlock hsource hlink ⊢
  subst heq
  exact {
    pool := hpool, sp := rfl, ps := rfl, otg := rfl, rest := ⟨rfl, rfl, rfl, rfl, rfl⟩, entered := ⟨rfl, rfl⟩
    windows := .inr ⟨rfl, rfl⟩
    present := fun hs => absurd (h.symm.trans hs) (by decide)
    absent := fun _ => ⟨rfl, rfl, (if_neg hdet).symm⟩
    cleared := fun _ _ => ⟨rfl, rfl⟩
    source := fun _ => hsource
    lock := fun hne => by
      obtain ⟨hfree, -, -, -, hnoticed⟩ := hlock.1 trivial hne
      exact .inl ⟨hfree, hnoticed⟩
    link := hlink }

theorem resetSource_resourced (s : State) : Resourced s (resetSource (resetPool s)) := by
  cases h : s.sp.signal with
  | true => exact resourced_of_present h
  | false =>
    by_cases hdet : s.sp.state = .detached
    · exact resourced_of_detached h hdet
    · exact resourced_of_absent h hdet

end Sys2Proof.Machine
end

section
/-! The reset point (R22, R45, R67, R88, R110, R142, R160). -/

namespace Sys2Proof.Machine

theorem PacingUnit.with_lastQ_self (x : PacingUnit) (h : x.lastQ = none) :
    { x with q := none, lastQ := none } = { x with q := none } := by
  cases x
  cases h
  rfl

/-- With no Q published so far, Q set is Q published (R56, R57). -/
theorem qSet_of_unknown {s : State} (hlast : s.pu.lastQ = none) (hpool : s.pool.q = none) (hps : s.ps.q = none) :
    s.qSet = s.qPublished (computeQ s.pc.active s.pu.fi) := by
  rw [State.qSet]
  split
  next hsame =>
    have hp : { s.pool with q := none } = s.pool := by rw [← hpool]
    have hs : { s.ps with q := none } = s.ps := by rw [← hps]
    rw [hsame, hlast, State.qPublished]
    simp only [State.setPu, State.setPool, State.setPs, hp, hs, s.pu.with_lastQ_self hlast]
  · rfl

/-- The pacing unit at a reset point with these windows, Q apart (R67). -/
def PacingUnit.restarted (x : PacingUnit) (p : Profile) (intervals fills : List Nat) : PacingUnit :=
  { PacingUnit.powerOn with
    intervals := intervals
    fills := fills
    ti := averageInterval intervals
    fi := averageFill fills
    nextFixed := if p.pacing = .fixed then p.fixedInterval else 0
    sampledNow := x.sampledNow
    filledNow := x.filledNow }

/-- The blocks' shares of a reset point after the source port's, up to Q and the restart of the cycle (R67, R110, R142, R160). -/
def State.resetCleared (v : State) : State :=
  { v with
    pu := v.pu.restarted v.prof (emptyWindows true true v).pu.intervals (emptyWindows true true v).pu.fills
    ps := { v.ps with blankActive := false, q := none }
    pc := (mergeTune v).pc
    hr := []
    choices := v.choices + 2 }

theorem resetCleared_eq (v : State) : State.setHr (mergeTune ((resetPacing v).setPs { (resetPacing v).ps with
    blankActive := false, q := none })) [] = v.resetCleared := rfl

variable {s v : State} {p : Profile}

/-- Q of a reset point (R55, R67). -/
def State.resetQ (v : State) : Option Nat := computeQ v.resetCleared.pc.active v.resetCleared.pu.fi

theorem resetCleared_recomputed (hv : Resourced s v) :
    recomputeQ (fun u => u) v.resetCleared = v.resetCleared.qPublished v.resetQ := by
  have hpool : v.resetCleared.pool = SlotPool.powerOn s.pool.store := hv.pool
  rw [recomputeQ_of_allMarked (fun u => u) (hpool ▸ powerOn_rolesHold _) (SlotPool.allMarked_of_none (by rw [hpool]; rfl)),
    qSet_of_unknown rfl (by rw [hpool]; rfl) rfl]
  rfl

/-- The state at the end of a reset point but for the reply (R88). -/
theorem resetPoint_eq (hv : Resourced s (resetSource (resetPool s))) (hactive : s.pc.active = some p) :
    ∃ m, m = ((resetSource (resetPool s)).resetCleared.qPublished (resetSource (resetPool s)).resetQ).lockReport ∧
      resetPoint s = { (resetSource (resetPool s)).resetCleared.qPublished (resetSource (resetPool s)).resetQ with
        otg := { s.otg.restarted p s.timeBase with pendingApp := s.otg.pendingApp }
        ml := m.complete .pipelineReset .ok } := by
  generalize hsource : resetSource (resetPool s) = v at hv
  refine ⟨_, rfl, ?_⟩
  obtain ⟨hcs, hpc, hpf, hpanel, htime⟩ := hv.rest
  have hmerged : (v.resetCleared.qPublished v.resetQ).prof = p.merge s.pc.tune := by
    have h : (v.resetCleared.qPublished v.resetQ).pc = (mergeTune v).pc := rfl
    rw [State.prof, h]
    simp [mergeTune, hpc, hactive]
  have hvprof : v.prof = p := by
    rw [State.prof, hpc, hactive]
    rfl
  have hnext : (v.resetCleared.qPublished v.resetQ).prof.pacing = .fixed →
      (v.resetCleared.qPublished v.resetQ).pu.nextFixed = (v.resetCleared.qPublished v.resetQ).prof.fixedInterval := by
    rw [hmerged]
    have h : (v.resetCleared.qPublished v.resetQ).pu.nextFixed = if v.prof.pacing = .fixed then v.prof.fixedInterval else 0 := rfl
    rw [h, hvprof]
    exact fun hf => if_pos hf
  have hrestart := restartCycle_eq (s := v.resetCleared.qPublished v.resetQ) rfl rfl hnext
  have hcycle : ({ (v.resetCleared.qPublished v.resetQ).otg.restarted (v.resetCleared.qPublished v.resetQ).prof
      (v.resetCleared.qPublished v.resetQ).timeBase with
      pendingApp := (v.resetCleared.qPublished v.resetQ).otg.pendingApp } : OutputTiming) =
      { s.otg.restarted p s.timeBase with pendingApp := s.otg.pendingApp } := by
    have hotg : (v.resetCleared.qPublished v.resetQ).otg = v.otg := rfl
    have ht : (v.resetCleared.qPublished v.resetQ).timeBase = v.timeBase := rfl
    rw [hmerged, hotg, ht, htime, hv.otg]
    rfl
  have hpoint : resetPoint s = completeDeferred .pipelineReset .ok
      ((restartCycle (v.resetCleared.qPublished v.resetQ)).setOtg
        { (restartCycle (v.resetCleared.qPublished v.resetQ)).otg with pendingReset := false }) := by
    rw [← resetCleared_recomputed hv, ← resetCleared_eq, ← hsource]
    rfl
  rw [hpoint, completeDeferred_eq, hrestart]
  generalize v.resetCleared.qPublished v.resetQ = x at hcycle ⊢
  rw [← hcycle]
  rfl

end Sys2Proof.Machine
end

section
/-! The reset point is as stated (R22, R45, R67, R84, R88). -/

namespace Sys2Proof.Machine

variable {s v : State} {p : Profile}

/-- The windows of a reset point, seen from before the source port's share (R47, R52, R54; Log 37). -/
theorem resetWindows (hv : Resourced s v) :
    emptiedTo s.pu.sampledNow s.pu.intervals (emptyWindows true true v).pu.intervals ∧
      emptiedTo s.pu.filledNow s.pu.fills (emptyWindows true true v).pu.fills ∧
      (v.pu.intervals = [] → (emptyWindows true true v).pu.intervals = []) ∧
      (v.pu.fills = [] → (emptyWindows true true v).pu.fills = []) := by
  have hnil {b : Bool} {w : List Nat} (h : emptiedTo b [] w) : w = [] := by
    rcases h with h | ⟨-, h⟩ <;> exact h
  obtain ⟨hintervals, -, hfills, -⟩ := emptyWindows_windows true true v
  replace hintervals := hintervals rfl
  replace hfills := hfills rfl
  obtain ⟨hsampled, hfilled⟩ := hv.entered
  rw [hsampled] at hintervals
  rw [hfilled] at hfills
  refine ⟨?_, ?_, fun h => hnil (b := s.pu.sampledNow) (h ▸ hintervals), fun h => hnil (b := s.pu.filledNow) (h ▸ hfills)⟩
  · rcases hv.windows with ⟨hi, -⟩ | ⟨hi, -⟩
    · exact hi ▸ hintervals
    · exact .inl (hnil (hi ▸ hintervals))
  · rcases hv.windows with ⟨-, hf⟩ | ⟨-, hf⟩
    · exact hf ▸ hfills
    · exact .inl (hnil (hf ▸ hfills))

theorem averageInterval_emptied (v : State) : averageInterval (emptyWindows true true v).pu.intervals = none := by
  have h : (emptyWindows true true v).pu.intervals.length ≤ 1 := emptied_length _ _ _
  exact if_neg (by omega)

theorem complete_kept (i : Fin 5) {u w : State} {m : MessageLink} {k : DeferredKind} {st : Status}
    (hw : w.ml = m.complete k st) (ht : w.timeBase = u.timeBase) (he : m.enables = u.ml.enables) (htx : m.tx = u.ml.tx)
    (hn : m.notices[i] = u.ml.notices[i]) : NoticeKept i u w := by
  obtain ⟨h1, h2, h3⟩ := complete_notices m k st
  exact ⟨by rw [hw, h1, he], by rw [hw, h2, htx], by rw [hw, h3, hn], ht⟩

theorem lockReport_kept {i : Fin 5} (hi : i ≠ 1) {x w : State} {k : DeferredKind} {st : Status}
    (hw : w.ml = x.lockReport.complete k st) (ht : w.timeBase = x.timeBase) : NoticeKept i x w := by
  by_cases hfree : x.otg.lock = .freeRun
  · have hm : x.lockReport = x.ml := if_pos hfree
    exact complete_kept i hw ht (by rw [hm]) (by rw [hm]) (by rw [hm])
  · have hm : x.lockReport = (raise (.lockState .freeRun) x).ml := if_neg hfree
    obtain ⟨he, htx, hn, -⟩ := NoticeKept.raise (n := .lockState .freeRun) (Ne.symm hi) x
    exact complete_kept i hw ht (by rw [hm, he]) (by rw [hm, htx]) (by rw [hm, hn])

theorem resetPoint_resetAs (hactive : s.pc.active = some p) : s.resetAs p (resetPoint s) := by
  have hv := resetSource_resourced s
  obtain ⟨m, hm, heq⟩ := resetPoint_eq hv hactive
  generalize hsource : resetSource (resetPool s) = v at hv hm heq
  obtain ⟨hcs, hpc, hpf, hpanel, htime⟩ := hv.rest
  obtain ⟨hsampled, hfilled⟩ := hv.entered
  obtain ⟨hintervals, hfills, hnoIntervals, hnoFills⟩ := resetWindows hv
  have hmerged : (mergeTune v).pc = { s.pc with active := some (p.withTune s.pc.tune), tune := TuneSet.empty } := by
    simp only [mergeTune, State.setPc, hpc, hactive, Option.map_some, merge_eq_withTune]
  have hvprof : v.prof = p := by
    rw [State.prof, hpc, hactive]
    rfl
  have hml : (resetPoint s).ml = (v.resetCleared.qPublished v.resetQ).lockReport.complete .pipelineReset .ok := by
    rw [heq, hm]
  have hnow : (resetPoint s).timeBase = v.timeBase := by rw [heq]; rfl
  have hsourceKept : NoticeKept 0 v (resetPoint s) :=
    NoticeKept.trans (v := v.resetCleared.qPublished v.resetQ) (.of_ml rfl rfl) (lockReport_kept (by decide) hml hnow)
  have hlock : s.otg.lock ≠ .freeRun → s.noticed (resetPoint s) (.lockState .freeRun) := by
    intro hne
    rcases hv.lock hne with ⟨hfree, hnoticed⟩ | ⟨hsame, hkept⟩
    · have hreport : (v.resetCleared.qPublished v.resetQ).lockReport = v.ml := if_pos hfree
      refine noticed_of_kept hnoticed (complete_kept 1 hml hnow ?_ ?_ ?_) <;> rw [hreport]
    · refine noticed_from (u := v.resetCleared.qPublished v.resetQ) (hkept.trans (.of_ml rfl rfl)) (lockReport_noticed ?_ hml)
      exact fun h => hne (hsame.symm.trans h)
  have hnotice : (resetPoint s).sp.state ≠ s.sp.state →
      s.noticed (resetPoint s) (.sourceState (resetPoint s).sp.state (resetPoint s).sp.score) := by
    have hsp : (resetPoint s).sp = v.sp := by rw [heq]; rfl
    rw [hsp]
    exact fun hne => noticed_of_kept (hv.source hne) hsourceKept
  have hpu : (v.resetCleared.qPublished v.resetQ).pu = { PacingUnit.powerOn with
      intervals := (emptyWindows true true v).pu.intervals
      fills := (emptyWindows true true v).pu.fills
      fi := averageFill (emptyWindows true true v).pu.fills
      q := computeQ (some (p.withTune s.pc.tune)) (averageFill (emptyWindows true true v).pu.fills)
      lastQ := computeQ (some (p.withTune s.pc.tune)) (averageFill (emptyWindows true true v).pu.fills)
      nextFixed := if p.pacing = .fixed then p.fixedInterval else 0
      sampledNow := s.pu.sampledNow
      filledNow := s.pu.filledNow } := by
    have hq : v.resetQ = computeQ (some (p.withTune s.pc.tune)) (averageFill (emptyWindows true true v).pu.fills) := by
      rw [State.resetQ, show v.resetCleared.pc = (mergeTune v).pc from rfl, hmerged]
      rfl
    simp only [State.qPublished, State.setPu_fields, State.setPool_fields, State.setPs_fields, State.resetCleared,
      PacingUnit.restarted, hq, hvprof, hsampled, hfilled, averageInterval_emptied]
    rfl
  unfold State.resetAs
  refine ⟨?_, ?_, ?_, ?_, ?_, ?_, ?_, ?_, ?_, hnotice, hlock, ?_, ?_, ?_, ?_, ?_, ?_, ?_, ?_, ?_, ?_, ?_⟩
  all_goals rw [heq]
  · exact congrArg (fun P : SlotPool => { P with q := v.resetQ }) hv.pool
  · rfl
  · exact (congrArg SourcePort.frameCounter hv.sp :)
  · exact (congrArg SourcePort.signal hv.sp :)
  · exact (congrArg SourcePort.cleanRun hv.sp :)
  · exact (congrArg SourcePort.cond hv.sp :)
  · exact (congrArg SourcePort.prevRef hv.sp :)
  · exact hv.present
  · exact hv.absent
  · exact hintervals
  · exact hfills
  · exact fun h1 h2 => ⟨hnoIntervals (hv.cleared h1 h2).1, hnoFills (hv.cleared h1 h2).2⟩
  · rw [hpu]
  · exact congrArg (fun x : Scheduler => { x with blankActive := false, q := v.resetQ }) hv.ps
  · exact hmerged
  · exact hcs
  · exact hpf
  · exact htime
  · exact hpanel

/-- The end of the event changes the link alone (R167, R168). -/
theorem resetAs_settle {t : State} (h : s.resetAs p t) (ht : t.timeBase = s.timeBase) : s.resetAs p (settle t) := by
  obtain ⟨h1, h2, h3, h4, h5, h6, h7, h8, h9, hsource, hlock, hrest⟩ := h
  unfold State.resetAs
  simp only [settle_frame]
  exact ⟨h1, h2, h3, h4, h5, h6, h7, h8, h9, fun hne => noticed_settle (hsource hne) ht,
    fun hne => noticed_settle (hlock hne) ht, hrest⟩

end Sys2Proof.Machine
end

section
/-! A Pipeline Reset accepted outside SCAN (R87, R88). -/

namespace Sys2Proof.Machine

variable {s : State} {p : Profile}

/-- The link after a reset point: notices raised, and the reset's reply completed (R88, R167). -/
theorem resetPoint_ml (hactive : s.pc.active = some p) :
    ∃ ns, (resetPoint s).ml = ({ s.ml with notices := ns } : MessageLink).complete .pipelineReset .ok := by
  have hv := resetSource_resourced s
  obtain ⟨m, hm, heq⟩ := resetPoint_eq hv hactive
  refine ⟨m.notices, ?_⟩
  have hlink : (resetSource (resetPool s)).ml = { s.ml with notices := (resetSource (resetPool s)).ml.notices } := hv.link
  have hreport := lockReport_eq
    ((resetSource (resetPool s)).resetCleared.qPublished (resetSource (resetPool s)).resetQ)
  rw [← hm] at hreport
  have hml : ((resetSource (resetPool s)).resetCleared.qPublished (resetSource (resetPool s)).resetQ).ml =
      (resetSource (resetPool s)).ml := rfl
  rw [hml, hlink] at hreport
  rw [heq]
  exact congrArg (fun x : MessageLink => x.complete .pipelineReset .ok) hreport

/-- A reset point is stated from a link's notices alone. -/
theorem resetAs_of_ml {m : MessageLink} {t : State} (h : ({ s with ml := m } : State).resetAs p t)
    (he : m.enables = s.ml.enables) (hn : m.notices = s.ml.notices) : s.resetAs p t := by
  have hnoticed {n : Notice} (g : ({ s with ml := m } : State).noticed t n) : s.noticed t n := by
    unfold State.noticed at g ⊢
    rw [← he, ← hn]
    exact g
  obtain ⟨h1, h2, h3, h4, h5, h6, h7, h8, h9, hsource, hlock, hrest⟩ := h
  exact ⟨h1, h2, h3, h4, h5, h6, h7, h8, h9, fun hne => hnoticed (hsource hne), fun hne => hnoticed (hlock hne), hrest⟩

theorem aborted_notices (m : MessageLink) (app commit : Bool) :
    (m.aborted app commit).enables = m.enables ∧ (m.aborted app commit).notices = m.notices := by
  cases app <;> cases commit <;> simp [MessageLink.aborted, complete_notices]

/-- The reset's reply alone, when no commit was pending (R87). -/
theorem resetReply_alone {u : State} {m : MessageLink} {ns : Vector (Option NoticeMsg) 5} {tag : Byte}
    (hu : u.ml = ({ m.setDeferred .pipelineReset (.waiting tag) with notices := ns } : MessageLink).complete .pipelineReset .ok)
    (hdone : m.doneOrder = []) (hroom : m.replies.length < 4) :
    (settle u).ml.replies = m.replies ++ [⟨tag, .ok, 0, []⟩] :=
  (settle_of_completed hu rfl hdone hroom).1

/-- The replies of two operations completed one after the other (R167). -/
theorem settle_of_two {u : State} {j k : DeferredKind} {a b : Byte} {x y : Status} (horder : u.ml.doneOrder = [j, k])
    (hne : j ≠ k) (hj : u.ml.deferred j = .completed a x) (hk : u.ml.deferred k = .completed b y)
    (hroom : u.ml.replies.length ≤ 2) :
    (settle u).ml.replies = u.ml.replies ++ [⟨a, x, 0, []⟩, ⟨b, y, 0, []⟩] := by
  have hlawful : u.ml.doneHolds := by
    refine ⟨fun i hi => ?_, by rw [horder]; simp [hne]⟩
    rw [horder] at hi
    simp only [List.mem_cons, List.not_mem_nil, or_false] at hi
    rcases hi with rfl | rfl
    · exact ⟨a, x, hj⟩
    · exact ⟨b, y, hk⟩
  have hks : u.ml.doneOrder.take (4 - u.ml.replies.length) = [j, k] := by
    rw [horder]
    exact List.take_of_length_le (by simp; omega)
  rw [(settle_link hlawful hks).1, MessageLink.completedReplies]
  simp [hj, hk]

/-- The replies of a cancelled commit and of the reset, in the order of completion (R125, R167). -/
theorem resetReply_second {u : State} {m : MessageLink} {ns : Vector (Option NoticeMsg) 5} {tag b : Byte}
    (hu : u.ml = ({ (m.complete .lutCommit .aborted).setDeferred .pipelineReset (.waiting tag) with
      notices := ns } : MessageLink).complete .pipelineReset .ok)
    (hb : m.defLut = .waiting b) (hdone : m.doneOrder = []) (hroom : m.replies.length ≤ 2) :
    (settle u).ml.replies = m.replies ++ [⟨b, .aborted, 0, []⟩, ⟨tag, .ok, 0, []⟩] := by
  rw [complete_of_waiting (tag := tag) .ok (by rfl), deferred_aborted_lut hb, hdone] at hu
  have hreplies : u.ml.replies = m.replies := by rw [hu]; rfl
  rw [← hreplies] at hroom ⊢
  exact settle_of_two (by rw [hu]; rfl) (by decide : DeferredKind.lutCommit ≠ .pipelineReset) (by rw [hu]; rfl)
    (by rw [hu]; rfl) hroom

/-- Settles O35: the acceptance, the reset point on the accepted state, and the replies in their order. -/
theorem resetPointEmptiesPath : Obligations.ResetPointEmptiesPath := by
  intro s r p hserves hactive hreset hscan hprofile
  have hexec : exec .pipelineReset s = .next (settle (pipelineReset r (takeRequest s))) := execRequest_of_serves hserves
  have happ : s.otg.pendingApp = false := by
    obtain ⟨-, -, -, -, -, -, -, -, hpending⟩ := id hprofile
    exact Bool.eq_false_iff.mpr fun h => hscan (hpending (.inl h))
  obtain ⟨-, hgranted, -⟩ := id hserves
  obtain ⟨hroom, hdone⟩ := granted_room hgranted
  let m : MessageLink := (takeRequest s).ml.aborted false s.cs.shadowPending
  let u : State := { s with
    pc := { s.pc with propState := .none, proposal := none }
    cs := { s.cs with shadowPending := false }
    ml := m.setDeferred .pipelineReset (.waiting r.tag) }
  have hu : deferReply .pipelineReset r.tag (acceptReset (takeRequest s)) = u := by
    have hotg : { s.otg with pendingApp := false } = s.otg := by rw [← happ]
    rw [acceptReset_eq_resetAccepted (s := takeRequest s) hprofile, State.resetAccepted]
    simp only [takeRequest_frame, happ, hotg]
    rfl
  have hpoint : pipelineReset r (takeRequest s) = resetPoint u := by
    simp only [pipelineReset, takeRequest_frame, hactive, hreset, hu]
    exact (if_neg Bool.false_ne_true).trans (if_neg hscan)
  rw [hpoint] at hexec
  have hresetAs := resetAs_settle (resetPoint_resetAs (s := u) hactive) (by simp)
  obtain ⟨he, hn⟩ := aborted_notices (takeRequest s).ml false s.cs.shadowPending
  obtain ⟨ns, hml⟩ := resetPoint_ml (s := u) (p := p) hactive
  refine ⟨_, hexec, resetAs_of_ml hresetAs he hn, ?_, fun hcommit => ?_, fun b hcommit hb htwo => ?_⟩
  · obtain ⟨-, -, -, -, -, -, -, -, -, -, -, -, -, -, -, -, hotg, -⟩ := hresetAs
    rw [hotg]
    exact happ
  · refine resetReply_alone (m := (takeRequest s).ml) (ns := ns) ?_ hdone hroom
    rw [hml]
    simp only [u, m, hcommit]
    rfl
  · refine resetReply_second (m := (takeRequest s).ml) (ns := ns) ?_ hb hdone htwo
    rw [hml]
    simp only [u, m, hcommit]
    rfl

end Sys2Proof.Machine
end

section
/-! The screen at a scan end (R17, R71, R99). -/

namespace Sys2Proof.Machine

variable {s : State}

theorem offScreen_of_aborted {p : SlotPool} (h : p.rolesHold) {a : Slot} (ha : p.onScreen = some a)
    (hfill : (p.slot a).fill = .aborted) :
    ({ p with onScreen := none } : SlotPool).released [a] = ({ p with onScreen := none } : SlotPool).setSlot a SlotRec.free := by
  obtain ⟨hr, hf, hc⟩ := onScreen_alone h ha (by simp [hfill])
  have hd := held_ne_of_aborted h hfill
  have hheld : p.held.filter (fun i => decide (i ≠ a)) = p.held := by
    cases hp : p.held with
    | none => rfl
    | some i =>
      rw [hp] at hd
      simpa [Option.filter] using hd
  have hone := released_one (p := { p with onScreen := none }) (j := a) hr hf nofun hc
  simp only [hheld] at hone
  exact hone

theorem offScreen_of_complete {p : SlotPool} (h : p.rolesHold) {a : Slot} :
    ({ p with onScreen := none } : SlotPool).heldBy a = { (match p.held with
      | some j => if j = a then { p with onScreen := none } else ({ p with onScreen := none } : SlotPool).setSlot j SlotRec.free
      | none => { p with onScreen := none }) with held := some a } :=
  heldBy_eq (p := { p with onScreen := none }) a fun j hj _ => by
    obtain ⟨hr, hf, hc⟩ := held_alone h hj
    exact ⟨hr, hf, nofun, hc⟩

/-- The pool and the ring at a scan end (R17, R18, R158). -/
theorem scanEndPool_screenEnded (h : s.pool.rolesHold) :
    (scanEndPool s).pool = s.screenEnded.pool ∧ (scanEndPool s).hr = s.screenEnded.hr := by
  have hpool := scanEndPool_pool s
  rw [hpool]
  simp only [scanEndPool, State.screenEnded, SlotPool.offScreen]
  cases ha : s.pool.onScreen with
  | none => exact ⟨rfl, rfl⟩
  | some a =>
    have hslot : (s.setPool { s.pool with onScreen := none }).slot a = s.pool.slot a := rfl
    have hslot' : s.slot a = s.pool.slot a := rfl
    simp only [hslot, hslot']
    cases hfill : (s.pool.slot a).fill with
    | complete => exact ⟨offScreen_of_complete h, makeHeld_hr a⟩
    | filling => exact ⟨rfl, rfl⟩
    | aborted => exact ⟨offScreen_of_aborted h ha hfill, freeSlot_hr _ a _⟩
    | empty => exact ⟨rfl, rfl⟩

theorem screenEnded_frame (s : State) : s.screenEnded = { s with
    otg := { s.otg with nextStrip := s.prof.strips }
    ps := { s.ps with watchOpen := false }
    pool := s.screenEnded.pool
    hr := s.screenEnded.hr } := by
  simp only [State.screenEnded]
  cases s.pool.onScreen with
  | none => rfl
  | some a =>
    simp only
    cases (s.slot a).fill <;> rfl

theorem screenEnded_idem (s : State) :
    (closeWatch (s.setOtg { s.otg with nextStrip := s.prof.strips })).screenEnded = s.screenEnded := by
  simp only [State.screenEnded, closeWatch, State.setPs_fields, State.setOtg_fields]
  rfl

/-- What a scan end leaves before the reset point, the application or the way out of SCAN (R71, R99). -/
theorem scanEnd_screenEnded (h : s.pool.rolesHold) :
    scanEndPool (closeWatch (s.setOtg { s.otg with nextStrip := s.prof.strips })) = s.screenEnded := by
  have hidem := screenEnded_idem s
  generalize hended : closeWatch (s.setOtg { s.otg with nextStrip := s.prof.strips }) = ended at hidem ⊢
  have hroles : ended.pool.rolesHold := by
    rw [← hended]
    exact h
  obtain ⟨hpool, hhr⟩ := scanEndPool_screenEnded hroles
  have hframe := screenEnded_frame s
  rw [← hidem] at hframe ⊢
  have hml := eq_setMl_of_fields (s := ended.screenEnded) (t := scanEndPool ended) (by
    simp only [scanEndPool_frame, hpool, hhr, true_and]
    rw [hframe, ← hended]
    simp [closeWatch])
  rw [hml, hframe, ← hended]
  simp [closeWatch]

end Sys2Proof.Machine
end

section
/-! The scan end (R71, R73 to R76, R79, R85, R88, R99). -/

namespace Sys2Proof.Machine

variable {s : State}

theorem offScreen_slot (p : SlotPool) (k : Slot) : p.offScreen.slot k = p.slot k ∨ p.offScreen.slot k = SlotRec.free := by
  have hreleased (x : SlotPool) (hx : x.slot k = p.slot k) (j : Slot) :
      (x.released [j]).slot k = p.slot k ∨ (x.released [j]).slot k = SlotRec.free := by
    rw [SlotPool.released_slot, hx]
    split
    · exact .inr rfl
    · exact .inl rfl
  rw [SlotPool.offScreen]
  split
  · exact .inl rfl
  next a _ =>
    cases (p.slot a).fill with
    | empty | filling => exact .inl rfl
    | aborted => exact hreleased _ rfl a
    | complete =>
      simp only [SlotPool.heldBy]
      split
      next j _ =>
        split
        · exact .inl rfl
        · exact hreleased _ rfl j
      · exact .inl rfl

/-- The frame arriving is the same after a scan end (R17). -/
theorem offScreen_filling {p : SlotPool} (h : p.rolesHold) {k : Slot} (hk : p.filling = some k) :
    p.offScreen.filling = some k ∧ p.offScreen.slot k = p.slot k := by
  have hfilling : p.offScreen.filling = some k := (offScreen_stays h).1.trans hk
  refine ⟨hfilling, (offScreen_slot p k).resolve_right fun hfree => ?_⟩
  obtain ⟨-, hfill, -⟩ := h.offScreen
  have hf := (hfill k).mpr hfilling
  rw [hfree] at hf
  cases hf

theorem screenEnded_pool (h : s.pool.rolesHold) : s.screenEnded.pool = s.pool.offScreen := by
  rw [← scanEnd_screenEnded h]
  exact scanEndPool_pool _

/-- A scan end darkens the screen (R17, R99). -/
theorem screenEnded_screenOff (h : s.pool.rolesHold) : s.screenEnded.screenOff := by
  obtain ⟨-, -, hdark⟩ := offScreen_stays h
  rw [State.screenOff, screenEnded_pool h]
  exact ⟨h.offScreen, hdark, by rw [screenEnded_frame]⟩

/-- What a scan end keeps of the generator, and the blocks it does not reach. -/
theorem screenEnded_same (s : State) :
    s.screenEnded.otg = { s.otg with nextStrip := s.prof.strips } ∧ s.screenEnded.ml = s.ml ∧ s.screenEnded.pc = s.pc ∧
      s.screenEnded.pu = s.pu ∧ s.screenEnded.ps.blankActive = s.ps.blankActive := by
  rw [screenEnded_frame]
  exact ⟨rfl, rfl, rfl, rfl, rfl⟩

/-- A refresh start from a dark screen after the generator's markers and timers have been moved (R70, R72, R141). -/
theorem refreshBy_made_dark (expired planned : Bool) {o : OutputTiming} (h : s.otg.SameStart o) (hoff : s.screenOff)
    (ho : o.timing ≠ .scan) (hexpired : s.otg.mode = some .fixed → expired = true) :
    s.refreshMade (settle (refreshBy expired planned { s with otg := o })) planned :=
  refreshMade_of_sameStart h (fun hp => ⟨hp.1, fun _ => hoff.2⟩)
    (refreshBy_made (s := { s with otg := o }) expired planned ho fun hm => hexpired (h.mode.symm.trans hm))

theorem enterBlankOpen_made {planned : Bool} (hmode : s.otg.mode = some .adaptive) (hoff : s.screenOff)
    (hopens : s.opensWithRefresh planned) : s.refreshMade (settle (enterBlankOpen s)) planned := by
  have hno : s.otg.mode = some .fixed → false = true := fun h => by
    rw [hmode] at h
    cases h
  rcases hopens with ⟨hframe, rfl⟩ | ⟨hframe, hkept, hgoes⟩
  · rw [enterBlankOpen_of_frame hframe]
    exact refreshBy_made_dark false false (o := { s.otg with timing := .blankOpen }) ⟨rfl, rfl, rfl, rfl, rfl, rfl⟩ hoff
      nofun hno
  · rw [enterBlankOpen_of_goes hframe hkept hgoes]
    exact refreshBy_made_dark false planned (o := { s.otg with timing := .blankOpen, keptRepeat := false })
      ⟨rfl, rfl, rfl, rfl, rfl, rfl⟩ hoff nofun hno

/-- A planned repeat kept till the window opens, skipped for an arriving frame (R75, R76). -/
theorem enterBlankOpen_skips {k : Slot} (hno : ¬ s.opensOnFrame) (hkept : s.otg.keptRepeat = true) (hplan : 0 < s.otg.planCount)
    (hfill : s.pool.filling = some k) (hstrips : 0 < (s.slot k).filled) (hel : (s.slot k).eligible = false) :
    enterBlankOpen s = { s with otg := { s.otg with
      timing := .blankOpen
      keptRepeat := false
      planCount := 0
      repeatTimer := .running (plusTicks s.otg.tLast s.prof.winMax) } } := by
  rw [enterBlankOpen_of_kept hno hkept,
    repeatExpiryOpen_of_arriving (s := s.setOtg { s.otg with timing := .blankOpen, keptRepeat := false }) hplan
      (frameArriving_iff.mpr ⟨k, hfill, hstrips, hel⟩), loadBackstop_eq]
  rfl

theorem leaveScan_of_fixed (h : s.otg.mode = some .fixed) : leaveScan s =
    if s.otg.keptFixed then refreshBy true false (s.setOtg { s.otg with timing := .blank, keptFixed := false })
    else s.setOtg { s.otg with timing := .blank } :=
  if_neg (by rw [h]; decide)

/-- The refresh that a kept fixed expiry starts as the scan ends (R79). -/
theorem keptFixed_made (hoff : s.screenOff) :
    let t := settle (refreshBy true false (s.setOtg { s.otg with timing := .blank, keptFixed := false }))
    s.refreshMade t false ∧ t.otg.keptFixed = false ∧
      (s.fixedLoaded s.pu.nextFixed t ∨ s.pc.tune ≠ TuneSet.empty ∧ s.startMet t) := by
  have hstart : s.otg.SameStart { s.otg with timing := .blank, keptFixed := false } := ⟨rfl, rfl, rfl, rfl, rfl, rfl⟩
  have hmade := refreshBy_made_dark true false hstart hoff nofun fun _ => rfl
  refine ⟨hmade, by simp, ?_⟩
  by_cases htune : s.pc.tune = TuneSet.empty
  · obtain ⟨-, -, -, -, ⟨-, hload⟩, -⟩ := hmade.1 htune
    exact .inl hload
  · rcases refreshBy_taken_or_met true false (s := { s with otg := { s.otg with timing := .blank, keptFixed := false } })
      fun _ => rfl with htaken | hmet
    · exact .inl (startTaken_of_sameStart hstart htaken).2
    · exact .inr ⟨htune, startMet_of_sameStart hstart hmet⟩

end Sys2Proof.Machine
end

section
/-! The scan end (R71, R73 to R76, R79, R85, R88, R99). -/

namespace Sys2Proof.Machine

variable {s : State}

/-- A scan end: the points that are pending, or the way out of SCAN (R71, R85, R88). -/
theorem endScan_eq (h : s.pool.rolesHold) : endScan s =
    if s.otg.pendingReset || s.otg.pendingApp then
      (if s.otg.pendingReset then
        (if s.otg.pendingApp then applyProfile (resetPoint s.screenEnded) else resetPoint s.screenEnded)
      else if s.otg.pendingApp then applyProfile s.screenEnded else s.screenEnded)
    else leaveScan s.screenEnded := by
  obtain ⟨hotg, -⟩ := screenEnded_same s
  have hreset : s.screenEnded.otg.pendingReset = s.otg.pendingReset := by rw [hotg]
  have happ : s.screenEnded.otg.pendingApp = s.otg.pendingApp := by rw [hotg]
  have hkeep : (resetPoint s.screenEnded).otg.pendingApp = s.otg.pendingApp := by simp [happ]
  simp only [endScan, scanEnd_screenEnded h, hreset, happ]
  cases s.otg.pendingReset with
  | true => simp only [if_true, hkeep]
  | false => simp only [Bool.false_eq_true, if_false, happ]

theorem endScan_of_none (h : s.pool.rolesHold) (happ : s.otg.pendingApp = false) (hreset : s.otg.pendingReset = false) :
    endScan s = leaveScan s.screenEnded := by
  rw [endScan_eq h, happ, hreset]
  rfl

theorem endScan_of_reset (h : s.pool.rolesHold) (happ : s.otg.pendingApp = false) (hreset : s.otg.pendingReset = true) :
    endScan s = resetPoint s.screenEnded := by
  rw [endScan_eq h, happ, hreset]
  rfl

theorem endScan_of_app (h : s.pool.rolesHold) (happ : s.otg.pendingApp = true) (hreset : s.otg.pendingReset = false) :
    endScan s = applyProfile s.screenEnded := by
  rw [endScan_eq h, happ, hreset]
  rfl

theorem endScan_of_both (h : s.pool.rolesHold) (happ : s.otg.pendingApp = true) (hreset : s.otg.pendingReset = true) :
    endScan s = applyProfile (resetPoint s.screenEnded) := by
  rw [endScan_eq h, happ, hreset]
  rfl

/-- The link after the application of a later profile: notices raised, and the Confirm's reply completed (R138, R167). -/
theorem applyProfile_ml {old p : Profile} (hp : s.pc.proposal = some p) (hold : s.pc.active = some old)
    (ht : s.otg.timing ≠ .idle) :
    ∃ ns, (applyProfile s).ml = ({ s.ml with notices := ns } : MessageLink).complete .profileApply .ok := by
  refine ⟨s.lockReport.notices, ?_⟩
  rw [applyProfile_later hp hold ht]
  exact congrArg (fun x : MessageLink => x.complete .profileApply .ok) (lockReport_eq s)

/-- The reset point and the application of one scan end, in that order (R88; Log 22). -/
theorem bothPoints {old p : Profile} (hp : s.pc.proposal = some p) (hold : s.pc.active = some old) :
    s.resetAs old (resetPoint s) ∧
      (resetPoint s).appliedAs (old.withTune s.pc.tune) p (settle (applyProfile (resetPoint s))) ∧
      ∃ ns, (applyProfile (resetPoint s)).ml =
        ({ (resetPoint s).ml with notices := ns } : MessageLink).complete .profileApply .ok := by
  have hresetAs := resetPoint_resetAs hold
  obtain ⟨-, -, -, -, -, -, -, -, -, -, -, -, -, -, -, -, hotg, hpc, -⟩ := id hresetAs
  have hp' : (resetPoint s).pc.proposal = some p := by rw [hpc]; exact hp
  have hold' : (resetPoint s).pc.active = some (old.withTune s.pc.tune) := by rw [hpc]
  have ht : (resetPoint s).otg.timing ≠ .idle := by
    have htiming : (resetPoint s).otg.timing = if old.pacing = .adaptive then .blankMin else .blank := by rw [hotg]; rfl
    rw [htiming]
    split <;> decide
  have hreset : (resetPoint s).otg.pendingReset = false := by rw [hotg]; rfl
  exact ⟨hresetAs, applyProfile_appliedAs hp' hold' ht hreset, applyProfile_ml hp' hold' ht⟩

/-- The replies of a reset and of an application at one scan end (R88, R138, R167). -/
theorem bothReplies {u : State} {m n : MessageLink} {ns ns' : Vector (Option NoticeMsg) 5} {a b : Byte}
    (hn : n = ({ m with notices := ns } : MessageLink).complete .pipelineReset .ok)
    (hu : u.ml = ({ n with notices := ns' } : MessageLink).complete .profileApply .ok)
    (ha : m.defReset = .waiting a) (hb : m.defProfile = .waiting b) (hdone : m.doneOrder = []) (hroom : m.replies.length ≤ 2) :
    (settle u).ml.replies = m.replies ++ [⟨a, .ok, 0, []⟩, ⟨b, .ok, 0, []⟩] := by
  rw [complete_of_waiting (k := .pipelineReset) (m := { m with notices := ns }) (tag := a) .ok ha] at hn
  have hb' : n.defProfile = .waiting b := by rw [hn]; exact hb
  have hdone' : n.doneOrder = [.pipelineReset] := by rw [hn]; exact congrArg (fun x => x ++ [_]) hdone
  have hreset : n.defReset = .completed a .ok := by rw [hn]; rfl
  have hsame : n.replies = m.replies := by rw [hn]; rfl
  rw [complete_of_waiting (k := .profileApply) (m := { n with notices := ns' }) (tag := b) .ok hb'] at hu
  have horder : u.ml.doneOrder = [.pipelineReset, .profileApply] := by
    rw [hu]
    exact congrArg (fun x => x ++ [_]) hdone'
  have hreplies : u.ml.replies = m.replies := by rw [hu, ← hsame]; rfl
  rw [← hreplies] at hroom ⊢
  exact settle_of_two horder (by decide) (by rw [hu]; exact hreset) (by rw [hu]; rfl) hroom

/-- A scan end with nothing pending leaves SCAN (R71, R73 to R76, R79). -/
theorem leaveScan_of_scanEnd (hpool : s.pool.rolesHold) :
    let u := s.screenEnded
    let goes := fun x : Timing => { u with otg := { u.otg with timing := x } }
    let t := leaveScan u
    (s.otg.mode = some .adaptive → s.otg.minPassed = false → t = goes .blankMin) ∧
      (s.otg.mode = some .adaptive → s.otg.minPassed = true →
        (¬ u.opensOnFrame → s.otg.keptRepeat = false → t = goes .blankOpen) ∧
        (∀ k, ¬ u.opensOnFrame → s.otg.keptRepeat = true → 0 < s.otg.planCount → s.pool.filling = some k →
          0 < (s.slot k).filled → (s.slot k).eligible = false →
          t = { u with otg := { u.otg with
            timing := .blankOpen, keptRepeat := false, planCount := 0
            repeatTimer := .running (plusTicks s.otg.tLast s.prof.winMax) } }) ∧
        ∀ planned, u.opensWithRefresh planned → u.refreshMade (settle t) planned) ∧
      (s.otg.mode = some .fixed → s.otg.keptFixed = false → t = goes .blank) ∧
      (s.otg.mode = some .fixed → s.otg.keptFixed = true →
        u.refreshMade (settle t) false ∧ (settle t).otg.keptFixed = false ∧
          (u.fixedLoaded s.pu.nextFixed (settle t) ∨ s.pc.tune ≠ TuneSet.empty ∧ u.startMet (settle t))) := by
  have hoff := screenEnded_screenOff hpool
  have hfills (k : Slot) (hk : s.pool.filling = some k) : s.screenEnded.pool.filling = some k ∧
      s.screenEnded.slot k = s.slot k := by
    rw [State.slot, screenEnded_pool hpool]
    exact offScreen_filling hpool hk
  obtain ⟨hotg, -, hpc, hpu, -⟩ := screenEnded_same s
  have hmode : s.screenEnded.otg.mode = s.otg.mode := by rw [hotg]
  have hmin : s.screenEnded.otg.minPassed = s.otg.minPassed := by rw [hotg]
  have hrepeat : s.screenEnded.otg.keptRepeat = s.otg.keptRepeat := by rw [hotg]
  have hfixed : s.screenEnded.otg.keptFixed = s.otg.keptFixed := by rw [hotg]
  have hplan : s.screenEnded.otg.planCount = s.otg.planCount := by rw [hotg]
  have hlast : s.screenEnded.otg.tLast = s.otg.tLast := by rw [hotg]
  have hprof : s.screenEnded.prof = s.prof := by rw [State.prof, hpc]; rfl
  rw [← hmode, ← hmin, ← hrepeat, ← hfixed, ← hplan, ← hlast, ← hprof, ← hpu, ← hpc]
  generalize s.screenEnded = u at hoff hfills ⊢
  have hopen (ha : u.otg.mode = some .adaptive) (hp : u.otg.minPassed = true) : leaveScan u = enterBlankOpen u :=
    (if_pos ha).trans (if_pos hp)
  refine ⟨fun ha hp => (if_pos ha).trans (if_neg (by simp [hp])), fun ha hp => ?_, fun hf hk => ?_, fun hf hk => ?_⟩
  · simp only [hopen ha hp]
    refine ⟨fun hno hkept => enterBlankOpen_of_quiet hno hkept, fun k hno hkept hcount hfill hstrips hel => ?_,
      fun planned hopens => enterBlankOpen_made ha hoff hopens⟩
    obtain ⟨hfill', hslot⟩ := hfills k hfill
    rw [← hslot] at hstrips hel
    exact enterBlankOpen_skips hno hkept hcount hfill' hstrips hel
  · rw [leaveScan_of_fixed hf, hk]
    rfl
  · rw [leaveScan_of_fixed hf, hk]
    exact keptFixed_made hoff

/-- Settles O56: the screen, then the way out of SCAN or the points that are pending. -/
theorem scanEndHandlesScreen : Obligations.ScanEndHandlesScreen := by
  intro s hr hdue hpool
  have hexec : exec .scanEnd s = .next (settle (endScan s)) := whenDue_of_due hr hdue
  obtain ⟨hotg, hml, hpc, -, -⟩ := screenEnded_same s
  have hscan : s.screenEnded.otg.timing = .scan := by
    rw [hotg]
    simp only [scanEndDue, Bool.and_eq_true, decide_eq_true_eq] at hdue
    obtain ⟨⟨ht, -⟩, -⟩ := hdue
    exact ht
  have hnow : s.screenEnded.timeBase = s.timeBase := by rw [screenEnded_frame]
  refine ⟨fun happ hreset => ?_, fun old hold => ⟨fun hreset happ => ?_, fun p hp happ => ⟨fun hreset => ?_, fun hreset => ?_⟩⟩⟩
  · rw [hexec, endScan_of_none hpool.1 happ hreset]
    obtain ⟨hadaptive, hopens, hfixed, hkept⟩ := leaveScan_of_scanEnd hpool.1
    refine ⟨fun h1 h2 => by rw [hadaptive h1 h2], fun h1 h2 => ?_, fun h1 h2 => by rw [hfixed h1 h2],
      fun h1 h2 => ⟨_, rfl, hkept h1 h2⟩⟩
    obtain ⟨hquiet, hskips, hmade⟩ := hopens h1 h2
    exact ⟨fun h3 h4 => by rw [hquiet h3 h4], fun k h3 h4 h5 h6 h7 h8 => by rw [hskips k h3 h4 h5 h6 h7 h8],
      fun planned h => ⟨_, rfl, hmade planned h⟩⟩
  · rw [hexec, endScan_of_reset hpool.1 happ hreset]
    have hold' : s.screenEnded.pc.active = some old := by rw [hpc, hold]
    refine ⟨_, rfl, resetAs_settle (resetPoint_resetAs hold') (by simp), fun tag htag hdone hroom => ?_⟩
    obtain ⟨ns, hpoint⟩ := resetPoint_ml hold'
    rw [hml] at hpoint
    exact settle_of_completed hpoint htag hdone hroom
  · rw [hexec, endScan_of_app hpool.1 happ hreset]
    have hold' : s.screenEnded.pc.active = some old := by rw [hpc, hold]
    have hp' : s.screenEnded.pc.proposal = some p := by rw [hpc, hp]
    have hidle : s.screenEnded.otg.timing ≠ .idle := by rw [hscan]; decide
    refine ⟨_, rfl, applyProfile_appliedAs hp' hold' hidle (by rw [hotg]; exact hreset), fun tag htag hdone hroom => ?_⟩
    obtain ⟨ns, hpoint⟩ := applyProfile_ml hp' hold' hidle
    rw [hml] at hpoint
    exact settle_of_completed hpoint htag hdone hroom
  · rw [hexec, endScan_of_both hpool.1 happ hreset]
    have hold' : s.screenEnded.pc.active = some old := by rw [hpc, hold]
    have hp' : s.screenEnded.pc.proposal = some p := by rw [hpc, hp]
    obtain ⟨hresetAs, happlied, ns', hpoint⟩ := bothPoints hp' hold'
    rw [hpc] at happlied
    refine ⟨_, _, hresetAs, rfl, happlied, fun a b ha hb hdone hroom => ?_⟩
    obtain ⟨ns, hreset'⟩ := resetPoint_ml hold'
    rw [hml] at hreset'
    exact bothReplies hreset' hpoint ha hb hdone hroom

end Sys2Proof.Machine
end

section
/-! The source's arming and the first refresh (R43, R70, R86). -/

namespace Sys2Proof.Machine

variable {s : State}

/-- The state in which the source arms: every slot freed, the frame in progress passed over (R21, R43). -/
def State.armBegun (s : State) : State :=
  { s with
    pool := SlotPool.powerOn s.pool.store
    hr := s.fateRing ((List.finRange 4).map fun k => (k, .flushed))
    sp := { s.sp with cond := s.sp.cond.passedOver } }

/-- What the source's arming leaves (R21, R36, R43, R108). -/
structure Armed (s v : State) : Prop where
  pool : v.pool = SlotPool.powerOn s.pool.store
  source : v.sp.cleanRun = 0 ∧ v.sp.cond = s.sp.cond.passedOver ∧ v.sp.frameCounter = s.sp.frameCounter
  rest : v.cs = s.cs ∧ v.pc = s.pc ∧ v.pf = s.pf ∧ v.panel = s.panel ∧ v.timeBase = s.timeBase
  present : s.sp.signal = true → v.sp.state = .clean ∧ v.sp.score = 0 ∧ s.noticed v (.sourceState .clean 0)
  absent : s.sp.signal = false → v.sp.state = .detached ∧ v.sp.score = 128 ∧ v.ps.detachTime = some s.timeBase ∧
    s.noticed v (.sourceState .detached 128)
  link : Reported s v

theorem armSource_of_present (h : s.sp.signal = true) : armSource (flushPool s) =
    breakRun (s.armBegun.moved .clean 0) := by
  have hsignal : s.armBegun.sp.signal = true := h
  rw [flushPool_eq, ← moveSource_clean]
  exact if_pos hsignal

theorem armSource_of_absent (h : s.sp.signal = false) : armSource (flushPool s) = enterDetached 128 s.armBegun := by
  have hno : ¬ s.armBegun.sp.signal = true := by
    rw [show s.armBegun.sp.signal = s.sp.signal from rfl, h]
    decide
  rw [flushPool_eq]
  exact if_neg hno

theorem armed_of_present (hunarmed : s.sp.state = .unarmed) (h : s.sp.signal = true) : Armed s (armSource (flushPool s)) := by
  have hnotice : s.noticed (s.armBegun.moved .clean 0) (.sourceState .clean 0) :=
    moved_noticed (s := s.armBegun) 0 (by rw [show s.armBegun.sp.state = s.sp.state from rfl, hunarmed]; decide)
  have hlink : Reported s (s.armBegun.moved .clean 0) := by
    rw [← moveSource_clean]
    exact Reported.trans (t := s.armBegun) (.of_ml rfl) (moveSource_reported ..)
  have heq := moved_eq s.armBegun .clean 0
  rw [armSource_of_present h]
  generalize (s.armBegun.moved .clean 0).ml = m at heq
  rw [heq] at hnotice hlink ⊢
  exact {
    pool := rfl, source := ⟨rfl, rfl, rfl⟩, rest := ⟨rfl, rfl, rfl, rfl, rfl⟩
    present := fun _ => ⟨rfl, rfl, hnotice⟩
    absent := fun hs => absurd (h.symm.trans hs) (by decide)
    link := hlink }

theorem armed_of_absent (hunarmed : s.sp.state = .unarmed) (h : s.sp.signal = false) : Armed s (armSource (flushPool s)) := by
  have hroles : s.armBegun.pool.rolesHold := powerOn_rolesHold _
  have hdrops := enterDetached_drops 128 hroles
  have hlink : Reported s (enterDetached 128 s.armBegun) :=
    Reported.trans (t := s.armBegun) (.of_ml rfl) (enterDetached_reported 128 hroles)
  have hnotice : s.noticed (enterDetached 128 s.armBegun) (.sourceState .detached 128) :=
    noticed_of_kept (detachedAt_noticed (s := s.armBegun) 128
      (by rw [show s.armBegun.sp.state = s.sp.state from rfl, hunarmed]; decide)) (hdrops.others 0 (by decide))
  obtain ⟨l, g, b, n, m, heq⟩ := hdrops.core
  obtain ⟨m', heq'⟩ := detachedAt_eq s.armBegun 128
  rw [heq'] at heq
  have hpool : { SlotPool.powerOn s.pool.store with q := s.armBegun.copyUnknown s.armBegun.pool.q } =
      SlotPool.powerOn s.pool.store := by
    have hq : s.armBegun.copyUnknown s.armBegun.pool.q = none := by
      rw [State.copyUnknown]
      split <;> rfl
    exact congrArg (fun q => { SlotPool.powerOn s.pool.store with q := q }) hq
  rw [armSource_of_absent h]
  generalize enterDetached 128 s.armBegun = v at heq hnotice hlink ⊢
  subst heq
  exact {
    pool := hpool, source := ⟨rfl, rfl, rfl⟩, rest := ⟨rfl, rfl, rfl, rfl, rfl⟩
    present := fun hs => absurd (h.symm.trans hs) (by decide)
    absent := fun _ => ⟨rfl, rfl, rfl, hnotice⟩
    link := hlink }

theorem armSource_armed (hunarmed : s.sp.state = .unarmed) : Armed s (armSource (flushPool s)) := by
  cases h : s.sp.signal with
  | true => exact armed_of_present hunarmed h
  | false => exact armed_of_absent hunarmed h

theorem chooseRefresh_reported (s : State) : Reported s (chooseRefresh s) := by
  rw [chooseRefresh]
  split
  · unfold blankUnderHold
    split
    · exact Reported.trans (.of_ml (by rfl)) (.raise _ _)
    · exact .of_ml rfl
  · repeat' split
    all_goals exact .of_ml (by simp [setKind])

theorem measureFrom_reported (armedAt : Time) (s : State) : Reported s (measureFrom armedAt s) := by
  have htake (u : State) (hu : Reported s u) : Reported s (takeReport u) := by
    rw [takeReport]
    cases u.otg.lock with
    | freeRun => exact hu
    | acquire =>
      simp only
      split
      · exact hu.trans (setLock_reported .track u)
      · exact hu
    | track =>
      simp only
      split
      · exact hu.trans (setLock_reported .acquire u)
      · exact hu
  rw [measureFrom]
  split
  · exact htake _ (.of_ml rfl)
  · exact .of_ml rfl

theorem lockAndArm_reported (expired : Bool) (s : State) : Reported s (lockAndArm expired s) := by
  have hload : Reported s (loadFixed expired s) := by cases expired <;> exact .of_ml rfl
  have htest : Reported (loadFixed expired s) (lockTest (loadFixed expired s)) := by
    rw [lockTest]
    split
    · exact setLock_reported .acquire _
    · exact .of_ml rfl
  have harm : Reported (lockTest (loadFixed expired s)) (lockAndArm expired s) := by
    rw [lockAndArm, armMeasurement]
    split <;> exact .of_ml rfl
  exact hload.trans (htest.trans harm)

theorem takeStart_reported (expired event eventFirst : Bool) (armedAt : Time) (s : State) :
    Reported s (takeStart expired event eventFirst armedAt s) := by
  cases event with
  | false => exact lockAndArm_reported expired s
  | true =>
    cases eventFirst with
    | true => exact (measureFrom_reported armedAt s).trans (lockAndArm_reported expired _)
    | false => exact (lockAndArm_reported expired s).trans (measureFrom_reported _ _)

/-- A refresh start with no tune field and no commit pending (R70, R92, R123). -/
theorem refreshBy_untuned (expired planned : Bool) (htune : s.pc.tune = TuneSet.empty) (hcommit : s.cs.shadowPending = false) :
    s.choiceShown (settle (refreshBy expired planned s)) ∧ (refreshBy expired planned s).pool = s.shownPool ∧
      Reported s (refreshBy expired planned s) ∧ NoticeKept 0 s (refreshBy expired planned s) ∧
      (refreshBy expired planned s).pc = s.pc := by
  let c := chooseRefresh (beginScan s)
  let w := loadRepeat planned c
  have hchosen : mergeAndChoose (beginScan s) = c := if_pos htune
  have heq : refreshBy expired planned s =
      bankExchange (takeStart expired (s.marksSince w) (Config.eventFirst (s.choices + 1)) s.otg.tLast w) := by
    simp only [refreshBy, hchosen]
    rfl
  have hquiet (u : State) (hu : u.cs = s.cs) : bankExchange u = u := if_neg (by rw [hu, hcommit]; decide)
  rw [heq]
  refine ⟨choiceShown_refresh expired planned _ _ s.otg.tLast
    ((beginScan_choiceShown s c).mp (chooseRefresh_choiceShown (beginScan s))) (by simp [c, beginScan]), ?_, ?_, ?_, ?_⟩
  · simp [w, c, chooseRefresh_pool, beginScan_shownPool]
  · rw [hquiet _ (by simp [w, c, beginScan])]
    refine Reported.trans (t := beginScan s) (.of_ml rfl) ((chooseRefresh_reported _).trans (Reported.trans (t := w) ?_ ?_))
    · exact .of_ml (by simp [w, c])
    · exact takeStart_reported ..
  · refine NoticeKept.trans (v := beginScan s) (.of_ml rfl rfl) ((chooseRefresh_kept (by decide) _).trans ?_)
    exact (loadRepeat_kept 0 planned c).trans ((takeStart_kept (by decide) ..).trans (bankExchange_kept 0 _))
  · simp [w, c, beginScan]

end Sys2Proof.Machine
end

section
/-! The first application after power-on (R43, R86). -/

namespace Sys2Proof.Machine

variable {s : State} {p : Profile}

/-- With no candidate and no held frame every refresh start shows the blank colour (R93, R95). -/
theorem shownPool_of_empty (hcands : s.pool.cands = []) (hheld : s.pool.held = none) : s.shownPool = s.pool := by
  have hnew : s.newestEligible = none := by simp [State.newestEligible, hcands]
  rw [State.shownPool]
  split
  · rfl
  · rw [hnew, hheld]

theorem choiceShown_of_empty {t : State} (hcands : s.pool.cands = []) (hheld : s.pool.held = none) (h : s.choiceShown t) :
    t.ps.lastKind = some .blank ∧ t.ps.detachTime = s.ps.detachTime := by
  have hnew : s.newestEligible = none := by simp [State.newestEligible, hcands]
  rw [State.choiceShown] at h
  split at h
  · obtain ⟨hps, -⟩ := h
    rw [hps]
    exact ⟨rfl, rfl⟩
  · rw [hnew, hheld] at h
    obtain ⟨hps, -⟩ := h
    rw [hps]
    exact ⟨rfl, rfl⟩

/-- The generator at a first application: the refresh starts at once, and under FIXED the timer loads Tf (R86). -/
theorem startOutput_eq {x r : State} (hr : refreshBy false false (x.setOtg { x.otg with mode := some x.prof.pacing }) = r)
    (hprof : r.prof = p) : startOutput x = { r with otg := { r.otg with
      fixedTimer := if p.pacing = .fixed then .running (plusTicks r.timeBase p.fixedInterval) else r.otg.fixedTimer } } := by
  have hstart : startOutput x = if r.prof.pacing = .fixed then
      r.setOtg { r.otg with fixedTimer := r.timerAfter r.prof.fixedInterval } else r := by
    rw [← hr]
    rfl
  rw [hstart, hprof]
  split <;> rfl

/-- The blocks before the generator at the first application (R43, R66). -/
def State.firstPaced (s : State) (p : Profile) : State := applyPacing true true (armSource (flushPool (s.begun p)))

/-- The first application: the generator's share, and the Confirm's reply (R86, R138). -/
theorem applyProfile_first (hp : s.pc.proposal = some p) (hnone : s.pc.active = none) (ht : s.otg.timing = .idle) :
    applyProfile s = { startOutput (s.firstPaced p) with
      otg := { (startOutput (s.firstPaced p)).otg with pendingApp := false }
      ml := (startOutput (s.firstPaced p)).ml.complete .profileApply .ok } := by
  have happly : applyProfile s = completeDeferred .profileApply .ok
      ((startOutput (s.firstPaced p)).setOtg { (startOutput (s.firstPaced p)).otg with pendingApp := false }) := by
    have hgeo : geometryDiffers none p = true := rfl
    have hwin : windowDiffers none p = true := rfl
    have hframes (g : Bool) (x : State) : applyFrames none g x = armSource (flushPool x) := rfl
    simp only [applyProfile, hp, hnone, ht, if_true, hgeo, hwin, hframes, State.firstPaced, State.begun, State.setPc]
  rw [happly, completeDeferred_eq]
  generalize startOutput (s.firstPaced p) = x
  rfl

/-- The state of the first refresh, from the one in which the profile is applied (R43, R66). -/
theorem firstPaced_armed (hunarmed : s.sp.state = .unarmed) : ∃ v, Armed (s.begun p) v ∧
    (s.firstPaced p).pool = { SlotPool.powerOn s.pool.store with q := (s.firstPaced p).pu.q } ∧
    (s.firstPaced p).sp = v.sp ∧ (s.firstPaced p).ps.detachTime = v.ps.detachTime ∧ (s.firstPaced p).ml = v.ml ∧
    (s.firstPaced p).cs = s.cs ∧ (s.firstPaced p).pc = (s.begun p).pc ∧ (s.firstPaced p).pf = s.pf ∧
    (s.firstPaced p).timeBase = s.timeBase ∧ (s.firstPaced p).panel = s.panel := by
  have hv := armSource_armed (s := s.begun p) hunarmed
  refine ⟨_, hv, ?_⟩
  simp only [State.firstPaced]
  generalize armSource (flushPool (s.begun p)) = v at hv ⊢
  obtain ⟨hcs, hpc, hpf, hpanel, htime⟩ := hv.rest
  have hpool := applyPacing_pool true true (u := v) (hv.pool ▸ powerOn_rolesHold _)
  have hnone (q : Option Nat) : (v.marked q).pool = v.pool := by
    rw [marked_of_not]
    rintro k ⟨hmem, -⟩
    rw [hv.pool] at hmem
    cases hmem
  rw [hnone, hv.pool] at hpool
  refine ⟨hpool, by simp, by simp, by simp, ?_, ?_, ?_, ?_, ?_⟩
  · simpa [State.begun] using hcs
  · simpa using hpc
  · simpa [State.begun] using hpf
  · simpa [State.begun] using htime
  · simpa [State.begun] using hpanel

end Sys2Proof.Machine
end

section
/-! The first profile confirmed (R21, R36, R43, R72, R86, R138, R169). -/

namespace Sys2Proof.Machine

variable {s : State} {p : Profile}

/-- The first refresh and the link after it (R70, R72, R86, R93, R169). -/
structure FirstRefresh (s v r : State) (p : Profile) : Prop where
  begun : r.otg.timing = .scan ∧ r.otg.tLast = s.timeBase ∧ r.otg.nextStrip = 0 ∧ r.otg.mode = some p.pacing
  kind : r.ps.lastKind = some .blank ∧ r.ps.detachTime = v.ps.detachTime
  strobe : r.panel.refreshAt = some s.timeBase
  rest : r.sp = v.sp ∧ r.cs = s.cs ∧ r.pc = (s.begun p).pc ∧ r.pf = s.pf ∧ r.timeBase = s.timeBase
  pool : ∃ q, r.pool = { SlotPool.powerOn s.pool.store with q := q }
  timers : p.pacing = .adaptive → r.otg.tminTimer = .running (plusTicks s.timeBase p.winMin) ∧ r.otg.planCount = 0 ∧
    r.otg.repeatTimer = .running (plusTicks s.timeBase p.winMax)
  link : Reported v r
  source : NoticeKept 0 v r

theorem firstRefresh (hunarmed : s.sp.state = .unarmed) (htune : s.pc.tune = TuneSet.empty)
    (hcommit : s.cs.shadowPending = false) : ∃ v r, Armed (s.begun p) v ∧ FirstRefresh s v r p ∧
      startOutput (s.firstPaced p) = { r with otg := { r.otg with
        fixedTimer := if p.pacing = .fixed then .running (plusTicks s.timeBase p.fixedInterval) else r.otg.fixedTimer } } := by
  obtain ⟨v, hv, hpool, hsp, hdetach, hml, hcs, hpc, hpf, htime, hpanel⟩ := firstPaced_armed (p := p) hunarmed
  have hnow : v.timeBase = s.timeBase := by
    obtain ⟨-, -, -, -, h⟩ := hv.rest
    exact h
  generalize s.firstPaced p = x at hpool hsp hdetach hml hcs hpc hpf htime hpanel ⊢
  have hprof : x.prof = p := by
    rw [State.prof, hpc]
    rfl
  obtain ⟨hshown, hshownPool, hlink, hkept, hkeptPc⟩ :=
    refreshBy_untuned (s := x.setOtg { x.otg with mode := some x.prof.pacing }) false false
      ((congrArg ProfileCtl.tune hpc).trans htune) ((congrArg ColourStage.shadowPending hcs).trans hcommit)
  have hempty : x.pool.cands = [] ∧ x.pool.held = none := by rw [hpool]; exact ⟨rfl, rfl⟩
  obtain ⟨hcands, hheld⟩ := hempty
  obtain ⟨hkind, hdetached⟩ := choiceShown_of_empty hcands hheld hshown
  have hstays := shownPool_of_empty (s := x.setOtg { x.otg with mode := some x.prof.pacing }) hcands hheld
  have hbegun := refreshBy_begun false false (x.setOtg { x.otg with mode := some x.prof.pacing })
  have hloaded := refreshBy_loaded false false (s := x.setOtg { x.otg with mode := some x.prof.pacing })
  generalize hr : refreshBy false false (x.setOtg { x.otg with mode := some x.prof.pacing }) = r at *
  have hrprof : r.prof = p := by
    rw [State.prof, hkeptPc]
    exact hprof
  simp only [State.refreshBegun, State.repeatLoaded, settle_frame] at hbegun hloaded hkind hdetached
  obtain ⟨hscan, hlast, hstrip, -, hmode, -, -, hstrobe, hrcs, hrsp, hrpf, -, hrtime⟩ := hbegun
  refine ⟨v, r, hv, ?_, by rw [startOutput_eq hr hrprof, hrtime]; simp only [State.setOtg_fields, htime]⟩
  exact {
    begun := ⟨hscan, hlast.trans htime, hstrip, hmode.trans (congrArg (fun y : Profile => some y.pacing) hprof)⟩
    kind := ⟨hkind, hdetached.trans hdetach⟩
    strobe := by
      rw [hstrobe]
      exact congrArg some htime
    rest := ⟨hrsp.trans hsp, (hrcs.trans (if_neg (by
      rw [show (x.setOtg { x.otg with mode := some x.prof.pacing }).cs = x.cs from rfl, hcs, hcommit]
      decide))).trans hcs, hkeptPc.trans hpc, hrpf.trans hpf, hrtime.trans htime⟩
    pool := ⟨_, hshownPool.trans (hstays.trans hpool)⟩
    timers := fun hp => by
      have hadaptive : (x.setOtg { x.otg with mode := some x.prof.pacing }).otg.mode = some .adaptive := by
        rw [← hp, ← hprof]
        rfl
      obtain ⟨-, htmin, hplan⟩ := hloaded hadaptive
      rw [hkind, if_neg (fun h => by cases h.1), if_neg (fun h => by cases h.2)] at hplan
      obtain ⟨hcount, hrepeat⟩ := hplan
      have hprof' : (x.setOtg { x.otg with mode := some x.prof.pacing }).prof = p := hprof
      rw [hprof'] at htmin hrepeat
      simp only [State.setOtg_fields, htime] at htmin hrepeat
      exact ⟨htmin, hcount, hrepeat⟩
    link := Reported.trans (t := x.setOtg { x.otg with mode := some x.prof.pacing }) (.of_ml hml) hlink
    source := NoticeKept.trans (v := x.setOtg { x.otg with mode := some x.prof.pacing }) (.of_ml hml (htime.trans hnow.symm)) hkept }

/-- Settles O27: the arming, the first refresh, and the one reply. -/
theorem firstApplicationStartsOutput : Obligations.FirstApplicationStartsOutput := by
  intro s r p hserves hheld hp hnone htiming hunarmed htune hcommit
  let s' : State := { s with
    pc := { s.pc with propState := .confirmed }
    otg := { s.otg with pendingApp := true }
    ml := { s.ml with slots := s.ml.slots.drop 1, defProfile := .waiting r.tag } }
  have hexec : exec .confirmProfile s = .next (settle (confirmProfile r (takeRequest s))) := execRequest_of_serves hserves
  have hscan : s.otg.timing ≠ .scan := by rw [htiming]; decide
  have hconfirm : confirmProfile r (takeRequest s) = applyProfile s' := by
    rw [confirmProfile, if_pos (by exact hheld)]
    exact if_neg hscan
  obtain ⟨-, hgranted, -, -⟩ := id hserves
  obtain ⟨hroom, hdone⟩ := granted_room hgranted
  obtain ⟨v, w, hv, hw, hstart⟩ := firstRefresh (s := s') (p := p) hunarmed htune hcommit
  have happly := applyProfile_first (s := s') hp hnone htiming
  rw [hstart] at happly
  have hlink : Reported s' w := hv.link.trans hw.link
  have hml : (applyProfile s').ml = ({ s'.ml with notices := w.ml.notices } : MessageLink).complete .profileApply .ok := by
    rw [happly]
    exact congrArg (fun m : MessageLink => m.complete .profileApply .ok) hlink
  obtain ⟨hreplies, -⟩ := settle_of_completed hml (tag := r.tag) rfl hdone hroom
  rw [hconfirm] at hexec
  obtain ⟨hscanning, hlast, hstrip, hmode⟩ := hw.begun
  obtain ⟨hsp, hcs, hpc, hpf, htime⟩ := hw.rest
  obtain ⟨q, hpool⟩ := hw.pool
  obtain ⟨hkind, hdetach⟩ := hw.kind
  obtain ⟨hrun, hcond, hcounter⟩ := hv.source
  have hnotice {n : Notice} (hn : n.kind = 0) (h : s'.noticed v n) : s.noticed (settle (applyProfile s')) n := by
    have hkept : NoticeKept n.kind w (applyProfile s') := by
      refine complete_kept (m := w.ml) (k := .profileApply) (st := .ok) _ ?_ ?_ rfl rfl rfl <;> rw [happly]
    have hfinal : s'.noticed (settle (applyProfile s')) n :=
      noticed_settle (noticed_of_kept (noticed_of_kept h (hn ▸ hw.source)) hkept) (by rw [happly]; exact htime)
    exact hfinal
  refine ⟨_, hexec, ?_, ?_, ?_, ?_, ?_, ?_, ?_, ?_, ?_, ?_, ?_, fun hs => ?_, fun hs => ?_, fun k => ?_, ?_, ?_, fun ha => ?_,
    fun hf => ?_, ?_, ?_, hreplies⟩
  case refine_12 =>
    obtain ⟨hstate, hscore, hn⟩ := hv.present hs
    refine ⟨?_, ?_, hnotice rfl hn⟩ <;> simp only [settle_frame] <;> rw [happly]
    · exact (congrArg SourcePort.state hsp).trans hstate
    · exact (congrArg SourcePort.score hsp).trans hscore
  case refine_13 =>
    obtain ⟨hstate, hscore, hsince, hn⟩ := hv.absent hs
    refine ⟨?_, ?_, ?_, hnotice rfl hn⟩ <;> simp only [settle_frame] <;> rw [happly]
    · exact (congrArg SourcePort.state hsp).trans hstate
    · exact (congrArg SourcePort.score hsp).trans hscore
    · exact hdetach.trans hsince
  all_goals simp only [State.slot, settle_frame]
  all_goals rw [happly]
  · exact hpc
  · exact hscanning
  · exact hlast
  · exact hstrip
  · exact hmode
  · exact hkind
  · exact hw.strobe
  · exact (congrArg SourcePort.cleanRun hsp).trans hrun
  · exact (congrArg SourcePort.cond hsp).trans hcond
  · exact (congrArg SourcePort.frameCounter hsp).trans hcounter
  · exact (congrArg (SlotPool.slot · k) hpool).trans (by simp [SlotPool.slot, SlotPool.powerOn])
  · exact congrArg SlotPool.cands hpool
  · exact congrArg SlotPool.onScreen hpool
  · exact hw.timers ha
  · exact if_pos hf
  · exact hcs
  · exact hpf

end Sys2Proof.Machine
end

section
/-! What follows the completion of a slot at a Frame End: the fill sample, the reports, and the score (R33, R35, R36, R37, R47). -/

namespace Sys2Proof.Machine

/-- The completion and close reports on a frame (R155). -/
def completionRing (n : FrameNo) (at_ : Time) (bad : Nat) (ring : List FrameRec) : List FrameRec :=
  ring.map fun r => if r.frameNo = n then { r with completion := some at_, bad := bad, truncated := false } else r

theorem reports_hr (n : FrameNo) (t : Time) (bad : Nat) (s : State) :
    reportClose n bad false (reportCompletion n t s) = s.setHr (completionRing n t bad s.hr) := by
  simp only [reportClose, reportCompletion, onRecord, State.setHr_fields, List.map_map, completionRing]
  refine congrArg s.setHr (List.map_congr_left fun r _ => ?_)
  by_cases h : r.frameNo = n <;> simp [h]

/-- Steps 2 to 5 of a complete Frame End, the frame `n` having had `bad` bad strips (R33). -/
def frameClosed (n : FrameNo) (bad : Nat) (first : Option Time) (a : State) : State :=
  let b := if bad = 0 then fillSample first a else a
  endFrame (changeScore (if bad = 0 then scoreDown else scoreUp) (reportClose n bad false (reportCompletion n b.now b)))

theorem completeFrame_eq {s : State} {k : Slot} (hk : s.pool.filling = some k) : completeFrame s =
    frameClosed s.sp.frameCounter (s.slot k).bad (s.slot k).firstLine (completeSlot k s) := by
  simp only [completeFrame, hk]
  rfl

/-- The fill window after a Frame End with `bad` bad strips (R47, R54). -/
def State.fillsAfter (a : State) (bad : Nat) (first : Time) : List Nat :=
  if bad = 0 then windowAdd a.pu.fills (elapsed a.timeBase first) else a.pu.fills

/-- The fill sample and the reports, no candidate being there to mark (R13, R47, R57, R155). -/
theorem sampleAndReports_eq {a : State} (hroles : a.pool.rolesHold) (hmarked : a.pool.AllMarked) (n : FrameNo) (bad : Nat)
    (first : Time) :
    let b := if bad = 0 then fillSample (some first) a else a
    ∃ now fi q lastQ poolQ psQ, reportClose n bad false (reportCompletion n b.now b) = { a with
      pu := { a.pu with filledNow := now, fills := a.fillsAfter bad first, fi := fi, q := q, lastQ := lastQ }
      pool := { a.pool with q := poolQ }
      ps := { a.ps with q := psQ }
      hr := completionRing n a.timeBase bad a.hr } := by
  intro b
  rw [reports_hr]
  by_cases hbad : bad = 0
  · have hb : b = State.qSet { a with pu := { a.pu with
        filledNow := true
        fills := windowAdd a.pu.fills (elapsed a.timeBase first)
        fi := averageFill (windowAdd a.pu.fills (elapsed a.timeBase first)) } } :=
      (if_pos hbad).trans (recomputeQ_of_allMarked eligibilityEvent hroles hmarked)
    rw [qSet_eq] at hb
    rw [hb, State.fillsAfter, if_pos hbad]
    exact ⟨_, _, _, _, _, _, rfl⟩
  · have hb : b = a := if_neg hbad
    rw [hb, State.fillsAfter, if_neg hbad]
    exact ⟨_, _, _, _, _, _, rfl⟩

/-- A frame has been closed at its Frame End, the slot pool having taken the completion in `a` (R33, R35 to R37, R47). -/
structure Closes (n : FrameNo) (bad score : Nat) (first : Time) (a t : State) : Prop where
  sp : t.sp = { a.sp with
    cond := .none, stripErr := false, score := score, state := bandOf score
    cleanRun := if score < 128 then a.sp.cleanRun else 0
    prevRef := if score < 128 then a.sp.prevRef else none }
  pool : t.pool = { a.pool with q := t.pool.q }
  ring : t.hr = completionRing n a.timeBase bad a.hr
  ps : t.ps = { a.ps with detachTime := if score < 128 then a.ps.detachTime else some a.timeBase, q := t.ps.q }
  otg : t.otg = { a.otg with lock := t.otg.lock, planCount := t.otg.planCount, repeatTimer := t.otg.repeatTimer }
  rest : t.pc = a.pc ∧ t.cs = a.cs ∧ t.panel = a.panel ∧ t.pf = a.pf ∧ t.timeBase = a.timeBase
  lock : a.lockDrops t (bandOf score ≠ a.sp.state ∧ (bandOf score).healthy = false)
  armed : t.pu.armed = a.pu.armed
  plan : score < 128 → t.otg.planCount = a.otg.planCount ∧ t.otg.repeatTimer = a.otg.repeatTimer
  windows : score < 128 → t.pu.intervals = a.pu.intervals ∧ t.pu.fills = a.fillsAfter bad first
  emptied : 128 ≤ score → a.intervalsTaken t ∧ t.pu.intervals = [] ∧ t.pu.fills = []
  source : bandOf score ≠ a.sp.state → a.noticed t (.sourceState (bandOf score) score)

section
variable {a : State} {n : FrameNo} {bad score : Nat} {first : Time} {c : State}

/-- The end of the frame and of the event. -/
theorem settle_endFrame_eq (d : State) : settle (endFrame d) = { d with
    sp := { d.sp with cond := .none, stripErr := false }
    ml := (settle (endFrame d)).ml } := by
  have h := settle_eq_setMl (endFrame d)
  rw [h]
  rfl

theorem endFrame_noticed {d : State} {x : Notice} (h : a.noticed d x) (ht : d.timeBase = a.timeBase) :
    a.noticed (settle (endFrame d)) x :=
  noticed_settle (u := endFrame d) h ht

theorem endFrame_lockDrops {d : State} {x : Prop} (h : a.lockDrops d x) (ht : d.timeBase = a.timeBase) :
    a.lockDrops (settle (endFrame d)) x :=
  lockDrops_settle (u := endFrame d) h ht

/-- Below 128 the source state follows the score (R35, R36). -/
theorem closes_of_band (hlow : score < 128) {now : Bool} {fi q lastQ poolQ psQ : Option Nat} (hc : c = { a with
      pu := { a.pu with filledNow := now, fills := a.fillsAfter bad first, fi := fi, q := q, lastQ := lastQ }
      pool := { a.pool with q := poolQ }
      ps := { a.ps with q := psQ }
      hr := completionRing n a.timeBase bad a.hr }) :
    Closes n bad score first a (settle (endFrame (moveSource (bandOf score) score c))) := by
  have hd := moveSource_drops (bandOf score) score c
  have hsame : LockSame a c := by
    rw [hc]
    exact ⟨rfl, rfl, rfl, rfl, .of_ml rfl rfl⟩
  have hprof : c.prof = a.prof := by rw [hc]; rfl
  have hstate : c.sp = a.sp := by rw [hc]
  have htime : (moveSource (bandOf score) score c).timeBase = a.timeBase := by simp [hc]
  have hlock := endFrame_lockDrops (hd.lockDrops (hsame.trans (moved_lockSame ..)) ((moved_prof ..).trans hprof)) htime
  have hnotice (hne : bandOf score ≠ a.sp.state) :
      a.noticed (settle (endFrame (moveSource (bandOf score) score c))) (.sourceState (bandOf score) score) := by
    refine endFrame_noticed (noticed_of_kept (noticed_from ?_ (moved_noticed score (hstate ▸ hne))) (hd.others 0 (by decide))) htime
    rw [hc]
    exact .of_ml rfl rfl
  rw [hstate] at hlock
  have hcore := hd.core
  have hend := settle_endFrame_eq (moveSource (bandOf score) score c)
  generalize settle (endFrame (moveSource (bandOf score) score c)) = t at hlock hnotice hend ⊢
  generalize moveSource (bandOf score) score c = d at hcore hend
  rw [moved_eq, hc] at hcore
  obtain ⟨l, g, b, nf, m, rfl⟩ := hcore
  generalize t.ml = m' at hend
  subst hend
  exact {
    sp := by rw [if_pos hlow, if_pos hlow]
    pool := rfl, ring := rfl
    ps := by rw [if_pos hlow]
    otg := rfl, rest := ⟨rfl, rfl, rfl, rfl, rfl⟩, lock := hlock, armed := rfl
    plan := fun _ => ⟨rfl, rfl⟩, windows := fun _ => ⟨rfl, rfl⟩
    emptied := fun h => absurd h (by omega)
    source := hnotice }

/-- At 128 or more the source detaches (R37). -/
theorem closes_of_detached (hatt : a.sp.state.attached = true) (hhigh : 128 ≤ score) (hroles : a.pool.rolesHold)
    {now : Bool} {fi q lastQ poolQ psQ : Option Nat} (hc : c = { a with
      pu := { a.pu with filledNow := now, fills := a.fillsAfter bad first, fi := fi, q := q, lastQ := lastQ }
      pool := { a.pool with q := poolQ }
      ps := { a.ps with q := psQ }
      hr := completionRing n a.timeBase bad a.hr }) :
    Closes n bad score first a (settle (endFrame (enterDetached score c))) := by
  have hband : bandOf score = .detached := bandOf_detached_iff.mpr hhigh
  have hdet : a.sp.state ≠ .detached := fun h => by
    rw [h] at hatt
    cases hatt
  have hd := enterDetached_drops score (s := c) (by rw [hc]; exact hroles)
  have hsame : LockSame a c := by
    rw [hc]
    exact ⟨rfl, rfl, rfl, rfl, .of_ml rfl rfl⟩
  have hstate : c.sp = a.sp := by rw [hc]
  obtain ⟨m, heq⟩ := detachedAt_eq c score
  have hprof : (c.detachedAt score).prof = a.prof := by
    rw [heq, hc]
    rfl
  have htime : (enterDetached score c).timeBase = a.timeBase := by simp [hc]
  have hlock := endFrame_lockDrops (hd.lockDrops (hsame.trans (detachedAt_lockSame ..)) hprof) htime
  have hnotice : a.noticed (settle (endFrame (enterDetached score c))) (.sourceState .detached score) := by
    refine endFrame_noticed (noticed_of_kept (noticed_from ?_ (detachedAt_noticed score (hstate ▸ hdet)))
      (hd.others 0 (by decide))) htime
    rw [hc]
    exact .of_ml rfl rfl
  have htaken : a.intervalsTaken (enterDetached score c) := by
    have h := intervalsTaken_of_lockOnly (detachedAt_taken c score) hd.core
    rw [State.intervalsTaken, hc] at h
    rw [hc]
    exact h
  have hcore := hd.core
  have hend := settle_endFrame_eq (enterDetached score c)
  have htaken' : a.intervalsTaken (settle (endFrame (enterDetached score c))) := by
    refine intervalsTaken_congr htaken ?_ ?_ <;> rw [hend]
    · exact ⟨rfl, rfl, rfl, rfl, rfl, rfl⟩
    · exact ⟨rfl, rfl⟩
  generalize settle (endFrame (enterDetached score c)) = t at hlock hnotice hend htaken' ⊢
  generalize enterDetached score c = d at hcore hend
  rw [heq, hc] at hcore
  obtain ⟨l, g, b, nf, m₁, rfl⟩ := hcore
  generalize t.ml = m₂ at hend
  subst hend
  have hhigh' : ¬ score < 128 := by omega
  have hfalls : True ↔ SourceState.detached ≠ a.sp.state ∧ SourceState.detached.healthy = false :=
    ⟨fun _ => ⟨Ne.symm hdet, rfl⟩, fun _ => trivial⟩
  exact {
    sp := by rw [if_neg hhigh', if_neg hhigh', hband]
    pool := rfl, ring := rfl
    ps := by rw [if_neg hhigh']
    otg := rfl, rest := ⟨rfl, rfl, rfl, rfl, rfl⟩
    lock := by
      rw [hband, ← hfalls]
      exact hlock
    armed := rfl
    plan := fun h => absurd h hhigh', windows := fun h => absurd h hhigh'
    emptied := fun _ => ⟨htaken', rfl, rfl⟩
    source := fun _ => hband ▸ hnotice }

/-- The close of a frame, the roles standing and nothing being left to mark (R33, R35, R36, R37, R47). -/
theorem frameClosed_closes (hatt : a.sp.state.attached = true) (hscore : a.sp.score ≤ 127) (hroles : a.pool.rolesHold)
    (hmarked : a.pool.AllMarked) (n : FrameNo) (bad : Nat) (first : Time) :
    Closes n bad (if bad = 0 then a.sp.score - 1 else a.sp.score + 8) first a (settle (frameClosed n bad (some first) a)) := by
  obtain ⟨now, fi, q, lastQ, poolQ, psQ, hc⟩ := sampleAndReports_eq hroles hmarked n bad first
  rw [frameClosed]
  generalize reportClose n bad false (reportCompletion n (if bad = 0 then fillSample (some first) a else a).now
    (if bad = 0 then fillSample (some first) a else a)) = c at hc ⊢
  have hsp : c.sp = a.sp := by rw [hc]
  have hchange : (if bad = 0 then scoreDown else scoreUp) c.sp.score = if bad = 0 then a.sp.score - 1 else a.sp.score + 8 := by
    rw [hsp]
    split
    · rfl
    · exact min_eq_right (by omega)
  generalize (if bad = 0 then a.sp.score - 1 else a.sp.score + 8) = score at hchange ⊢
  by_cases hlow : score < 128
  · rw [changeScore_of_band (by rw [hsp]; exact hatt) hchange (fun h => absurd (bandOf_detached_iff.mp h) (by omega))]
    exact closes_of_band hlow hc
  · rw [changeScore_of_detached (by rw [hsp]; exact hatt) hchange (bandOf_detached_iff.mpr (by omega))]
    exact closes_of_detached hatt (by omega) hroles hc

end

end Sys2Proof.Machine
end

section
/-! The slot pool at a complete Frame End (R8, R9, R12). -/

namespace Sys2Proof.Machine

variable {s : State} {k : Slot}

/-- The slots and the ring written into a state. -/
def State.setBlocks (s : State) (P : SlotPool) (ring : List FrameRec) : State := { s with pool := P, hr := ring }

theorem raise_setBlocks (n : Notice) (u : State) (P : SlotPool) (ring : List FrameRec) :
    raise n (u.setBlocks P ring) = (raise n u).setBlocks P ring := by
  refine (raise_eq_setMl n (u.setBlocks P ring)).trans (Eq.trans ?_ (congrArg (State.setBlocks · P ring) (raise_eq_setMl n u)).symm)
  rw [raise_ml_congr n (s := u) (t := u.setBlocks P ring) rfl]
  rfl

/-- The lock set, with the counts and the next fixed interval that go with it, before the notice (R63, R64, R82). -/
def State.lockSet (s : State) (l : Lock) : State :=
  (s.setOtg { s.otg with lock := l }).setPu { s.pu with
    good := 0
    bad := 0
    nextFixed := if l = .freeRun ∧ s.prof.pacing = .fixed then s.prof.fixedInterval else s.pu.nextFixed }

theorem setLock_of_ne {l : Lock} {u : State} (h : u.otg.lock ≠ l) : setLock l u = raise (.lockState l) (u.lockSet l) := if_neg h

theorem setLock_setBlocks (l : Lock) (u : State) (P : SlotPool) (ring : List FrameRec) :
    setLock l (u.setBlocks P ring) = (setLock l u).setBlocks P ring := by
  by_cases h : u.otg.lock = l
  · exact (if_pos h).trans (congrArg (State.setBlocks · P ring) (if_pos h : setLock l u = u)).symm
  · rw [setLock_of_ne h, ← raise_setBlocks]
    exact setLock_of_ne (u := u.setBlocks P ring) h

theorem setLock_lockOnly (l : Lock) (u : State) : LockOnly u (setLock l u) := by
  by_cases h : u.otg.lock = l
  · rw [show setLock l u = u from if_pos h]
    exact .refl u
  · rw [setLock_of_ne h]
    exact LockOnly.trans (v := u.lockSet l) ⟨_, _, _, _, _, rfl⟩ (.raise _ _)

theorem takeReport_setBlocks (u : State) (P : SlotPool) (ring : List FrameRec) :
    takeReport (u.setBlocks P ring) = (takeReport u).setBlocks P ring := by
  have hite (c : Prop) [Decidable c] (l : Lock) : (if c then setLock l (u.setBlocks P ring) else u.setBlocks P ring) =
      (if c then setLock l u else u).setBlocks P ring := by
    split
    · exact setLock_setBlocks l u P ring
    · rfl
  have hotg : (u.setBlocks P ring).otg = u.otg := rfl
  have hpu : (u.setBlocks P ring).pu = u.pu := rfl
  simp only [takeReport, hotg, hpu]
  cases u.otg.lock with
  | freeRun => rfl
  | acquire => exact hite _ .track
  | track => exact hite _ .acquire

theorem takeReport_lockOnly (u : State) : LockOnly u (takeReport u) := by
  have hite (c : Prop) [Decidable c] (l : Lock) : LockOnly u (if c then setLock l u else u) := by
    split
    · exact setLock_lockOnly l u
    · exact .refl u
  rw [takeReport]
  cases u.otg.lock with
  | freeRun => exact .refl u
  | acquire => exact hite _ .track
  | track => exact hite _ .acquire

/-- The pacing unit's results of a phase measurement (R60 to R64). -/
def State.phased (s : State) : State :=
  let d := phaseError s.prof (elapsed s.now s.otg.tLast)
  s.setPu (countMeasurement s.prof d s.otg.lock { s.pu with
    armed := false
    nextFixed := fixedFrom s.prof s.pu (correction s.prof s.otg.lock d) })

theorem measured_eq_takeReport (s : State) : s.measured = if s.measures then takeReport s.phased else s := by
  rw [← phaseMeasure_eq_measured]
  rfl

/-- The measurement reads neither the slots nor the ring (R60, R61). -/
theorem measured_of_blocks (s : State) (P : SlotPool) (ring : List FrameRec) :
    State.measured (s.setBlocks P ring) = s.measured.setBlocks P ring := by
  rw [measured_eq_takeReport s]
  by_cases h : s.measures = true
  · rw [if_pos h, ← takeReport_setBlocks]
    exact (measured_eq_takeReport _).trans (if_pos h)
  · rw [if_neg h]
    exact (measured_eq_takeReport _).trans (if_neg h)

theorem measured_eq (s : State) : s.measured = { s with
    otg := { s.otg with lock := s.measured.otg.lock }
    pu := { s.pu with
      armed := s.measured.pu.armed, nextFixed := s.measured.pu.nextFixed, good := s.measured.pu.good
      bad := s.measured.pu.bad }
    ml := s.measured.ml } := by
  have hphased : s.phased = s.setPu { s.pu with
      armed := s.phased.pu.armed, nextFixed := s.phased.pu.nextFixed, good := s.phased.pu.good, bad := s.phased.pu.bad } := by
    have hcount (p : Profile) (d : Int) (l : Lock) (u : PacingUnit) : countMeasurement p d l u = { u with
        good := (countMeasurement p d l u).good, bad := (countMeasurement p d l u).bad } := by cases l <;> rfl
    rw [State.phased, hcount]
    rfl
  rw [measured_eq_takeReport]
  split
  · have hcore := takeReport_lockOnly s.phased
    generalize takeReport s.phased = t at hcore ⊢
    rw [hphased] at hcore
    obtain ⟨l, g, b, n, m, rfl⟩ := hcore
    rfl
  · rfl

/-- The record of a slot that completes (R8). -/
def State.doneRec (s : State) (k : Slot) : SlotRec := { s.slot k with fill := .complete, lastLine := some s.timeBase }

/-- The frame in slot `k` is dropped at its completion (R9). -/
def State.drops (s : State) (k : Slot) : Prop := s.sp.state = .guarded ∧ (s.slot k).bad ≠ 0

/-- The fate of the older ready frame when another becomes ready (R8). -/
def State.olderReady (s : State) : List (Slot × Fate) :=
  match s.pool.ready with
  | some r => [(r, .replaced)]
  | none => []

theorem completedPool_of_drops (h : s.drops k) : s.completedPool k =
    { ({ s.pool with filling := none } : SlotPool).setSlot k SlotRec.free with
      cands := s.pool.cands.filter (· ≠ k), onScreen := s.pool.onScreen.filter (· ≠ k) } := if_pos h

theorem completedPool_of_screen (h : ¬ s.drops k) (hon : s.pool.onScreen = some k) : s.completedPool k =
    ({ s.pool with filling := none } : SlotPool).setSlot k (s.doneRec k) := (if_neg h).trans (if_pos hon)

theorem completedPool_of_ready (hroles : s.pool.rolesHold) (hk : s.pool.filling = some k) (h : ¬ s.drops k)
    (hon : s.pool.onScreen ≠ some k) : s.completedPool k = s.pool.readied k { s.doneRec k with eligible := true } := by
  obtain ⟨-, -, hready, -, -, hcands⟩ := id hroles
  have heq : s.completedPool k = { (match s.pool.ready with
      | some r => ({ s.pool with filling := none } : SlotPool).setSlot r SlotRec.free
      | none => { s.pool with filling := none }).setSlot k { s.doneRec k with eligible := true } with
      ready := some k, cands := [k] } := (if_neg h).trans (if_neg hon)
  have hlist : s.pool.cands = s.pool.ready.toList ++ [k] := by
    rw [hcands, hk, if_neg hon]
    rfl
  rw [heq]
  cases hr : s.pool.ready with
  | none =>
    rw [hr] at hlist
    rw [SlotPool.readied, hr, Option.toList_none, SlotPool.released_nil]
    exact congrArg (fun l => { ({ s.pool with filling := none } : SlotPool).setSlot k _ with ready := some k, cands := l })
      hlist.symm
  | some j =>
    obtain ⟨-, -, hheld, hscreen⟩ := hready j hr
    have hjk : k ≠ j := fun e => hroles.ready_ne_filling hr (e ▸ hk)
    refine SlotPool.ext_slot (fun i => ?_) rfl rfl ?_ ?_ ?_ rfl rfl
    · refine (SlotPool.slot_setSlot _ k i _).trans (Eq.trans ?_ (SlotPool.slot_setSlot _ k i _).symm)
      rw [hr, Option.toList_some, SlotPool.released_slot, SlotPool.slot_setSlot]
      simp only [List.mem_singleton]
      rfl
    · cases hh : s.pool.held with
      | none => simp [SlotPool.readied, SlotPool.released, hh]
      | some i =>
        rw [hh] at hheld
        have hij : i ≠ j := fun e => hheld (congrArg some e)
        simp [SlotPool.readied, SlotPool.released, hh, hr, hij, Option.filter]
    · cases hh : s.pool.onScreen with
      | none => simp [SlotPool.readied, SlotPool.released, hh]
      | some i =>
        rw [hh] at hscreen
        have hij : i ≠ j := fun e => hscreen (congrArg some e)
        simp [SlotPool.readied, SlotPool.released, hh, hr, hij, Option.filter]
    · rw [hr] at hlist
      simp [SlotPool.readied, SlotPool.released, hr, hlist, hjk]

/-- The slot pool's share of a completion, before an eligibility event (R8, R9, R158). -/
def State.completed (s : State) (k : Slot) (reports : List (Slot × Fate)) : State :=
  { s with pool := s.completedPool k, hr := s.fateRing reports }

/-- The frame in slot `k` marked COMPLETE, before it takes a role (R8). -/
def State.closedSlot (s : State) (k : Slot) : State := s.setPool { s.pool.setSlot k (s.doneRec k) with filling := none }

theorem closedSlot_slot (s : State) (k j : Slot) : (s.closedSlot k).pool.slot j = if j = k then s.doneRec k else s.pool.slot j :=
  SlotPool.slot_setSlot ..

theorem closedSlot_released (hroles : s.pool.rolesHold) (hk : s.pool.filling = some k) (h : s.drops k) :
    (s.closedSlot k).pool.released [k] = s.completedPool k := by
  have hready : s.pool.ready ≠ some k := fun e => hroles.ready_ne_filling e hk
  have hheld : s.pool.held ≠ some k := fun e => hroles.held_ne_filling e hk
  have hmarker {m : Option Slot} (hm : m ≠ some k) : m.filter (fun i => decide (i ∉ [k])) = m := by
    cases m with
    | none => rfl
    | some i => simpa [Option.filter] using hm
  rw [completedPool_of_drops h]
  refine SlotPool.ext_slot (fun j => ?_) rfl (hmarker hready) (hmarker hheld) ?_ ?_ rfl rfl
  · rw [SlotPool.released_slot, closedSlot_slot]
    refine Eq.trans ?_ (SlotPool.slot_setSlot ({ s.pool with filling := none } : SlotPool) k j SlotRec.free).symm
    simp only [List.mem_singleton]
    split <;> rfl
  · simp [SlotPool.released, State.closedSlot]
  · simp [SlotPool.released, State.closedSlot]

theorem fateRing_closedSlot (s : State) (k : Slot) (reports : List (Slot × Fate)) :
    (s.closedSlot k).fateRing reports = s.fateRing reports :=
  fateRing_congr reports rfl fun x _ => by
    rw [State.slot, closedSlot_slot]
    split
    next h =>
      rw [h]
      rfl
    · rfl

theorem completeSlot_of_drops (hroles : s.pool.rolesHold) (hk : s.pool.filling = some k) (h : s.drops k) :
    completeSlot k s = s.completed k [(k, .errorDropped)] := by
  obtain ⟨hstate, hbad⟩ := id h
  have heq : completeSlot k s = freeSlot k .errorDropped (s.closedSlot k) := if_pos ⟨hstate, Nat.pos_of_ne_zero hbad⟩
  rw [heq]
  refine State.ext_blocks ⟨?_, ?_, ?_, ?_, ?_, ?_, ?_⟩ ⟨?_, ?_, ?_, ?_, ?_, ?_, ?_, ?_⟩
  case refine_3 => exact (freeSlot_pool ..).trans (closedSlot_released hroles hk h)
  case refine_11 => exact (freeSlot_hr ..).trans (fateRing_closedSlot ..)
  all_goals simp [State.completed, State.closedSlot]

theorem not_drops_bad (h : ¬ s.drops k) : ¬ (s.sp.state = .guarded ∧ 0 < (s.slot k).bad) :=
  fun ⟨hstate, hbad⟩ => h ⟨hstate, Nat.pos_iff_ne_zero.mp hbad⟩

theorem completeSlot_of_screen (h : ¬ s.drops k) (hon : s.pool.onScreen = some k) :
    completeSlot k s = s.completed k [] := by
  have heq : completeSlot k s = s.closedSlot k := (if_neg (not_drops_bad h)).trans (if_pos hon)
  rw [heq, State.completed, fateRing_nil, completedPool_of_screen h hon]
  rfl

/-- The frame in slot `k` has become ready (R8). -/
theorem becomeReady_closedSlot (hroles : s.pool.rolesHold) (hk : s.pool.filling = some k) :
    becomeReady k (s.closedSlot k) = { s with pool := s.pool.readied k (s.doneRec k), hr := s.fateRing s.olderReady } := by
  have hring : (becomeReady k (s.closedSlot k)).hr = s.fateRing s.olderReady := by
    have hready : (s.closedSlot k).pool.ready = s.pool.ready := rfl
    simp only [becomeReady, hready, State.olderReady]
    cases s.pool.ready with
    | none => exact (fateRing_nil s).symm
    | some r => exact (freeSlot_hr ..).trans (fateRing_closedSlot ..)
  refine State.ext_blocks ⟨?_, ?_, ?_, ?_, ?_, ?_, ?_⟩ ⟨?_, ?_, ?_, ?_, ?_, ?_, ?_, ?_⟩
  case refine_3 => exact becomeReady_pool hroles hk
  case refine_11 => exact hring
  all_goals simp [State.closedSlot]

theorem markEligible_readied (r : SlotRec) (ring : List FrameRec) :
    markEligible k { s with pool := s.pool.readied k r, hr := ring } =
      { s with pool := s.pool.readied k { r with eligible := true }, hr := ring } := by
  have hslot : (s.pool.readied k r).slot k = r := SlotPool.slot_setSlot_self _ k r
  have hset : (s.pool.readied k r).setSlot k { r with eligible := true } = s.pool.readied k { r with eligible := true } := by
    rw [SlotPool.readied, SlotPool.readied]
    exact congrArg (fun p : SlotPool => { p with filling := none, ready := some k }) (SlotPool.setSlot_setSlot ..)
  rw [markEligible, State.slot, hslot]
  exact congrArg (fun p : SlotPool => { s with pool := p, hr := ring }) hset

theorem completeSlot_of_ready (hroles : s.pool.rolesHold) (hk : s.pool.filling = some k) (h : ¬ s.drops k)
    (hon : s.pool.onScreen ≠ some k) : completeSlot k s =
      if (s.slot k).eligible = true then s.completed k s.olderReady else eligibilityEvent (s.completed k s.olderReady) := by
  have heq : completeSlot k s = if ((becomeReady k (s.closedSlot k)).slot k).eligible = true then
      becomeReady k (s.closedSlot k) else eligibilityEvent (markEligible k (becomeReady k (s.closedSlot k))) :=
    (if_neg (not_drops_bad h)).trans (if_neg hon)
  have hmarked : markEligible k (becomeReady k (s.closedSlot k)) = s.completed k s.olderReady := by
    rw [becomeReady_closedSlot hroles hk, markEligible_readied, State.completed, completedPool_of_ready hroles hk h hon]
  have hslot : (becomeReady k (s.closedSlot k)).slot k = s.doneRec k := by
    rw [becomeReady_closedSlot hroles hk]
    exact SlotPool.slot_setSlot_self _ k _
  rw [heq, hslot, hmarked]
  by_cases hset : (s.slot k).eligible = true
  · have hsame : { s.doneRec k with eligible := true } = s.doneRec k := by
      rw [← hset]
      rfl
    rw [if_pos hset, becomeReady_closedSlot hroles hk, State.completed, completedPool_of_ready hroles hk h hon, hsame]
    exact if_pos hset
  · rw [if_neg hset]
    exact if_neg hset

end Sys2Proof.Machine
end

section
/-! The frame that becomes eligible as it completes (R8, R12, R74, R92, R105, R106). -/

namespace Sys2Proof.Machine

variable {s : State} {k : Slot}

/-- The pool of a frame that is ready at its completion (R8, R12). -/
structure ReadyPool (s : State) (k : Slot) (p : SlotPool) : Prop where
  self : p.slot k = { s.doneRec k with eligible := true }
  cands : p.cands = [k]
  markers : p.filling = none ∧ p.ready = some k ∧ p.held = s.pool.held ∧ p.onScreen = s.pool.onScreen
  store : p.store = s.pool.store
  older : ∀ r, s.pool.ready = some r → p.slot r = SlotRec.free
  others : ∀ j, j ≠ k → s.pool.ready ≠ some j → p.slot j = s.pool.slot j

theorem completedPool_readyPool (hroles : s.pool.rolesHold) (hk : s.pool.filling = some k) (h : ¬ s.drops k)
    (hon : s.pool.onScreen ≠ some k) : ReadyPool s k (s.completedPool k) := by
  have heq : s.completedPool k = { (match s.pool.ready with
      | some r => ({ s.pool with filling := none } : SlotPool).setSlot r SlotRec.free
      | none => { s.pool with filling := none }).setSlot k { s.doneRec k with eligible := true } with
      ready := some k, cands := [k] } := (if_neg h).trans (if_neg hon)
  have hne (r : Slot) (hr : s.pool.ready = some r) : r ≠ k := fun e => hroles.ready_ne_filling hr (e ▸ hk)
  have hset (p : SlotPool) (j : Slot) (r : SlotRec) :
      ({ p.setSlot k r with ready := some k, cands := [k] } : SlotPool).slot j = if j = k then r else p.slot j :=
    SlotPool.slot_setSlot p k j r
  rw [heq]
  cases hready : s.pool.ready with
  | none =>
    exact {
      self := (hset _ _ _).trans (if_pos rfl), cands := rfl, markers := ⟨rfl, rfl, rfl, rfl⟩, store := rfl
      older := fun i hi => absurd (hready.symm.trans hi) nofun, others := fun j hj _ => (hset _ _ _).trans (if_neg hj) }
  | some r =>
    exact {
      self := (hset _ _ _).trans (if_pos rfl), cands := rfl, markers := ⟨rfl, rfl, rfl, rfl⟩, store := rfl
      older := fun i hi => by
        obtain rfl := Option.some.inj (hready.symm.trans hi)
        exact (hset _ _ _).trans ((if_neg (hne r hready)).trans (SlotPool.slot_setSlot_self _ r _))
      others := fun j hj hr => (hset _ _ _).trans ((if_neg hj).trans ((SlotPool.slot_setSlot _ r j _).trans
        (if_neg fun e => hr (hready.trans (congrArg some e.symm))))) }

/-- The pacing unit has taken its measurement of a frame that completes (R60). -/
def State.completedMeasured (s : State) (k : Slot) : State :=
  { s with
    otg := { s.otg with lock := s.measured.otg.lock }
    pu := { s.pu with
      armed := s.measured.pu.armed, nextFixed := s.measured.pu.nextFixed, good := s.measured.pu.good
      bad := s.measured.pu.bad }
    ml := s.measured.ml
    pool := s.completedPool k
    hr := s.fateRing s.olderReady }

theorem completed_measured (s : State) (k : Slot) : (s.completed k s.olderReady).measured = s.completedMeasured k := by
  refine (measured_of_blocks s (s.completedPool k) (s.fateRing s.olderReady)).trans ?_
  exact (congrArg (State.setBlocks · (s.completedPool k) (s.fateRing s.olderReady)) (measured_eq s) :)

theorem olderReady_ne_pending (s : State) : ∀ x ∈ s.olderReady, x.2 ≠ .pending := by
  rw [State.olderReady]
  cases s.pool.ready <;> simp

/-- The frame that leaves the screen, and the one it takes the held role from, are not the ready one (R4). -/
theorem leaveFates_ne_ready (hroles : s.pool.rolesHold) : ∀ x ∈ s.leaveFates, s.pool.ready ≠ some x.1 := by
  obtain ⟨-, -, hready, -⟩ := id hroles
  intro x hx hr
  obtain ⟨-, -, hheld, hscreen⟩ := hready x.1 hr
  rw [State.leaveFates] at hx
  cases ha : s.pool.onScreen with
  | none => simp [ha] at hx
  | some a =>
    have hxa : x.1 ≠ a := fun e => hscreen (ha.trans (congrArg some e.symm))
    have hheldFates : x ∉ s.heldFates a := by
      rw [State.heldFates]
      cases hh : s.pool.held with
      | none => rintro hmem; simp at hmem; exact hxa (congrArg Prod.fst hmem)
      | some j =>
        have hxj : x.1 ≠ j := fun e => hheld (hh.trans (congrArg some e.symm))
        intro hmem
        rw [List.mem_append, List.mem_singleton] at hmem
        rcases hmem with hmem | hmem
        · simp only at hmem
          split at hmem
          · cases hmem
          · exact hxj (congrArg Prod.fst (List.mem_singleton.mp hmem))
        · exact hxa (congrArg Prod.fst hmem)
    rw [ha] at hx
    simp only at hx
    cases hf : (s.slot a).fill with
    | empty | filling => simp [hf] at hx
    | complete =>
      rw [hf] at hx
      simp only at hx
      split at hx
      · cases hx
      · exact hheldFates hx
    | aborted =>
      rw [hf] at hx
      exact hxa (congrArg Prod.fst (List.mem_singleton.mp hx))

section
variable (hp : ReadyPool s k (s.completedPool k))
include hp

theorem completedMeasured_slot : (s.completedMeasured k).slot k = { s.doneRec k with eligible := true } := hp.self

theorem completedMeasured_newest : (s.completedMeasured k).newestEligible = some k := by
  have hcands : (s.completedMeasured k).pool.cands = [k] := hp.cands
  rw [State.newestEligible, hcands, List.filter_cons, completedMeasured_slot hp]
  rfl

theorem completedMeasured_candidate (j : Nat) : (s.completedMeasured k).spliceCandidate j = some k := by
  have hcands : (s.completedMeasured k).pool.cands = [k] := hp.cands
  rw [State.spliceCandidate, hcands, List.filter_cons, State.spliceFits, completedMeasured_slot hp]
  rfl

theorem completedMeasured_older : (s.completedMeasured k).olderReplaced k = [] := by
  have hcands : (s.completedMeasured k).pool.cands = [k] := hp.cands
  rw [State.olderReplaced, hcands]
  simp

/-- Frames but the older ready one keep their numbers. -/
theorem completedMeasured_frameNo {j : Slot} (hj : s.pool.ready ≠ some j) :
    ((s.completedMeasured k).slot j).frameNo = (s.slot j).frameNo := by
  by_cases hjk : j = k
  · rw [hjk, completedMeasured_slot hp]
    rfl
  · exact congrArg SlotRec.frameNo (hp.others j hjk hj)

/-- The ring of a NEW refresh of the frame (R92, R97, R156). -/
theorem completedMeasured_refreshRing : (s.completedMeasured k).refreshRing k
    ((s.completedMeasured k).fateRing ((s.completedMeasured k).olderReplaced k)) = s.refreshRing k (s.fateRing s.olderReady) := by
  rw [completedMeasured_older hp, fateRing_nil]
  simp only [State.refreshRing, completedMeasured_slot hp]
  rfl

theorem completedMeasured_leaveFates (hroles : s.pool.rolesHold) (hon : s.pool.onScreen ≠ some k) :
    (s.completedMeasured k).leaveFates = s.leaveFates := by
  obtain ⟨-, -, hheld, hscreen⟩ := hp.markers
  have hscreen' : (s.completedMeasured k).pool.onScreen = s.pool.onScreen := hscreen
  have hheld' : (s.completedMeasured k).pool.held = s.pool.held := hheld
  obtain ⟨-, -, hready, -⟩ := id hroles
  rw [State.leaveFates, State.leaveFates, hscreen', hheld']
  cases ha : s.pool.onScreen with
  | none => rfl
  | some a =>
    have hslot : (s.completedMeasured k).slot a = s.slot a :=
      hp.others a (fun e => hon (ha.trans (congrArg some e))) fun hr => by
        obtain ⟨-, -, -, hne⟩ := hready a hr
        exact hne ha
    have hheldFates : (s.completedMeasured k).heldFates a = s.heldFates a := by
      rw [State.heldFates, State.heldFates, hheld']
    simp only [hslot, hheldFates]

/-- The ring of a splice to the frame (R18, R19, R106, R156, R158). -/
theorem completedMeasured_splicedRing (hroles : s.pool.rolesHold) (hon : s.pool.onScreen ≠ some k) (j : Nat) :
    (s.completedMeasured k).splicedRing j k = s.spliceRing k j (s.fateRing (s.olderReady ++ s.leaveFates)) := by
  have hring : (s.completedMeasured k).fateRing s.leaveFates = s.fateRing (s.olderReady ++ s.leaveFates) :=
    fateRing_append rfl (fun x hx => completedMeasured_frameNo hp (leaveFates_ne_ready hroles x hx)) (olderReady_ne_pending s)
  rw [State.splicedRing, completedMeasured_older hp, List.append_nil, completedMeasured_leaveFates hp hroles hon, hring]
  simp only [State.spliceRing, completedMeasured_slot hp]
  rfl

end

end Sys2Proof.Machine
end

section
/-! The eligibility event of a frame that completes (R60, R74, R105, R106). -/

namespace Sys2Proof.Machine

variable {s : State} {k : Slot}

/-- An eligibility event starts a refresh at once (R74, R96). -/
def State.opensAt (s : State) : Prop :=
  s.otg.timing = .blankOpen ∧ s.otg.mode = some .adaptive ∧ s.ps.blankActive = false

/-- A frame that has just become ready is spliced to (R103, R105). -/
def State.splicesAt (s : State) : Prop :=
  s.otg.timing = .scan ∧ s.ps.watchOpen = true ∧ s.prof.tear = .splice ∧ s.otg.nextStrip ≤ s.prof.spliceLimit

theorem event_opens (h : s.opensAt) :
    eligibilityEvent (s.completed k s.olderReady) = refreshStart false (s.completedMeasured k) := by
  obtain ⟨ht, hmode, hblank⟩ := h
  rw [eligibilityEvent_of_opens (s := s.completed k s.olderReady) ht hmode hblank, completed_measured]

theorem event_scans (hscan : s.otg.timing = .scan) :
    eligibilityEvent (s.completed k s.olderReady) = spliceCheck s.otg.nextStrip (s.completedMeasured k) := by
  rw [eligibilityEvent_of_scan (s := s.completed k s.olderReady) hscan, completed_measured]
  rfl

/-- The splice watch after the event (R103, R105). -/
def State.watchAfter (s : State) : Bool := s.ps.watchOpen && !decide (s.otg.timing = .scan ∧ s.prof.tear = .splice)

theorem event_splices (hp : ReadyPool s k (s.completedPool k)) (hroles : s.pool.rolesHold)
    (hdone : (s.completedPool k).rolesHold) (hon : s.pool.onScreen ≠ some k) (h : s.splicesAt) :
    eligibilityEvent (s.completed k s.olderReady) = { s.completedMeasured k with
      pool := State.splicedPool { s with pool := s.completedPool k } k
      hr := s.spliceRing k s.otg.nextStrip (s.fateRing (s.olderReady ++ s.leaveFates))
      ps := { s.ps with watchOpen := s.watchAfter } } := by
  obtain ⟨hscan, hwatch, htear, hlimit⟩ := h
  have hclosed : s.watchAfter = false := by simp [State.watchAfter, hscan, htear]
  rw [event_scans hscan, spliceCheck_splices (u := s.completedMeasured k) hdone hwatch htear hlimit
    (completedMeasured_candidate hp _), hclosed, completedMeasured_splicedRing hp hroles hon]
  rfl

theorem event_rests (hno : ¬ s.opensAt) (h : ¬ s.splicesAt) :
    eligibilityEvent (s.completed k s.olderReady) = { s.completedMeasured k with
      ps := { s.ps with watchOpen := s.watchAfter } } := by
  have hkeep {w : Bool} (hw : w = s.ps.watchOpen) : s.completedMeasured k =
      { s.completedMeasured k with ps := { s.ps with watchOpen := w } } := by
    rw [hw]
    rfl
  by_cases hscan : s.otg.timing = .scan
  · rw [event_scans hscan, spliceCheck_of_no_splice (s := s.completedMeasured k) fun ⟨hw, hs, hj, _⟩ => h ⟨hscan, hw, hs, hj⟩]
    by_cases hlate : s.ps.watchOpen = true ∧ s.prof.tear = .splice ∧ s.prof.spliceLimit < s.otg.nextStrip
    · have hclosed : s.watchAfter = false := by
        obtain ⟨-, htear, -⟩ := hlate
        simp [State.watchAfter, hscan, htear]
      rw [hclosed]
      exact if_pos hlate
    · refine (if_neg hlate).trans (hkeep ?_)
      simp only [State.watchAfter, hscan, true_and]
      cases hw : s.ps.watchOpen with
      | false => rfl
      | true =>
        have htear : s.prof.tear ≠ .splice := fun hs => by
          rcases Nat.lt_or_ge s.prof.spliceLimit s.otg.nextStrip with hlt | hge
          · exact hlate ⟨hw, hs, hlt⟩
          · exact h ⟨hscan, hw, hs, hge⟩
        simp [htear]
  · have hrest : s.otg.timing ∈ [Timing.idle, .blankMin, .blank] ∨
        s.otg.timing = .blankOpen ∧ (s.otg.mode ≠ some .adaptive ∨ s.ps.blankActive = true) := by
      cases ht : s.otg.timing with
      | scan => exact absurd ht hscan
      | idle | blankMin | blank => simp
      | blankOpen =>
        refine .inr ⟨rfl, ?_⟩
        by_cases hmode : s.otg.mode = some .adaptive
        · exact .inr (by
            rw [← Bool.not_eq_false]
            exact fun hb => hno ⟨ht, hmode, hb⟩)
        · exact .inl hmode
    rw [eligibilityEvent_of_rest (s := s.completed k s.olderReady) hrest, completed_measured]
    exact hkeep (by simp [State.watchAfter, hscan])

/-- The only candidate goes on screen (R15, R19). -/
theorem toScreen_alone {p : SlotPool} (hcands : p.cands = [k]) (hready : p.ready = some k) (r : SlotRec) :
    (p.toScreen k r).cands = [] ∧ (p.toScreen k r).ready = none ∧ (p.toScreen k r).onScreen = some k ∧
      (p.toScreen k r).filling = p.filling ∧ (p.toScreen k r).held = p.held ∧ (p.toScreen k r).store = p.store ∧
      ∀ j, (p.toScreen k r).slot j = if j = k then r else p.slot j := by
  refine ⟨?_, ?_, rfl, ?_, ?_, rfl, fun j => ?_⟩
  · simp [SlotPool.toScreen, hcands]
  · simp [SlotPool.toScreen, hcands, hready, Option.filter]
  · simp [SlotPool.toScreen, hcands, filter_of_all]
  · simp [SlotPool.toScreen, hcands, filter_of_all]
  · rw [toScreen_slot, hcands]
    simp

/-- The pool of a frame that has completed and was not dropped (R8). -/
structure FinishedPool (s : State) (k : Slot) (p : SlotPool) : Prop where
  self : (p.slot k).fill = .complete ∧ (p.slot k).lastLine = some s.timeBase
  role : p.ready = some k ∨ p.onScreen = some k
  older : s.pool.onScreen ≠ some k → ∀ r, s.pool.ready = some r → p.slot r = SlotRec.free
  stays : p.filling = none ∧ p.store = s.pool.store

theorem completedPool_finished (hroles : s.pool.rolesHold) (hk : s.pool.filling = some k) (h : ¬ s.drops k) :
    FinishedPool s k (s.completedPool k) := by
  by_cases hon : s.pool.onScreen = some k
  · rw [completedPool_of_screen h hon]
    have hself : (({ s.pool with filling := none } : SlotPool).setSlot k (s.doneRec k)).slot k = s.doneRec k :=
      SlotPool.slot_setSlot_self ..
    exact {
      self := by
        rw [hself]
        exact ⟨rfl, rfl⟩
      role := .inr hon, older := fun hne => absurd hon hne, stays := ⟨rfl, rfl⟩ }
  · have hp := completedPool_readyPool hroles hk h hon
    obtain ⟨hfilling, hready, -⟩ := hp.markers
    exact {
      self := by
        rw [hp.self]
        exact ⟨rfl, rfl⟩
      role := .inl hready, older := fun _ => hp.older, stays := ⟨hfilling, hp.store⟩ }

/-- The pool of a frame shown or spliced to as it completes (R15, R19). -/
theorem toScreen_finished {p : SlotPool} {r : SlotRec} (hcands : p.cands = [k]) (hready : p.ready = some k)
    (hfilling : p.filling = none) (hstore : p.store = s.pool.store) (hself : r.fill = .complete ∧ r.lastLine = some s.timeBase)
    (holder : ∀ j, s.pool.ready = some j → j ≠ k ∧ p.slot j = SlotRec.free) : FinishedPool s k (p.toScreen k r) := by
  obtain ⟨-, -, hon, hf, -, hst, hslot⟩ := toScreen_alone hcands hready r
  exact {
    self := by
      rw [hslot, if_pos rfl]
      exact hself
    role := .inr hon
    older := fun _ j hj => by
      obtain ⟨hne, hfree⟩ := holder j hj
      rw [hslot, if_neg hne, hfree]
    stays := ⟨hf.trans hfilling, hst.trans hstore⟩ }

/-- The pool that the frame which leaves a splice leaves behind: slots are kept or freed (R19). -/
theorem splicedPool_eq (u : State) (n : Slot) : ∃ p : SlotPool, u.splicedPool n = p.toScreen n { u.slot n with presented := true } ∧
    p.cands = u.pool.cands ∧ p.ready = u.pool.ready ∧ p.filling = u.pool.filling ∧ p.store = u.pool.store ∧
    ∀ j, p.slot j = u.pool.slot j ∨ p.slot j = SlotRec.free := by
  have hset (i j : Slot) : (u.pool.setSlot i SlotRec.free).slot j = u.pool.slot j ∨
      (u.pool.setSlot i SlotRec.free).slot j = SlotRec.free := by
    rw [SlotPool.slot_setSlot]
    split
    · exact .inr rfl
    · exact .inl rfl
  refine ⟨_, rfl, ?_⟩
  cases u.pool.onScreen with
  | none => exact ⟨rfl, rfl, rfl, rfl, fun _ => .inl rfl⟩
  | some a =>
    simp only
    cases (u.slot a).fill with
    | empty | filling => exact ⟨rfl, rfl, rfl, rfl, fun _ => .inl rfl⟩
    | aborted => exact ⟨rfl, rfl, rfl, rfl, hset a⟩
    | complete =>
      cases u.pool.held with
      | none => exact ⟨rfl, rfl, rfl, rfl, fun _ => .inl rfl⟩
      | some i =>
        simp only
        by_cases hi : i = a
        · rw [if_pos hi]
          exact ⟨rfl, rfl, rfl, rfl, fun _ => .inl rfl⟩
        · rw [if_neg hi]
          exact ⟨rfl, rfl, rfl, rfl, hset i⟩

end Sys2Proof.Machine
end

section
/-! The slot pool, the ring and the generator once a slot has completed (R8, R9, R12, R60, R74, R92, R105). -/

namespace Sys2Proof.Machine

variable {s : State} {k : Slot}

/-- The frame in slot `k` becomes eligible as it completes (R12). -/
def State.takes (s : State) (k : Slot) : Prop :=
  ¬ s.drops k ∧ s.pool.onScreen ≠ some k ∧ (s.slot k).eligible = false

theorem completeSlot_of_takes (hroles : s.pool.rolesHold) (hk : s.pool.filling = some k) (h : s.takes k) :
    completeSlot k s = eligibilityEvent (s.completed k s.olderReady) := by
  obtain ⟨hdrop, hon, hset⟩ := h
  rw [completeSlot_of_ready hroles hk hdrop hon, if_neg (by rw [hset]; decide)]

/-- The reports of a completion that brings no eligibility event about (R8, R9). -/
def State.quietReports (s : State) (k : Slot) (reports : List (Slot × Fate)) : Prop :=
  (s.drops k → reports = [(k, .errorDropped)]) ∧ (¬ s.drops k → s.pool.onScreen = some k → reports = []) ∧
    (¬ s.drops k → s.pool.onScreen ≠ some k → reports = s.olderReady)

theorem completeSlot_of_not_takes (hroles : s.pool.rolesHold) (hk : s.pool.filling = some k) (h : ¬ s.takes k) :
    ∃ reports, s.quietReports k reports ∧ completeSlot k s = s.completed k reports := by
  by_cases hdrop : s.drops k
  · exact ⟨_, ⟨fun _ => rfl, fun hn => absurd hdrop hn, fun hn => absurd hdrop hn⟩, completeSlot_of_drops hroles hk hdrop⟩
  · by_cases hon : s.pool.onScreen = some k
    · exact ⟨_, ⟨fun hd => absurd hd hdrop, fun _ _ => rfl, fun _ hn => absurd hon hn⟩, completeSlot_of_screen hdrop hon⟩
    · have hset : (s.slot k).eligible = true := by
        rw [← Bool.not_eq_false]
        exact fun hs => h ⟨hdrop, hon, hs⟩
      refine ⟨_, ⟨fun hd => absurd hd hdrop, fun _ ho => absurd ho hon, fun _ _ => rfl⟩, ?_⟩
      rw [completeSlot_of_ready hroles hk hdrop hon, if_pos hset]

/-- A slot has completed in `a` and no refresh has started; the lock and its results are those of `m`, and the splice watch
is `w`. -/
structure QuietSlot (s m a : State) (w : Bool) : Prop where
  otg : a.otg = { s.otg with lock := m.otg.lock }
  pu : a.pu = { s.pu with
    armed := m.pu.armed, nextFixed := m.pu.nextFixed, good := m.pu.good, bad := m.pu.bad }
  ps : a.ps = { s.ps with watchOpen := w }
  ml : a.ml = m.ml
  rest : a.pc = s.pc ∧ a.cs = s.cs ∧ a.panel = s.panel ∧ a.sp = s.sp ∧ a.pf = s.pf ∧ a.timeBase = s.timeBase

theorem completed_quiet (s : State) (k : Slot) (reports : List (Slot × Fate)) :
    QuietSlot s s (s.completed k reports) s.ps.watchOpen := ⟨rfl, rfl, rfl, rfl, rfl, rfl, rfl, rfl, rfl, rfl⟩

/-- What a slot's completion leaves when it makes a frame eligible and no refresh starts. -/
theorem completeSlot_event (h : s.pool.rolesHold) (hk : s.pool.filling = some k) (hdone : (s.completedPool k).rolesHold)
    (ht : s.takes k) (hno : ¬ s.opensAt) : QuietSlot s s.measured (completeSlot k s) s.watchAfter ∧
      (s.splicesAt → (completeSlot k s).pool = State.splicedPool { s with pool := s.completedPool k } k ∧
        (completeSlot k s).hr = s.spliceRing k s.otg.nextStrip (s.fateRing (s.olderReady ++ s.leaveFates))) ∧
      (¬ s.splicesAt → (completeSlot k s).pool = s.completedPool k ∧ (completeSlot k s).hr = s.fateRing s.olderReady) := by
  obtain ⟨hdrop, hon, -⟩ := id ht
  rw [completeSlot_of_takes h hk ht]
  by_cases hsplice : s.splicesAt
  · rw [event_splices (completedPool_readyPool h hk hdrop hon) h hdone hon hsplice]
    exact ⟨⟨rfl, rfl, rfl, rfl, rfl, rfl, rfl, rfl, rfl, rfl⟩, fun _ => ⟨rfl, rfl⟩, fun hn => absurd hsplice hn⟩
  · rw [event_rests hno hsplice]
    exact ⟨⟨rfl, rfl, rfl, rfl, rfl, rfl, rfl, rfl, rfl, rfl⟩, fun hs => absurd hs hsplice, fun _ => ⟨rfl, rfl⟩⟩

theorem publishMargin_kept (i : Fin 5) (changed : Bool) (s : State) : NoticeKept i s (publishMargin changed s) := by
  have hin (u : State) : NoticeKept i u (checkInScan u) := .of_ml (by simp [checkInScan]) (by simp [checkInScan])
  have hset (x : PacingUnit) (P : SlotPool) (y : Scheduler) : NoticeKept i s { s with pu := x, pool := P, ps := y } :=
    .of_ml rfl rfl
  simp only [publishMargin, recomputeQ]
  repeat' split
  · exact .of_ml rfl rfl
  · exact judgeAll_inv (NoticeKept i s) checkInScan (fun v hv => hv.trans (hin v)) (fun k v hv => hv.trans (.of_ml rfl rfl)) _
      (hset _ _ _)
  · exact .refl i s

theorem mergeAndChoose_kept {i : Fin 5} (hi : i ≠ 3) (s : State) : NoticeKept i s (mergeAndChoose s) := by
  have hcounted : NoticeKept i s (s.setChoices (s.choices + 2)) := .of_ml rfl rfl
  have hmerged (u : State) : NoticeKept i u (mergeTune u) := .of_ml rfl rfl
  simp only [mergeAndChoose]
  repeat' split
  · exact chooseRefresh_kept hi s
  · exact hcounted.trans ((hmerged _).trans ((publishMargin_kept i _ _).trans (chooseRefresh_kept hi _)))
  · exact hcounted.trans ((hmerged _).trans ((chooseRefresh_kept hi _).trans (publishMargin_kept i _ _)))
  · exact hcounted.trans ((chooseRefresh_kept hi _).trans ((hmerged _).trans (publishMargin_kept i _ _)))

/-- A refresh start raises OUTPUT_BLANK and LOCK_STATE alone (R84, R96). -/
theorem refreshBy_kept {i : Fin 5} (h1 : i ≠ 1) (h3 : i ≠ 3) (expired planned : Bool) (s : State) :
    NoticeKept i s (refreshBy expired planned s) := by
  refine NoticeKept.trans (v := beginScan s) (.of_ml rfl rfl) ((mergeAndChoose_kept h3 _).trans ?_)
  exact (loadRepeat_kept i planned _).trans ((takeStart_kept h1 ..).trans (bankExchange_kept i _))

theorem measured_kept {i : Fin 5} (hi : i ≠ 1) (s : State) : NoticeKept i s s.measured := by
  rw [← phaseMeasure_eq_measured]
  exact measureFrom_kept hi _ s

end Sys2Proof.Machine
end

section
/-! A complete Frame End, part by part (R33, R74, R92, R155, R158). -/

namespace Sys2Proof.Machine

variable {s : State} {k : Slot}

/-- The frame in slot `k` as it is shown when it completes in BLANK_OPEN (R15, R92). -/
def State.shownRec (s : State) (k : Slot) : SlotRec :=
  { s.doneRec k with eligible := true, presented := true, shownTop := true }

/-- A slot has completed in `a` and a NEW refresh of it has started (R74, R92). -/
structure OpenedSlot (s : State) (k : Slot) (a : State) : Prop where
  pool : a.pool = { State.shownPool { s with pool := s.completedPool k } with q := a.pool.q }
  shown : State.shownPool { s with pool := s.completedPool k } = (s.completedPool k).toScreen k (s.shownRec k)
  ps : a.ps = { s.ps with lastKind := some .new, q := a.ps.q }
  ring : a.hr = s.refreshRing k (s.fateRing s.olderReady)
  begun : a.otg.timing = .scan ∧ a.otg.tLast = s.timeBase ∧ a.otg.nextStrip = 0 ∧ a.otg.minPassed = false ∧
    a.panel.refreshAt = some s.timeBase
  loaded : s.repeatLoaded a false
  rest : a.sp = s.sp ∧ a.pf = s.pf ∧ a.timeBase = s.timeBase
  windows : a.pu.intervals = s.pu.intervals ∧ a.pu.fills = s.pu.fills
  source : NoticeKept 0 s a

theorem completeSlot_opens (h : s.poolHolds) (hk : s.pool.filling = some k) (hdone : (s.completedPool k).rolesHold)
    (ht : s.takes k) (ho : s.opensAt) (hstate : s.sp.state ≠ .detached) : OpenedSlot s k (completeSlot k s) := by
  obtain ⟨hdrop, hon, -⟩ := id ht
  obtain ⟨htiming, hmode, hblank⟩ := id ho
  obtain ⟨hdark, hwatch⟩ := h.2 (by rw [htiming]; decide)
  have hp := completedPool_readyPool h.1 hk hdrop hon
  obtain ⟨hfilling, -, -, hscreen⟩ := hp.markers
  have hoff : (s.completedMeasured k).screenOff := ⟨hdone, hscreen.trans hdark, hwatch⟩
  have hnew := completedMeasured_newest hp
  have hmarked : (s.completedMeasured k).pool.AllMarked := SlotPool.allMarked_of_none hfilling
  obtain ⟨hpool, hps, hring⟩ := refreshBy_shows false false hoff hstate hnew hmarked
  have hbegun := refreshBy_begun false false (s.completedMeasured k)
  have hloaded := refreshBy_loaded false false (s := s.completedMeasured k) hmode
  obtain ⟨-, -, -, -, -, hnow, -⟩ := measured_frame s
  have hkept := (measured_kept (i := 0) (by decide) s).trans (NoticeKept.trans (v := s.completedMeasured k)
    (.of_ml rfl hnow.symm) (refreshBy_kept (by decide) (by decide) false false _))
  have hshown : (s.completedMeasured k).shownPool = State.shownPool { s with pool := s.completedPool k } := rfl
  rw [completeSlot_of_takes h.1 hk ht, event_opens ho, refreshStart]
  have hwindows : (refreshBy false false (s.completedMeasured k)).pu.intervals = s.pu.intervals ∧
      (refreshBy false false (s.completedMeasured k)).pu.fills = s.pu.fills := by
    simp [State.completedMeasured]
  generalize refreshBy false false (s.completedMeasured k) = a at *
  simp only [State.refreshBegun, State.repeatLoaded, settle_frame] at hbegun hloaded
  obtain ⟨hscan, hlast, hstrip, hmin, -, -, -, hstrobe, -, hsp, hpf, -, htime⟩ := hbegun
  exact {
    pool := hpool
    shown := by
      rw [← hshown, shownPool_of_newest (s := s.completedMeasured k) hstate hnew, completedMeasured_slot hp]
      rfl
    ps := hps
    ring := hring.trans (completedMeasured_refreshRing hp)
    begun := ⟨hscan, hlast, hstrip, hmin, by rw [hstrobe]; rfl⟩
    loaded := hloaded
    rest := ⟨hsp, hpf, htime⟩, windows := hwindows, source := hkept }

end Sys2Proof.Machine
end

section
/-! A complete Frame End, part by part (R8, R9, R33, R155, R158). -/

namespace Sys2Proof.Machine

variable {s : State} {k : Slot}

theorem completedPool_rolesHold (hroles : s.pool.rolesHold) (hk : s.pool.filling = some k) (ht : s.takes k) :
    (s.completedPool k).rolesHold := by
  obtain ⟨hdrop, hon, -⟩ := ht
  rw [completedPool_of_ready hroles hk hdrop hon]
  exact readied_rolesHold hroles hk hon rfl rfl

/-- The ring of a completion before its reports on the frame itself (R8, R9, R92, R106). -/
theorem completeSlot_hr (h : s.poolHolds) (hk : s.pool.filling = some k) (hstate : s.sp.state ≠ .detached) :
    (completeSlot k s).hr =
      if s.sp.state = .guarded ∧ (s.slot k).bad ≠ 0 then s.fateRing [(k, .errorDropped)]
      else if s.pool.onScreen = some k then s.hr
      else if (s.slot k).eligible = true then s.fateRing s.olderReady
      else if s.otg.timing = .blankOpen ∧ s.otg.mode = some .adaptive ∧ s.ps.blankActive = false then
        s.refreshRing k (s.fateRing s.olderReady)
      else if s.otg.timing = .scan ∧ s.ps.watchOpen = true ∧ s.prof.tear = .splice ∧
          s.otg.nextStrip ≤ s.prof.spliceLimit then
        s.spliceRing k s.otg.nextStrip (s.fateRing (s.olderReady ++ s.leaveFates))
      else s.fateRing s.olderReady := by
  by_cases ht : s.takes k
  · have hdone := completedPool_rolesHold h.1 hk ht
    obtain ⟨hdrop, hon, hset⟩ := id ht
    refine Eq.trans ?_ ((if_neg hdrop).trans ((if_neg hon).trans (if_neg (by rw [hset]; decide)))).symm
    by_cases ho : s.opensAt
    · exact (completeSlot_opens h hk hdone ht ho hstate).ring.trans (if_pos ho).symm
    · obtain ⟨-, hsplice, hrest⟩ := completeSlot_event h.1 hk hdone ht ho
      refine Eq.trans ?_ (if_neg ho).symm
      by_cases hs : s.splicesAt
      · exact (hsplice hs).2.trans (if_pos hs).symm
      · exact (hrest hs).2.trans (if_neg hs).symm
  · obtain ⟨reports, ⟨hdrops, hscreen, hready⟩, heq⟩ := completeSlot_of_not_takes h.1 hk ht
    have hring : (completeSlot k s).hr = s.fateRing reports := by rw [heq]; rfl
    rw [hring]
    by_cases hdrop : s.drops k
    · rw [hdrops hdrop]
      exact (if_pos hdrop).symm
    · refine Eq.trans ?_ (if_neg hdrop).symm
      by_cases hon : s.pool.onScreen = some k
      · rw [hscreen hdrop hon, fateRing_nil, if_pos hon]
      · have hset : (s.slot k).eligible = true := by
          rw [← Bool.not_eq_false]
          exact fun hs => ht ⟨hdrop, hon, hs⟩
        rw [hready hdrop hon, if_neg hon, if_pos hset]

theorem completeSlot_ring (h : s.poolHolds) (hk : s.pool.filling = some k) (hstate : s.sp.state ≠ .detached) :
    completionRing s.sp.frameCounter s.timeBase (s.slot k).bad (completeSlot k s).hr = s.completedRing k := by
  rw [completeSlot_hr h hk hstate]
  rfl

/-- A completion reaches neither the source port nor the windows, and raises no SOURCE_STATE (R84). -/
theorem completeSlot_kept (h : s.poolHolds) (hk : s.pool.filling = some k) (hstate : s.sp.state ≠ .detached) :
    ((completeSlot k s).sp = s.sp ∧ (completeSlot k s).pf = s.pf ∧ (completeSlot k s).timeBase = s.timeBase) ∧
      ((completeSlot k s).pu.intervals = s.pu.intervals ∧ (completeSlot k s).pu.fills = s.pu.fills) ∧
      NoticeKept 0 s (completeSlot k s) := by
  have hquiet {m : State} {w : Bool} (hq : QuietSlot s m (completeSlot k s) w) (hm : NoticeKept 0 s m)
      (hnow : m.timeBase = s.timeBase) : ((completeSlot k s).sp = s.sp ∧ (completeSlot k s).pf = s.pf ∧
        (completeSlot k s).timeBase = s.timeBase) ∧
      ((completeSlot k s).pu.intervals = s.pu.intervals ∧ (completeSlot k s).pu.fills = s.pu.fills) ∧
      NoticeKept 0 s (completeSlot k s) := by
    obtain ⟨-, -, -, hsp, hpf, htime⟩ := hq.rest
    rw [hq.pu]
    exact ⟨⟨hsp, hpf, htime⟩, ⟨rfl, rfl⟩, hm.trans (.of_ml hq.ml (htime.trans hnow.symm))⟩
  by_cases ht : s.takes k
  · have hdone := completedPool_rolesHold h.1 hk ht
    by_cases ho : s.opensAt
    · have hopen := completeSlot_opens h hk hdone ht ho hstate
      exact ⟨hopen.rest, hopen.windows, hopen.source⟩
    · obtain ⟨-, -, -, -, -, hnow, -⟩ := measured_frame s
      exact hquiet (completeSlot_event h.1 hk hdone ht ho).1 (measured_kept (by decide) s) hnow
  · obtain ⟨reports, -, heq⟩ := completeSlot_of_not_takes h.1 hk ht
    exact hquiet (heq ▸ completed_quiet s k reports) (.refl 0 s) rfl

/-- The pool of a frame that was not dropped (R8, R15, R19). -/
theorem completeSlot_finished (h : s.poolHolds) (hk : s.pool.filling = some k) (hstate : s.sp.state ≠ .detached)
    (hdrop : ¬ s.drops k) : FinishedPool s k (completeSlot k s).pool := by
  have hkept := completedPool_finished h.1 hk hdrop
  by_cases ht : s.takes k
  · obtain ⟨-, hon, -⟩ := id ht
    have hdone := completedPool_rolesHold h.1 hk ht
    have hp := completedPool_readyPool h.1 hk hdrop hon
    obtain ⟨hfilling, hready, -⟩ := hp.markers
    have holder (j : Slot) (hj : s.pool.ready = some j) : j ≠ k ∧ (s.completedPool k).slot j = SlotRec.free :=
      ⟨fun e => h.1.ready_ne_filling hj (e ▸ hk), hp.older j hj⟩
    by_cases ho : s.opensAt
    · have hopen := completeSlot_opens h hk hdone ht ho hstate
      have hfin : FinishedPool s k ((s.completedPool k).toScreen k (s.shownRec k)) :=
        toScreen_finished hp.cands hready hfilling hp.store ⟨rfl, rfl⟩ holder
      rw [hopen.pool, hopen.shown]
      exact ⟨hfin.self, hfin.role, hfin.older, hfin.stays⟩
    · obtain ⟨-, hsplice, hrest⟩ := completeSlot_event h.1 hk hdone ht ho
      by_cases hs : s.splicesAt
      · obtain ⟨p, hpool, hcands', hready', hfilling', hstore', hslots⟩ :=
          splicedPool_eq { s with pool := s.completedPool k } k
        rw [(hsplice hs).1, hpool]
        refine toScreen_finished (hcands'.trans hp.cands) (hready'.trans hready) (hfilling'.trans hfilling)
          (hstore'.trans hp.store) ?_ fun j hj => ?_
        · rw [show State.slot { s with pool := s.completedPool k } k = _ from hp.self]
          exact ⟨rfl, rfl⟩
        · obtain ⟨hne, hfree⟩ := holder j hj
          rcases hslots j with hsame | hsame
          · exact ⟨hne, hsame.trans hfree⟩
          · exact ⟨hne, hsame⟩
      · rw [(hrest hs).1]
        exact hkept
  · obtain ⟨reports, -, heq⟩ := completeSlot_of_not_takes h.1 hk ht
    rw [heq]
    exact hkept

/-- A drop seen from a state with the same lock. -/
theorem lockDrops_from {d : Prop} {m a t : State} (h : a.lockDrops t d) (hs : LockSame m a) (hprof : a.prof = m.prof) :
    m.lockDrops t d := by
  obtain ⟨hdrop, hkeep⟩ := h
  rw [hs.lock, hs.nextFixed, hprof] at hdrop
  rw [hs.lock, hs.good, hs.bad, hs.nextFixed] at hkeep
  refine ⟨fun hd hne => ?_, hkeep⟩
  obtain ⟨h1, h2, h3, h4, h5⟩ := hdrop hd hne
  exact ⟨h1, h2, h3, h4, noticed_from hs.notice h5⟩

theorem QuietSlot.lockDrops {m a t : State} {w : Bool} {d : Prop} (hq : QuietSlot s m a w) (hpc : m.pc = s.pc)
    (htime : m.timeBase = s.timeBase) (h : a.lockDrops t d) : m.lockDrops t d := by
  obtain ⟨hpc', -, -, -, -, htime'⟩ := hq.rest
  refine lockDrops_from h ⟨?_, ?_, ?_, ?_, .of_ml hq.ml (htime'.trans htime.symm)⟩ ?_
  · rw [hq.otg]
  · rw [hq.pu]
  · rw [hq.pu]
  · rw [hq.pu]
  · rw [State.prof, hpc', State.prof, hpc]

theorem QuietSlot.intervalsTaken {m a t : State} {w : Bool} (hq : QuietSlot s m a w) (h : a.intervalsTaken t) :
    s.intervalsTaken t := by
  obtain ⟨hpc, -⟩ := hq.rest
  have hprof : a.prof = s.prof := by rw [State.prof, hpc, State.prof]
  rw [State.intervalsTaken, hprof, hpc, hq.otg] at h
  exact h

end Sys2Proof.Machine
end

section
/-! A complete Frame End: what the close keeps, and what a refresh start shows (R33, R37, R77, R92, R155). -/

namespace Sys2Proof.Machine

variable {s m a t : State} {k : Slot} {n : FrameNo} {bad score : Nat} {first : Time} {w : Bool}

theorem exec_frameEnd_complete (hr : s.running) (hatt : s.sp.state.attached = true) (hc : s.sp.cond = .taken)
    (hline : s.sp.lineCount = s.prof.height) (hk : s.pool.filling = some k) (hfirst : (s.slot k).firstLine = some first) :
    exec .frameEnd s =
      .next (settle (frameClosed s.sp.frameCounter (s.slot k).bad (some first) (completeSlot k s))) := by
  rw [exec_frameEnd hr, frameEndEvent, if_neg (frame_state_armed hatt), hc]
  simp only [if_pos hline, completeFrame_eq hk, hfirst]

/-- What a close keeps where no refresh has started (R33, R37, R77). -/
theorem closes_quiet (hq : QuietSlot s m a w) (hcl : Closes n bad score first a t) :
    ((128 ≤ score → s.intervalsTaken t) ∧
      (score < 128 → t.otg.planCount = s.otg.planCount ∧ t.otg.repeatTimer = s.otg.repeatTimer)) ∧
    t.pc = s.pc ∧ t.cs = s.cs ∧ t.panel = s.panel ∧
    t.otg = { s.otg with lock := t.otg.lock, planCount := t.otg.planCount, repeatTimer := t.otg.repeatTimer } ∧
    t.ps = { s.ps with
      watchOpen := w, detachTime := if score < 128 then s.ps.detachTime else some s.timeBase, q := t.ps.q } ∧
    (score < 128 → t.pu.intervals = s.pu.intervals ∧ (bad ≠ 0 → t.pu.fills = s.pu.fills)) := by
  obtain ⟨hpc, hcs, hpanel, -, -, htime⟩ := hq.rest
  obtain ⟨hpc', hcs', hpanel', -, -⟩ := hcl.rest
  refine ⟨⟨fun h => ?_, fun h => ?_⟩, hpc'.trans hpc, hcs'.trans hcs, hpanel'.trans hpanel, ?_, ?_, fun h => ?_⟩
  · obtain ⟨htaken, -⟩ := hcl.emptied h
    exact hq.intervalsTaken htaken
  · have hplan := hcl.plan h
    rw [hq.otg] at hplan
    exact hplan
  · have hotg := hcl.otg
    rw [hq.otg] at hotg
    exact hotg
  · have hps := hcl.ps
    rw [hq.ps, htime] at hps
    exact hps
  · obtain ⟨hi, hf⟩ := hcl.windows h
    rw [hq.pu] at hi
    refine ⟨hi, fun hbad => ?_⟩
    rw [hf, State.fillsAfter, if_neg hbad, hq.pu]

theorem watch_of_takes (h : s.takes k) [Decidable (s.takes k ∧ s.otg.timing = .scan ∧ s.prof.tear = .splice)] :
    s.watchAfter = (s.ps.watchOpen && !decide (s.takes k ∧ s.otg.timing = .scan ∧ s.prof.tear = .splice)) := by
  simp [State.watchAfter, h]

theorem watch_of_not_takes (h : ¬ s.takes k) [Decidable (s.takes k ∧ s.otg.timing = .scan ∧ s.prof.tear = .splice)] :
    s.ps.watchOpen = (s.ps.watchOpen && !decide (s.takes k ∧ s.otg.timing = .scan ∧ s.prof.tear = .splice)) := by
  simp [h]

/-- Where no refresh has started, the lock's results are those of the measurement or as they were (R60). -/
theorem completeSlot_quiet (h : s.poolHolds) (hk : s.pool.filling = some k) (hno : ¬ (s.takes k ∧ s.opensAt))
    {d : Decidable (s.takes k ∧ s.otg.timing = .scan ∧ s.prof.tear = .splice)} :
    ∃ m, QuietSlot s m (completeSlot k s)
      (s.ps.watchOpen && !decide (s.takes k ∧ s.otg.timing = .scan ∧ s.prof.tear = .splice)) := by
  by_cases ht : s.takes k
  · rw [← watch_of_takes ht]
    exact ⟨_, (completeSlot_event h.1 hk (completedPool_rolesHold h.1 hk ht) ht fun ho => hno ⟨ht, ho⟩).1⟩
  · obtain ⟨reports, -, heq⟩ := completeSlot_of_not_takes h.1 hk ht
    rw [← watch_of_not_takes ht, heq]
    exact ⟨_, completed_quiet s k reports⟩

/-- The ring's record of the frame that has completed (R155). -/
theorem completionRing_mem {ring : List FrameRec} {r : FrameRec} (h : r ∈ completionRing n first bad ring) (hr : r.frameNo = n) :
    r.completion = some first ∧ r.bad = bad ∧ r.truncated = false := by
  obtain ⟨x, -, rfl⟩ := List.mem_map.mp h
  by_cases hx : x.frameNo = n
  · simp [hx]
  · rw [if_neg hx] at hr
    exact absurd hr hx

/-- A frame dropped at its completion leaves its slot free (R9). -/
theorem completedPool_dropped (hroles : s.pool.rolesHold) (hk : s.pool.filling = some k) (h : s.drops k) :
    (s.completedPool k).slot k = SlotRec.free ∧ (s.completedPool k).isFree k = true ∧
      (s.completedPool k).ready = s.pool.ready ∧ (s.completedPool k).filling = none ∧
      (s.completedPool k).store = s.pool.store := by
  rw [completedPool_of_drops h]
  refine ⟨SlotPool.slot_setSlot_self ({ s.pool with filling := none } : SlotPool) k _, (SlotPool.isFree_iff k).mpr
    ⟨nofun, fun e => hroles.ready_ne_filling e hk, fun e => hroles.held_ne_filling e hk, ?_⟩, rfl, rfl, rfl⟩
  simp

/-- What a Frame End reports of the time base, the repeat timer and the plan, seen in another state. -/
theorem repeatLoaded_congr {u v : State} {planned : Bool} (h : s.repeatLoaded u planned)
    (hotg : v.otg.keptRepeat = u.otg.keptRepeat ∧ v.otg.tminTimer = u.otg.tminTimer ∧ v.otg.planCount = u.otg.planCount ∧
      v.otg.repeatTimer = u.otg.repeatTimer) (hkind : v.ps.lastKind = u.ps.lastKind) : s.repeatLoaded v planned := by
  obtain ⟨h1, h2, h3, h4⟩ := hotg
  rw [State.repeatLoaded, h1, h2, h3, h4, hkind]
  exact h

/-- The refresh that starts as the frame completes (R74, R92). -/
theorem openedSlot_closes (hp : ReadyPool s k (s.completedPool k)) (ho : OpenedSlot s k a) (hcl : Closes n bad score first a t) :
    t.otg.timing = .scan ∧ t.otg.tLast = s.timeBase ∧ t.otg.nextStrip = 0 ∧ t.otg.minPassed = false ∧
      t.panel.refreshAt = some s.timeBase ∧ t.ps.lastKind = some .new ∧ t.pool.onScreen = some k ∧
      t.pool.ready = none ∧ t.pool.cands = [] ∧ t.pool.held = s.pool.held ∧ (t.slot k).presented = true ∧
      (t.slot k).shownTop = true ∧ (score < 128 → s.repeatLoaded t false) := by
  obtain ⟨-, hready, hheld, -⟩ := hp.markers
  obtain ⟨hcands', hready', hon', -, hheld', -, hslot⟩ := toScreen_alone hp.cands hready (s.shownRec k)
  have hpool : t.pool = { (s.completedPool k).toScreen k (s.shownRec k) with q := t.pool.q } := by
    rw [← ho.shown, hcl.pool, ho.pool]
  obtain ⟨hscan, hlast, hstrip, hmin, hstrobe⟩ := ho.begun
  obtain ⟨-, -, hpanel, -, -⟩ := hcl.rest
  have hself : t.slot k = s.shownRec k := by
    rw [State.slot, hpool]
    exact (hslot k).trans (if_pos rfl)
  have hkind : t.ps.lastKind = a.ps.lastKind := by rw [hcl.ps]
  rw [hself, hpanel]
  refine ⟨?_, ?_, ?_, ?_, hstrobe, ?_, ?_, ?_, ?_, ?_, rfl, rfl, fun hlow => ?_⟩
  · rw [hcl.otg]
    exact hscan
  · rw [hcl.otg]
    exact hlast
  · rw [hcl.otg]
    exact hstrip
  · rw [hcl.otg]
    exact hmin
  · rw [hkind, ho.ps]
  · rw [hpool]
    exact hon'
  · rw [hpool]
    exact hready'
  · rw [hpool]
    exact hcands'
  · rw [hpool]
    exact hheld'.trans hheld
  · obtain ⟨hcount, htimer⟩ := hcl.plan hlow
    exact repeatLoaded_congr ho.loaded ⟨by rw [hcl.otg], by rw [hcl.otg], hcount, htimer⟩ hkind

end Sys2Proof.Machine
end

section
/-! A complete Frame End, settled from its parts (R33). -/

namespace Sys2Proof.Machine

variable {s a t : State} {k : Slot} {n : FrameNo} {bad score : Nat} {first : Time}

/-- The lock's drop, by whether the frame becomes eligible (R60, R83). -/
theorem closes_lock (h : s.poolHolds) (hk : s.pool.filling = some k)
    (hsp : (completeSlot k s).sp = s.sp) (hcl : Closes n bad score first (completeSlot k s) t) :
    (¬ s.takes k → s.lockDrops t (bandOf score ≠ s.sp.state ∧ (bandOf score).healthy = false)) ∧
      (s.takes k → ¬ s.opensAt → s.measured.lockDrops t (bandOf score ≠ s.sp.state ∧ (bandOf score).healthy = false)) := by
  have hlock := hcl.lock
  rw [hsp] at hlock
  refine ⟨fun ht => ?_, fun ht ho => ?_⟩
  · obtain ⟨reports, -, heq⟩ := completeSlot_of_not_takes h.1 hk ht
    have hq : QuietSlot s s (completeSlot k s) s.ps.watchOpen := heq ▸ completed_quiet s k reports
    exact hq.lockDrops rfl rfl hlock
  · obtain ⟨hq, -⟩ := completeSlot_event h.1 hk (completedPool_rolesHold h.1 hk ht) ht ho
    obtain ⟨-, -, -, -, hpc, hnow, -⟩ := measured_frame s
    exact hq.lockDrops hpc hnow hlock

/-- The pool, by whether a refresh starts or a splice is made (R15, R19). -/
theorem completeSlot_pool_cases (h : s.poolHolds) (hk : s.pool.filling = some k) (hstate : s.sp.state ≠ .detached) :
    (s.takes k → s.opensAt → (completeSlot k s).pool =
      { State.shownPool { s with pool := s.completedPool k } with q := (completeSlot k s).pool.q }) ∧
    (s.takes k → s.splicesAt → (completeSlot k s).pool = State.splicedPool { s with pool := s.completedPool k } k) ∧
    (¬ (s.takes k ∧ s.opensAt) → ¬ (s.takes k ∧ s.splicesAt) → (completeSlot k s).pool = s.completedPool k) := by
  refine ⟨fun ht ho => ?_, fun ht hs => ?_, fun hno hns => ?_⟩
  · exact (completeSlot_opens h hk (completedPool_rolesHold h.1 hk ht) ht ho hstate).pool
  · have hno : ¬ s.opensAt := fun ⟨ho, _⟩ => by
      obtain ⟨hscan, -⟩ := hs
      rw [ho] at hscan
      cases hscan
    obtain ⟨-, hsplice, -⟩ := completeSlot_event h.1 hk (completedPool_rolesHold h.1 hk ht) ht hno
    obtain ⟨hpool, -⟩ := hsplice hs
    exact hpool
  · by_cases ht : s.takes k
    · obtain ⟨-, -, hrest⟩ := completeSlot_event h.1 hk (completedPool_rolesHold h.1 hk ht) ht fun ho => hno ⟨ht, ho⟩
      exact (hrest fun hs => hns ⟨ht, hs⟩).1
    · obtain ⟨reports, -, heq⟩ := completeSlot_of_not_takes h.1 hk ht
      rw [heq]
      rfl

/-- A frame that becomes eligible as it completes and starts no refresh (R12, R60). -/
theorem closes_eligible (h : s.poolHolds) (hk : s.pool.filling = some k) (ht : s.takes k) (ho : ¬ s.opensAt)
    (hsp : (completeSlot k s).sp = s.sp) (hcl : Closes n bad score first (completeSlot k s) t) :
    t.otg.timing = s.otg.timing ∧ t.otg.tLast = s.otg.tLast ∧ (t.slot k).eligible = true ∧
      ((bandOf score).healthy = true →
        t.otg.lock = s.measured.otg.lock ∧ t.pu.armed = s.measured.pu.armed ∧
        t.pu.nextFixed = s.measured.pu.nextFixed ∧ t.pu.good = s.measured.pu.good ∧ t.pu.bad = s.measured.pu.bad) := by
  obtain ⟨hdrop, hon, -⟩ := id ht
  have hdone := completedPool_rolesHold h.1 hk ht
  have hp := completedPool_readyPool h.1 hk hdrop hon
  obtain ⟨hq, hsplice, hrest⟩ := completeSlot_event h.1 hk hdone ht ho
  have hslot : t.slot k = (completeSlot k s).pool.slot k := by
    rw [State.slot, hcl.pool]
    rfl
  refine ⟨?_, ?_, ?_, fun hhealthy => ?_⟩
  · rw [hcl.otg, hq.otg]
  · rw [hcl.otg, hq.otg]
  · rw [hslot]
    by_cases hs : s.splicesAt
    · rw [(hsplice hs).1, splicedPool_slot, show State.slot { s with pool := s.completedPool k } k = _ from hp.self]
    · rw [(hrest hs).1, hp.self]
  · have hstays : ¬ (bandOf score ≠ s.sp.state ∧ (bandOf score).healthy = false) := fun ⟨_, hf⟩ => by
      rw [hhealthy] at hf
      cases hf
    obtain ⟨h1, h2, h3, h4⟩ := ((closes_lock h hk hsp hcl).2 ht ho).2 (.inl hstays)
    exact ⟨h1, hcl.armed.trans (by rw [hq.pu]), h4, h2, h3⟩

/-- A frame that becomes eligible in SCAN with the watch open under SPLICE: the watch closes, with a splice or without
(R103, R105, R106). -/
theorem closes_watched (h : s.poolHolds) (hk : s.pool.filling = some k) (ht : s.takes k) (hscan : s.otg.timing = .scan)
    (hwatch : s.ps.watchOpen = true) (htear : s.prof.tear = .splice) (hcl : Closes n bad score first (completeSlot k s) t) :
    t.ps.watchOpen = false ∧ t.ps.lastKind = s.ps.lastKind ∧
      (s.otg.nextStrip ≤ s.prof.spliceLimit →
        t.pool.onScreen = some k ∧ t.pool.ready = none ∧ (t.slot k).presented = true ∧
        (t.slot k).shownTop = (s.slot k).shownTop) ∧
      (s.prof.spliceLimit < s.otg.nextStrip → t.pool.onScreen = s.pool.onScreen ∧ t.pool.ready = some k) := by
  obtain ⟨hdrop, hon, -⟩ := id ht
  have hno : ¬ s.opensAt := fun ⟨ho, _⟩ => by
    rw [ho] at hscan
    cases hscan
  have hdone := completedPool_rolesHold h.1 hk ht
  have hp := completedPool_readyPool h.1 hk hdrop hon
  obtain ⟨-, hready, -, hscreen⟩ := hp.markers
  obtain ⟨hq, hsplice, hrest⟩ := completeSlot_event h.1 hk hdone ht hno
  have hclosed : s.watchAfter = false := by simp [State.watchAfter, hscan, htear]
  rw [hclosed] at hq
  have hslot : t.slot k = (completeSlot k s).pool.slot k := by
    rw [State.slot, hcl.pool]
    rfl
  refine ⟨?_, ?_, fun hle => ?_, fun hlt => ?_⟩
  · rw [hcl.ps, hq.ps]
  · rw [hcl.ps, hq.ps]
  · obtain ⟨hpool, -⟩ := hsplice ⟨hscan, hwatch, htear, hle⟩
    obtain ⟨p, heq, hcands', hready', -⟩ := splicedPool_eq { s with pool := s.completedPool k } k
    obtain ⟨-, hnone, -⟩ := toScreen_alone (hcands'.trans hp.cands) (hready'.trans hready)
      { State.slot { s with pool := s.completedPool k } k with presented := true }
    rw [hslot, hcl.pool, hpool, splicedPool_slot, show State.slot { s with pool := s.completedPool k } k = _ from hp.self]
    exact ⟨splicedPool_onScreen { s with pool := s.completedPool k } k, (congrArg SlotPool.ready heq).trans hnone, rfl, rfl⟩
  · obtain ⟨hpool, -⟩ := hrest fun ⟨_, _, _, hle⟩ => by omega
    rw [hcl.pool, hpool]
    exact ⟨hscreen, hready⟩

/-- Settles O50: the slot's completion, then the close of the frame. -/
theorem frameEndCompletes : Obligations.FrameEndCompletes := by
  intro s k first hr hatt hc hline hk hfirst hpool hscore bad score
  have hstate : s.sp.state ≠ .detached := fun h => by
    rw [h] at hatt
    cases hatt
  have hexec := exec_frameEnd_complete hr hatt hc hline hk hfirst
  obtain ⟨⟨hsp, hpf, htime⟩, ⟨hint, hfill⟩, hsource⟩ := completeSlot_kept hpool hk hstate
  obtain ⟨⟨hroles, -⟩, hnone⟩ := completeSlot_poolHolds hpool hk
  have hcl := frameClosed_closes (a := completeSlot k s) (hsp ▸ hatt) (hsp ▸ hscore) hroles
    (SlotPool.allMarked_of_none hnone) s.sp.frameCounter bad first
  have hring := completeSlot_ring hpool hk hstate
  have hstore : (completeSlot k s).pool.store = s.pool.store := by simp
  rw [hsp] at hcl
  have hlocks := closes_lock hpool hk hsp hcl
  have heligible (ht : s.takes k) (ho : ¬ s.opensAt) := closes_eligible hpool hk ht ho hsp hcl
  have hwatched (ht : s.takes k) (h1 : s.otg.timing = .scan) (h2 : s.ps.watchOpen = true) (h3 : s.prof.tear = .splice) :=
    closes_watched hpool hk ht h1 h2 h3 hcl
  have hfinished (hd : ¬ s.drops k) := completeSlot_finished hpool hk hstate hd
  obtain ⟨hopened, hspliced, hkept⟩ := completeSlot_pool_cases hpool hk hstate
  have hquiet (d : Decidable (s.takes k ∧ s.otg.timing = .scan ∧ s.prof.tear = .splice)) (hno : ¬ (s.takes k ∧ s.opensAt)) :=
    completeSlot_quiet (d := d) hpool hk hno
  have hready (ht : s.takes k) : ReadyPool s k (s.completedPool k) := by
    obtain ⟨hd, hon, -⟩ := ht
    exact completedPool_readyPool hpool.1 hk hd hon
  have hopens (ht : s.takes k) (ho : s.opensAt) :=
    openedSlot_closes (hready ht)
      (completeSlot_opens hpool hk (completedPool_rolesHold hpool.1 hk ht) ht ho hstate) hcl
  generalize settle (frameClosed s.sp.frameCounter (s.slot k).bad (some first) (completeSlot k s)) = t at *
  generalize completeSlot k s = a at *
  have hslot (j : Slot) : t.slot j = a.pool.slot j := by
    rw [State.slot, hcl.pool]
    rfl
  have hnotTakes (hd : s.drops k) : ¬ s.takes k := fun ht => ht.1 hd
  have hdropped (hd : s.drops k) : a.pool = s.completedPool k :=
    hkept (fun h => hnotTakes hd h.1) (fun h => hnotTakes hd h.1)
  have hzero (hbad : bad = 0) : score < 128 := by
    have hs : score = s.sp.score - 1 := if_pos hbad
    omega
  obtain ⟨-, -, -, hpf', htime'⟩ := hcl.rest
  refine ⟨t, hexec, ?_, ?_, ?_, ?_, ?_, hpf'.trans hpf, ?_, ?_, htime'.trans htime, fun r hr' hno => ?_, ?_, fun hne => ?_,
    fun hg hb => ?_, fun hd hon r hold => ?_, fun hhigh => ?_, ?_, fun hd => ?_, fun hbad => ?_, fun hd hon hset => ?_⟩
  · rw [hcl.sp]
  · rw [hcl.pool]
    exact hnone
  · rw [hcl.sp]
  · rw [hcl.sp]
  · rw [hcl.sp, hsp]
  · exact hcl.sp.trans (by rw [hsp])
  · rw [hcl.pool]
    exact hstore
  · have hring' := hcl.ring
    rw [htime] at hring'
    rw [hring'] at hr'
    exact completionRing_mem hr' hno
  · rw [hcl.ring, htime]
    exact hring
  · refine noticed_from hsource ?_
    exact hcl.source (by rw [hsp]; exact hne)
  · obtain ⟨hfree, hisFree, hready, -⟩ := completedPool_dropped hpool.1 hk ⟨hg, hb⟩
    rw [hslot, hcl.pool, hdropped ⟨hg, hb⟩]
    exact ⟨hfree, hisFree, hready⟩
  · rw [hslot]
    exact (hfinished hd).older hon r hold
  · obtain ⟨-, hi, hf⟩ := hcl.emptied hhigh
    have hnot : ¬ score < 128 := by omega
    refine ⟨?_, ?_, ?_, hi, hf⟩
    · rw [hcl.sp]
      exact if_neg hnot
    · rw [hcl.sp]
      exact if_neg hnot
    · rw [hcl.ps, htime]
      exact if_neg hnot
  · intro falls takes opens
    refine ⟨hlocks.1, hlocks.2, fun hno => ?_, ?_⟩
    · obtain ⟨m, hq⟩ := hquiet (Classical.propDecidable _) hno
      exact (closes_quiet hq hcl).1
    · intro done splices
      refine ⟨fun ht ho => ?_, fun ⟨ht, hs⟩ => ?_, fun hno => ⟨fun hns => ?_, ?_⟩⟩
      · rw [hcl.pool, hopened ht ho]
      · rw [hcl.pool, hspliced ht hs]
      · rw [hcl.pool, hkept hno hns]
      · exact (hquiet _ hno).elim fun m hq => (closes_quiet hq hcl).2
  · rw [hslot, hcl.pool]
    exact ⟨(hfinished hd).self.1, (hfinished hd).self.2, (hfinished hd).role⟩
  · obtain ⟨-, hf⟩ := hcl.windows (hzero hbad)
    rw [hf, State.fillsAfter, if_pos hbad, hfill, htime]
    rfl
  · exact ⟨fun ho => hopens ⟨hd, hon, hset⟩ ho, fun ho => heligible ⟨hd, hon, hset⟩ ho,
      fun h1 h2 h3 => hwatched ⟨hd, hon, hset⟩ h1 h2 h3⟩

end Sys2Proof.Machine
end
